-- ==== Sys2Proof/Word.lean ====
section
/-! DEFINITION. The words the manual computes with, and nothing else. -/

namespace Sys2Proof

/-- A byte. -/
abbrev Byte := BitVec 8

/-- A 32-bit control-space word (R29). -/
abbrev Word := BitVec 32

/-- A 64-bit register of a Kerf core (R189), or a 64-bit control-space register (R30). -/
abbrev Dword := BitVec 64

/-- The bytes of one 4 KiB sector.
A list shorter than 4,096 bytes stands for itself followed by zeros. -/
abbrev Sector := List Byte

end Sys2Proof
end

