-- ==== Sys2Proof/Syntax.lean ====
section
/-! DEFINITION. The commands the block takes: one constructor of `Instr` per row of the manual's table of operations and events.

A command is one whole and indivisible step of the table.
Its operands are what the step takes from outside the state: the words an accessor writes, the fields of an NVMe command,
the status byte a NAND die shows, the outcome of a decode, a measured voltage. -/

namespace Sys2Proof

/-- Who accesses control space (R30), and in which world (R27): `who` 0-7 is warden core `who`, 8 is the PF debug window. -/
structure Access where
  who : Nat
  secure : Bool
  deriving DecidableEq, Repr

/-- The guard of a Kerf instruction (R199): predicate `pred`, inverted when `inv`. -/
structure Guard where
  pred : BitVec 2
  inv : Bool
  deriving DecidableEq, Repr

/-- COND of CMP and CMPI (R199). -/
inductive Cond where
  | eq | ne | ltu | geu | lt | ge | tst | ntst
  deriving DecidableEq, Repr

/-- FN of PSET (R199). -/
inductive PsetFn where
  | and | or | xor | andNot
  deriving DecidableEq, Repr

/-- The register groups that commit staging copies through a COMMIT bit (R21). -/
inductive CommitBlk where
  | cal | dec (c : Nat) | map | tf (g : Nat) | fn | keySca | seal | bpm | mem | boom | thm | tally
  deriving DecidableEq, Repr

/-- What a decode of one codeword came to (R128, R133): the number of bits it corrected, a failed step, or a tag mismatch. -/
inductive DecodeOutcome where
  | corrected (bits : Nat)
  | failed
  | tagMismatch
  deriving DecidableEq, Repr

/-- The submission queue, function and command identifier an NVMe command came with. -/
structure Cmd where
  fn : Nat
  sq : Nat
  cid : Nat
  deriving DecidableEq, Repr

/-- A submission queue entry as the host wrote it: 64 bytes (R286, R305). -/
structure Sqe where
  bytes : List Byte
  deriving DecidableEq, Repr

/-- The place of a sector in flash (R170, R173). -/
structure Loc where
  cord : Nat
  cblk : Nat
  row : Nat
  slot : Nat
  plane : Nat
  sect : Nat
  deriving DecidableEq, Repr

/-- What failed in a host DMA (R282). -/
inductive DmaFault where
  | data (c : Cmd)
  | sqFetch (fn : Nat)
  | cqWrite (fn : Nat)
  deriving DecidableEq, Repr

/-- What an ATS translation completion says (R337). -/
inductive AtsResult where
  | granted (page : Nat)
  | untranslatedOnly
  | denied
  deriving DecidableEq, Repr

/-- The alarm sources of the key store (R357), in bit order. -/
inductive AlarmSource where
  | vglitch | cglitch | temp | mesh | rail | lockstep | repeat16
  deriving DecidableEq, Repr

/-- The wake sources of R433, in the bit order of PMU_WAKE.SEEN. -/
inductive WakeSource where
  | host | mi | link | boom | timer | secure
  deriving DecidableEq, Repr

/-- The single-instance lockstep blocks of R45, in the order of events 292-296. -/
inductive LockstepBlk where
  | cal | coll | bpm | map | seal
  deriving DecidableEq, Repr

/-- The parts whose self-check, parity check or watchdog can fail (R45, R120). -/
inductive UnitRef where
  | channelParity (n : Nat) | channelWatchdog (n : Nat) | decLane (c lane : Nat) | decComplex (c : Nat) | bandTable (c : Nat)
  | kerfCore (core : Nat) | tfLane (g lane : Nat) | wardenCore (c : Nat) | sramWord (handle : Word)
  deriving DecidableEq, Repr

/-- The supplies and clocks that can fail to become ready (R434). -/
inductive SupplyFail where
  | raise (exiting second : Bool) | lower | regionSwitch (g : Nat) (second : Bool) | pll (second : Bool)
  deriving DecidableEq, Repr

/-- What fails as a package fault (R44). -/
inductive PackageRef where
  | region (g : Nat) | die (d : Nat) | hub
  deriving DecidableEq, Repr

/-- What the outside found at each point of a start-up (R462-R470): which steps fail and what the boot ROM read. -/
structure BootReport where
  /-- R463: some firmware slot verified. -/
  firmwareOk : Bool
  /-- R463: the slot booted, and whether the ACTIVE slot failed. -/
  slot : Nat
  fallback : Bool
  /-- R462: the second directory copy was used. -/
  dirCopy : Bool
  /-- SVN of the booted firmware. -/
  svn : Nat
  /-- R463, R464: the option block envelope, header and directory hold. -/
  optionBlockOk : Bool
  /-- R391, R400: the DRAM population equals the record, and the rate it trained at (0: none; 1-3 as MEM_STATUS.RATE). -/
  dramOk : Bool
  dramRate : Nat
  /-- R91, R103: (die, 5) answered no or a wrong ID, (die of the chip enable, 6) a wrong parameter page. -/
  nandMismatch : List (Nat × Nat)
  /-- R115: factory-marked blocks (die, block) read by the scan of the first start-up in PROVISIONED. -/
  factoryMarks : List (Nat × Nat)
  /-- R92: what training comes to at a chip enable, by channel * 4 + chip enable: one more than the best rate code, 0 where it trains at none.
  A chip enable that is not listed trains at every rate. -/
  training : List (Nat × Nat)
  /-- R470: pages of the refuge that did not decode, by position in the refuge record. -/
  refugeLost : List Nat
  deriving DecidableEq, Repr

/-- A reading of the rail ADC (R451): input and kept code. -/
structure AdcSample where
  input : Nat
  code : Nat
  deriving DecidableEq, Repr

/-- The payload of a ROOT frame (R406). -/
structure RootMsg where
  root : Nat
  level : Nat
  parent : Bool
  size : Nat
  deriving DecidableEq, Repr

/-- The payload of a TSYNC frame (R406), with the time at which it was received. -/
structure TsyncMsg where
  tTx : Nat
  tRxe : Nat
  tTxe : Nat
  lock : Bool
  rxTime : Nat
  deriving DecidableEq, Repr

/-- The payload of a SVC frame (R406). OP: 0 broadcast, 1 barrier, 2 snapshot, 3 system reset. -/
structure SvcMsg where
  /-- 0: request towards the root, 1: order towards the leaves, 2: report towards the root. -/
  dir : Nat
  op : Nat
  status : Nat
  sid : Nat
  tick : Nat
  countA : Nat
  countB : Nat
  data : List Word
  deriving DecidableEq, Repr

/-- What every received Boom frame shows the receiver (R404, R405): port, NODE, SEQ, ACK, and whether CRC and tag hold. -/
structure FrameHdr where
  port : Nat
  node : Nat
  seq : Nat
  ack : Nat
  crcOk : Bool
  tagOk : Bool
  deriving DecidableEq, Repr

/-- A request to a DRAM sub-channel (R395, R396): port, DRAM offset and arrival time in ns. -/
structure DramReq where
  port : Nat
  offset : Nat
  arrived : Nat
  deriving DecidableEq, Repr

/-- The commands. The comment of each constructor gives the table's row and its rule. -/
inductive Instr where
  -- the tick and control space
  /-- TICK_BOUNDARY (R48). -/
  | tickBoundary
  /-- COMMIT_WRITE (R21). -/
  | commitWrite (acc : Access) (blk : CommitBlk)
  /-- REGISTER_WRITE (R43). -/
  | registerWrite (acc : Access) (addr : Nat) (v : Word)
  /-- CLEAR_ON_READ (R13). -/
  | clearOnRead (acc : Access) (addr : Nat)
  /-- REG64_LOW_READ (R30). -/
  | reg64LowRead (acc : Access) (addr : Nat)
  /-- REG64_HIGH_WRITE (R30). -/
  | reg64HighWrite (acc : Access) (addr : Nat) (v : Word)
  /-- REG64_LOW_WRITE (R30). -/
  | reg64LowWrite (acc : Access) (addr : Nat) (v : Word)
  /-- BUS_ERROR_ACCESS (R26). `wr` is the word of a write, none for a read. -/
  | busErrorAccess (acc : Access) (addr width : Nat) (wr : Option Word)
  /-- ABSENT_UNIT_ACCESS (R5). -/
  | absentUnitAccess (acc : Access) (addr : Nat) (wr : Option Word)
  /-- DEBUG_WINDOW_ACCESS (R31). -/
  | debugWindowAccess (addr width : Nat) (wr : Option Word)
  -- planning
  /-- PLAN_COMMIT (R49), at reference cycle `cycle`. -/
  | planCommit (cycle : Nat)
  /-- PLAN_ABANDON (R50). -/
  | planAbandon
  /-- SHED_START (R79). -/
  | shedStart
  /-- SHED_END (R79). -/
  | shedEnd
  /-- ARRAY_READ_END (R56). -/
  | arrayReadEnd (die : Nat)
  /-- SUSPEND_DONE (R56). -/
  | suspendDone (die : Nat)
  /-- RESUME_DONE (R56). -/
  | resumeDone (die : Nat)
  /-- LOCK_END (R56). -/
  | lockEnd (die : Nat)
  /-- STATUS_POLL (R110): the die shows status byte `status`. -/
  | statusPoll (die : Nat) (status : Byte)
  /-- COLLECTOR_GRANT (R82). -/
  | collectorGrant
  /-- COMPLETION_COLLECTED (R57): the calendar master takes the oldest delivered record. -/
  | completionCollected
  /-- DIE_TIMEOUT (R57). -/
  | dieTimeout (die : Nat)
  /-- READ_ACCEPT (R70) of read item `item`. -/
  | readAccept (item : Nat)
  /-- DIE_BUSY_POST (R65) of read item `item`. -/
  | dieBusyPost (item : Nat)
  /-- RECONSTRUCT_XOR (R63): `crcOk` says whether the rebuilt codeword passes R128 (R138). -/
  | reconstructXor (job : Nat) (crcOk : Bool)
  /-- CAL_ADMIT_TEST (R86). -/
  | calAdmitTest (nsid q : Nat) (nowait : Bool) (modes cls : Nat)
  /-- CAL_ADMIT_BIND (R72). -/
  | calAdmitBind (nsid q : Nat) (nowait : Bool) (modes cls : Nat)
  /-- CAL_ADMIT_RELEASE (R86). -/
  | calAdmitRelease (nsid : Nat)
  /-- CAL_FLOOR_WRITE (R85): the word written to CAL_FLOOR. -/
  | calFloorWrite (acc : Access) (v : Word)
  /-- CAL_NRG_BUDGET_WRITE (R109): the word written to CAL_NRG_BUDGET. -/
  | calNrgBudgetWrite (acc : Access) (v : Word)
  /-- CAL_MAINT_READ (R504). -/
  | calMaintRead (die planes ahead : Nat) (exact : Bool) (buf : Word)
  /-- CAL_MAINT_ERASE (R504). -/
  | calMaintErase (die planes ahead : Nat) (exact : Bool)
  /-- CAL_MAINT_MAINTENANCE (R504). -/
  | calMaintMaintenance (die planes ahead : Nat) (exact : Bool) (buf : Word)
  /-- CAL_DBG_SEL_WRITE (R54). -/
  | calDbgSelWrite (acc : Access) (v : Word)
  -- channels
  /-- CH_START (R91). -/
  | chStart (n : Nat)
  /-- BRINGUP_END (R92): `best` gives, for each declared chip enable, one more than the highest rate code at which its training passes, 0 if none. -/
  | bringupEnd (n : Nat) (best : List Nat)
  /-- BRINGUP_TIMEOUT (R93). -/
  | bringupTimeout (n : Nat)
  /-- CH_FENCE (R88). -/
  | chFence (n : Nat)
  -- decoder
  /-- CODEWORD_DECODE (R133): the codeword of read job `job` at sector `sect` of its page. -/
  | codewordDecode (job sect : Nat) (out : DecodeOutcome)
  /-- REWRITE_QUEUE_POP (R144). -/
  | rewriteQueuePop (acc : Access) (c : Nat)
  /-- DEC_LANE_FENCE (R132): DEC_CTRL.FENCE bits set. -/
  | decLaneFence (c : Nat) (mask : Nat)
  /-- FIRST_SAMPLE_SCAN (R148). -/
  | firstSampleScan (cord cblk : Nat)
  /-- PATROL_READ (R148). -/
  | patrolRead (cord cblk member : Nat)
  -- cords and map
  /-- GROUP_PAD (R159). -/
  | groupPad (grp : Nat)
  /-- PAGE_LOSS (R162): the page of data slot `slot` (none: the parity page) of `row` in group `grp`. -/
  | pageLoss (grp row : Nat) (slot : Option Nat) (plane : Nat)
  /-- PAGE_REBUILD_DONE (R162). -/
  | pageRebuildDone (grp row : Nat)
  /-- MAP_FETCH_DONE (R175). -/
  | mapFetchDone (page : Nat)
  /-- MAP_PIN (R177). -/
  | mapPin (nsid : Nat)
  /-- MAP_UNPIN (R177). -/
  | mapUnpin (nsid : Nat)
  /-- GC_MOVE_COMMIT (R182): sector `ltag` of namespace `nsx`, read at `victim`. -/
  | gcMoveCommit (nsx ltag : Nat) (victim : Loc)
  /-- REFRESH_MOVE (R185): cord block (`cord`, `cblk`) is moved; `bad` lists the sectors that end with DEC_UNCORR. -/
  | refreshMove (cord cblk : Nat) (bad : List Loc)
  /-- BBT_READ (R187). -/
  | bbtRead (idx : Nat)
  /-- BBT_ADD (R187): words 0-3 of the entry. -/
  | bbtAdd (w0 w1 w2 w3 : Word)
  /-- BBT_REMOVE (R187). -/
  | bbtRemove (idx : Nat)
  -- Kerf data profile. `c` is the core by MFS selector 7: 0-31 cluster, 32-39 hub, 40-47 warden.
  /-- INVOCATION_DISPATCH (R192): the items of the batch. -/
  | invocationDispatch (c slot entry : Nat) (items : List Nat)
  /-- INVOCATION_BUDGET_OVERRUN (R194). -/
  | invocationBudgetOverrun (c : Nat)
  /-- NOP (R200). -/
  | nop (c : Nat) (g : Guard)
  /-- ADD (R200). -/
  | add (c : Nat) (g : Guard) (rd ra rb : BitVec 4)
  /-- SUB (R200). -/
  | sub (c : Nat) (g : Guard) (rd ra rb : BitVec 4)
  /-- MUL (R200). -/
  | mul (c : Nat) (g : Guard) (rd ra rb : BitVec 4)
  /-- AND (R200). -/
  | and (c : Nat) (g : Guard) (rd ra rb : BitVec 4)
  /-- OR (R200). -/
  | or (c : Nat) (g : Guard) (rd ra rb : BitVec 4)
  /-- XOR (R200). -/
  | xor (c : Nat) (g : Guard) (rd ra rb : BitVec 4)
  /-- SHL (R200). -/
  | shl (c : Nat) (g : Guard) (rd ra rb : BitVec 4)
  /-- SHR (R200). -/
  | shr (c : Nat) (g : Guard) (rd ra rb : BitVec 4)
  /-- SAR (R200). -/
  | sar (c : Nat) (g : Guard) (rd ra rb : BitVec 4)
  /-- MINU (R200). -/
  | minu (c : Nat) (g : Guard) (rd ra rb : BitVec 4)
  /-- MAXU (R200). -/
  | maxu (c : Nat) (g : Guard) (rd ra rb : BitVec 4)
  /-- POPC (R200). -/
  | popc (c : Nat) (g : Guard) (rd ra : BitVec 4)
  /-- CLZ (R200). -/
  | clz (c : Nat) (g : Guard) (rd ra : BitVec 4)
  /-- ADDI (R200). -/
  | addi (c : Nat) (g : Guard) (rd ra : BitVec 4) (imm : BitVec 15)
  /-- ANDI (R200). -/
  | andi (c : Nat) (g : Guard) (rd ra : BitVec 4) (imm : BitVec 15)
  /-- ORI (R200). -/
  | ori (c : Nat) (g : Guard) (rd ra : BitVec 4) (imm : BitVec 15)
  /-- XORI (R200). -/
  | xori (c : Nat) (g : Guard) (rd ra : BitVec 4) (imm : BitVec 15)
  /-- SHLI (R200). -/
  | shli (c : Nat) (g : Guard) (rd ra : BitVec 4) (sh : BitVec 6)
  /-- SHRI (R200). -/
  | shri (c : Nat) (g : Guard) (rd ra : BitVec 4) (sh : BitVec 6)
  /-- SARI (R200). -/
  | sari (c : Nat) (g : Guard) (rd ra : BitVec 4) (sh : BitVec 6)
  /-- MOVI (R200). -/
  | movi (c : Nat) (g : Guard) (rd : BitVec 4) (imm : BitVec 15)
  /-- MOVK (R200). -/
  | movk (c : Nat) (g : Guard) (rd : BitVec 4) (hw : BitVec 2) (imm : BitVec 16)
  /-- BEXT (R200). -/
  | bext (c : Nat) (g : Guard) (rd ra : BitVec 4) (pos lenm1 : BitVec 6)
  /-- BINS (R200). -/
  | bins (c : Nat) (g : Guard) (rd ra : BitVec 4) (pos lenm1 : BitVec 6)
  /-- CMP (R200). -/
  | cmp (c : Nat) (g : Guard) (pd : BitVec 2) (ra rb : BitVec 4) (cond : Cond)
  /-- CMPI (R200). -/
  | cmpi (c : Nat) (g : Guard) (pd : BitVec 2) (cond : Cond) (ra : BitVec 4) (imm : BitVec 14)
  /-- PSET (R200). -/
  | pset (c : Nat) (g : Guard) (pd pa pb : BitVec 2) (fn : PsetFn)
  /-- LDB (R196). -/
  | ldb (c : Nat) (g : Guard) (rd ra : BitVec 4) (imm : BitVec 15)
  /-- LDH (R196). -/
  | ldh (c : Nat) (g : Guard) (rd ra : BitVec 4) (imm : BitVec 15)
  /-- LDW (R196). -/
  | ldw (c : Nat) (g : Guard) (rd ra : BitVec 4) (imm : BitVec 15)
  /-- LDD (R196). -/
  | ldd (c : Nat) (g : Guard) (rd ra : BitVec 4) (imm : BitVec 15)
  /-- STB (R196). -/
  | stb (c : Nat) (g : Guard) (rd ra : BitVec 4) (imm : BitVec 15)
  /-- STH (R196). -/
  | sth (c : Nat) (g : Guard) (rd ra : BitVec 4) (imm : BitVec 15)
  /-- STW (R196). -/
  | stw (c : Nat) (g : Guard) (rd ra : BitVec 4) (imm : BitVec 15)
  /-- STD (R196). -/
  | std (c : Nat) (g : Guard) (rd ra : BitVec 4) (imm : BitVec 15)
  /-- SADD (R208). -/
  | sadd (c : Nat) (g : Guard) (rd ra : BitVec 4) (imm : BitVec 15)
  /-- EMIT (R210). -/
  | emit (c : Nat) (g : Guard) (ri ra : BitVec 4)
  /-- FAIL (R203). -/
  | fail (c : Nat) (g : Guard) (ri : BitVec 4) (reason : BitVec 6)
  /-- UNDO (R203). -/
  | undo (c : Nat) (g : Guard) (ri : BitVec 4)
  /-- BR (R202). -/
  | br (c : Nat) (g : Guard) (off : BitVec 10)
  /-- LOOP (R201). -/
  | loop (c : Nat) (rc : BitVec 4) (maxm1 : BitVec 9) (len : BitVec 10)
  /-- EXIT (R206). -/
  | exit (c : Nat) (g : Guard)
  /-- ABORT (R207). -/
  | abort (c : Nat) (g : Guard) (code : BitVec 6)
  /-- MFS (R200). -/
  | mfs (c : Nat) (g : Guard) (rd : BitVec 4) (sel : BitVec 3)
  /-- CLRV (R190). -/
  | clrv (c : Nat) (g : Guard)
  /-- SHUF (R203). -/
  | shuf (c : Nat) (g : Guard) (ri : BitVec 4) (bits : BitVec 8)
  /-- SQZ (R203). -/
  | sqz (c : Nat) (g : Guard) (ri : BitVec 4) (level : BitVec 2)
  /-- XTS (R203). -/
  | xts (c : Nat) (g : Guard) (ri : BitVec 4) (key : BitVec 4)
  /-- HASH (R203). -/
  | hash (c : Nat) (g : Guard) (ri : BitVec 4)
  /-- PLACE (R203). -/
  | place (c : Nat) (g : Guard) (ri : BitVec 4) (evid : Bool)
  /-- TAG (R209). -/
  | tag (c : Nat) (g : Guard) (ri ra : BitVec 4)
  -- Kerf control profile
  /-- JMP (R222). -/
  | jmp (c : Nat) (g : Guard) (off : BitVec 23)
  /-- CALL (R222). -/
  | call (c : Nat) (g : Guard) (off : BitVec 23)
  /-- JR (R222). -/
  | jr (c : Nat) (g : Guard) (ra : BitVec 4)
  /-- MFC (R224). -/
  | mfc (c : Nat) (g : Guard) (rd : BitVec 4) (csr : BitVec 12)
  /-- MTC (R224). -/
  | mtc (c : Nat) (g : Guard) (ra : BitVec 4) (csr : BitVec 12)
  /-- WCALL (R228). -/
  | wcall (c : Nat) (g : Guard) (svc : BitVec 15)
  /-- ERET (R228). -/
  | eret (c : Nat) (g : Guard)
  /-- WFI (R222). -/
  | wfi (c : Nat) (g : Guard)
  /-- FENCE (R222). -/
  | fence (c : Nat) (g : Guard)
  /-- CAS (R222). -/
  | cas (c : Nat) (g : Guard) (rd ra rb : BitVec 4)
  /-- INTERRUPT_ENTRY (R227). -/
  | interruptEntry (c : Nat)
  -- Kerf loader and bindings
  /-- KRF_LOAD (R212). -/
  | krfLoad
  /-- KRF_UNLOAD (R214). -/
  | krfUnload (slot : Nat)
  /-- SLOT_DRAIN_DONE (R214). -/
  | slotDrainDone (slot : Nat)
  /-- KRF_BIND (R216). -/
  | krfBind (nsx ph slot : Nat)
  /-- KRF_UNBIND (R217). -/
  | krfUnbind (nsx ph : Nat)
  /-- KRF_LOOKUP (R217). -/
  | krfLookup (nsx ph : Nat)
  -- warden pairs and mailboxes
  /-- WP_COMMIT (R232), written by core `c` (0-7). -/
  | wpCommit (c : Nat)
  /-- WP_COMMIT_DONE (R232). -/
  | wpCommitDone (p : Nat)
  /-- WARDEN_CORE_FAIL (R235): `selfCheck` says that the core's self-check failed in the tick that ends. -/
  | wardenCoreFail (c : Nat) (selfCheck : Bool)
  /-- MBX_POST (R240) by core `c`. -/
  | mbxPost (c : Nat)
  /-- MBX_POP (R238) by core `c`. -/
  | mbxPop (c : Nat)
  /-- IMAGE_ENVELOPE_CHECK (R243) of the envelope at aperture address `addr`. -/
  | imageEnvelopeCheck (addr : Nat)
  -- transform lanes
  /-- TF_LANE_FENCE (R248). -/
  | tfLaneFence (g : Nat) (mask : Nat)
  /-- TQ_DESCRIPTOR_FETCH (R267) in region `g`. -/
  | tqDescriptorFetch (g : Nat)
  /-- COPY (R269): the descriptor that ring `q` of region `g` runs. -/
  | copy (g q : Nat)
  /-- FILL (R269). -/
  | fill (g q : Nat)
  /-- GATHER (R270). -/
  | gather (g q : Nat)
  /-- TQ_SHUF (R269). -/
  | tqShuf (g q : Nat)
  /-- SQZ_C (R257). -/
  | sqzC (g q lane : Nat)
  /-- SQZ_X (R258). -/
  | sqzX (g q lane : Nat)
  /-- XTS_E (R264). -/
  | xtsE (g q : Nat)
  /-- XTS_D (R264). -/
  | xtsD (g q : Nat)
  /-- GCM_E (R265). -/
  | gcmE (g q : Nat)
  /-- GCM_D (R266). -/
  | gcmD (g q : Nat)
  /-- TQ_HASH (R269). -/
  | tqHash (g q : Nat)
  /-- TQ_RESUME (R274). -/
  | tqResume (g q : Nat)
  -- host
  /-- HOST_LINK_UP (R278), at the speed and width codes of HOST_LINK_STAT. -/
  | hostLinkUp (link speed width : Nat)
  /-- HOST_LINK_DOWN (R281). -/
  | hostLinkDown (link : Nat)
  /-- DOORBELL_WRITE (R280). -/
  | doorbellWrite (fn qid : Nat) (isCq : Bool) (val : Nat)
  /-- CMD_FETCH (R286): the entries that wait at the head of the queue that the decision chooses. -/
  | cmdFetch (sqes : List Sqe)
  /-- HOST_DMA_FAILURE (R282). -/
  | hostDmaFailure (what : DmaFault)
  /-- READ (R289). -/
  | read (cmd : Cmd) (nsid slba nlb psdt : Nat)
  /-- WRITE (R288). -/
  | write (cmd : Cmd) (nsid slba nlb psdt : Nat) (dtype dspec : Nat) (data : List Sector)
  /-- FLUSH (R288). -/
  | flush (cmd : Cmd) (nsid : Nat)
  /-- WRITE_ZEROES (R306). -/
  | writeZeroes (cmd : Cmd) (nsid slba nlb : Nat)
  /-- DATASET_MANAGEMENT (R306): the ranges to deallocate. -/
  | datasetManagement (cmd : Cmd) (nsid : Nat) (ranges : List (Nat × Nat))
  /-- ZONE_APPEND (R298). -/
  | zoneAppend (cmd : Cmd) (nsid zslba nlb psdt : Nat) (data : List Sector)
  /-- ZONE_OPEN (R294). -/
  | zoneOpen (cmd : Cmd) (nsid zslba : Nat) (all : Bool)
  /-- ZONE_CLOSE (R361). -/
  | zoneClose (cmd : Cmd) (nsid zslba : Nat) (all : Bool)
  /-- ZONE_FINISH (R295). -/
  | zoneFinish (cmd : Cmd) (nsid zslba : Nat) (all : Bool)
  /-- ZONE_RESET (R297). -/
  | zoneReset (cmd : Cmd) (nsid zslba : Nat) (all : Bool)
  /-- ZONE_OFFLINE (R292). -/
  | zoneOffline (cmd : Cmd) (nsid zslba : Nat)
  /-- SET_ZONE_DESCRIPTOR_EXT (R292). -/
  | setZoneDescriptorExt (cmd : Cmd) (nsid zslba : Nat)
  /-- ZONE_MANAGEMENT_RECEIVE (R292). -/
  | zoneManagementReceive (cmd : Cmd) (nsid zslba : Nat)
  /-- INVALID_OPCODE (R306). -/
  | invalidOpcode (cmd : Cmd) (opc : Nat)
  /-- CREATE_IO_SQ (R285). -/
  | createIoSq (cmd : Cmd) (qid size cqid prio : Nat) (contiguous : Bool)
  /-- CREATE_IO_CQ (R478). -/
  | createIoCq (cmd : Cmd) (qid size iv : Nat) (ien contiguous : Bool)
  /-- DELETE_IO_SQ (R306). -/
  | deleteIoSq (cmd : Cmd) (qid : Nat)
  /-- DELETE_IO_CQ (R306). -/
  | deleteIoCq (cmd : Cmd) (qid : Nat)
  /-- GET_LOG_PAGE (R308). -/
  | getLogPage (cmd : Cmd) (lid : Nat)
  /-- GET_LOG_EMIT_RING (R308): `len` bytes from the start of the log. -/
  | getLogEmitRing (cmd : Cmd) (lsp len : Nat)
  /-- IDENTIFY (R307). -/
  | identify (cmd : Cmd) (cns nsid : Nat)
  /-- NVME_ABORT (R289). -/
  | nvmeAbort (cmd : Cmd) (sqid cid : Nat)
  /-- SET_FEATURES (R310). -/
  | setFeatures (cmd : Cmd) (fid : Nat) (cdw11 : Word) (save : Bool)
  /-- GET_FEATURES (R310). -/
  | getFeatures (cmd : Cmd) (fid nsid : Nat)
  /-- SET_FEATURE_ARBITRATION (R286). -/
  | setFeatureArbitration (cmd : Cmd) (ab lpw mpw hpw : Nat)
  /-- SET_FEATURE_NUMBER_OF_QUEUES (R285): 0-based requests. -/
  | setFeatureNumberOfQueues (cmd : Cmd) (nsqr ncqr : Nat)
  /-- SET_FEATURE_POWER_MANAGEMENT (R426). -/
  | setFeaturePowerManagement (cmd : Cmd) (ps : Nat)
  /-- SET_FEATURE_APST (R427): (ITPS, ITPT) of entries 0-4. -/
  | setFeatureApst (cmd : Cmd) (apste : Bool) (entries : List (Nat × Nat))
  /-- SET_FEATURE_FDP (R299). -/
  | setFeatureFdp (cmd : Cmd) (enable : Bool)
  /-- SET_FEATURE_READ_CONTRACT (R301). -/
  | setFeatureReadContract (cmd : Cmd) (nsid : Nat) (cdw11 : Word) (save : Bool)
  /-- SET_FEATURE_OWNERSHIP (R284). -/
  | setFeatureOwnership (cmd : Cmd) (nsid : Nat)
  /-- OWNERSHIP_AUTO_MOVE (R284). -/
  | ownershipAutoMove (nsid : Nat)
  /-- OWNERSHIP_SWAP (R284). -/
  | ownershipSwap (nsid : Nat)
  /-- ASYNC_EVENT_REQUEST (R306). -/
  | asyncEventRequest (cmd : Cmd)
  /-- NAMESPACE_MANAGEMENT (R322): `sel` 0 creates, 1 deletes. -/
  | namespaceManagement (cmd : Cmd) (sel nsid : Nat) (zoned : Bool) (size : Nat) (mode w : Nat) (handles : List Nat)
  /-- NAMESPACE_ATTACHMENT (R283): `sel` 0 attaches, 1 detaches. -/
  | namespaceAttachment (cmd : Cmd) (sel nsid : Nat) (ctrls : List Nat)
  /-- FIRMWARE_IMAGE_DOWNLOAD (R311): offset and length in bytes. -/
  | firmwareImageDownload (cmd : Cmd) (off len : Nat)
  /-- FIRMWARE_COMMIT (R311): `sigOk` and `svn` are what the check of the image gives. -/
  | firmwareCommit (cmd : Cmd) (ca fs : Nat) (keyid svn : Nat) (sigOk : Bool)
  /-- FORMAT_NVM (R314). -/
  | formatNvm (cmd : Cmd) (nsid lbaf ses : Nat)
  /-- FORMAT_UNIT_DONE (R313). -/
  | formatUnitDone (ok : Bool)
  /-- SANITIZE_BLOCK_ERASE (R312). -/
  | sanitizeBlockErase (cmd : Cmd)
  /-- SANITIZE_CRYPTO_ERASE (R312). -/
  | sanitizeCryptoErase (cmd : Cmd)
  /-- SANITIZE_EXIT_FAILURE_MODE (R312). -/
  | sanitizeExitFailureMode (cmd : Cmd)
  /-- SANITIZE_OVERWRITE (R312). -/
  | sanitizeOverwrite (cmd : Cmd)
  /-- SANITIZE_UNIT_DONE (R313). -/
  | sanitizeUnitDone (ok : Bool)
  /-- NVME_MI_SEND (R306). -/
  | nvmeMiSend (cmd : Cmd) (payload : List Byte)
  /-- NVME_MI_RECEIVE (R306). -/
  | nvmeMiReceive (cmd : Cmd) (payload : List Byte)
  /-- MI_REQUEST (R238). -/
  | miRequest (tag : Word) (payload : List Byte)
  /-- ADMIN_COMPLETION (R305): the oldest WP1 reply released to the host engine. -/
  | adminCompletion
  -- security protocols
  /-- TOKEN_CHALLENGE (R371). -/
  | tokenChallenge (cmd : Cmd)
  /-- TOKEN_RELEASE_ZONE (R372): the 192 bytes of the token. -/
  | tokenReleaseZone (cmd : Cmd) (tok : List Byte)
  /-- TOKEN_ENTER_HOLD (R374). -/
  | tokenEnterHold (cmd : Cmd) (tok : List Byte)
  /-- TOKEN_LEAVE_HOLD (R374). -/
  | tokenLeaveHold (cmd : Cmd) (tok : List Byte)
  /-- TOKEN_RETIRE (R374). -/
  | tokenRetire (cmd : Cmd) (tok : List Byte)
  /-- TOKEN_DEPLOY (R374). -/
  | tokenDeploy (cmd : Cmd) (tok : List Byte)
  /-- RAW_SECTOR_RANGE_SEND (R370). -/
  | rawSectorRangeSend (cmd : Cmd) (nsid : Nat) (payload : List Byte)
  /-- RAW_SECTOR_RECEIVE (R370). -/
  | rawSectorReceive (cmd : Cmd) (nsid : Nat)
  /-- SEAL_LOG_SEQ_SEND (R369). -/
  | sealLogSeqSend (cmd : Cmd) (payload : List Byte)
  /-- SEAL_LOG_RECEIVE (R369). -/
  | sealLogReceive (cmd : Cmd)
  /-- EPOCH_KEY_OBJECT_RECEIVE (R369). -/
  | epochKeyObjectReceive (cmd : Cmd)
  /-- IDENTITY_CHAIN_RECEIVE (R369). -/
  | identityChainReceive (cmd : Cmd)
  /-- DIRTY_LOG_RECEIVE (R335). -/
  | dirtyLogReceive (cmd : Cmd) (fn : Nat)
  /-- KEY_PAGE_GENERATE_XTS (R344). -/
  | keyPageGenerateXts (cmd : Cmd) (payload : List Byte)
  /-- KEY_PAGE_GENERATE_GCM (R344). -/
  | keyPageGenerateGcm (cmd : Cmd) (payload : List Byte)
  /-- KEY_PAGE_ERASE (R344). -/
  | keyPageErase (cmd : Cmd) (payload : List Byte)
  /-- KEY_PAGE_REWRITE (R344). -/
  | keyPageRewrite (cmd : Cmd) (payload : List Byte)
  /-- SECURITY_PROTOCOL_INVALID (R373). -/
  | securityProtocolInvalid (cmd : Cmd) (secp : Nat)
  -- functions
  /-- FN_ENABLE (R317). -/
  | fnEnable (fn : Nat)
  /-- FN_DISABLE (R326). -/
  | fnDisable (fn : Nat)
  /-- FN_DRAIN_RESET (R327). -/
  | fnDrainReset (fn : Nat)
  /-- FN_SQUASH_RESET (R327). -/
  | fnSquashReset (fn : Nat)
  /-- FN_PAUSE (R330). -/
  | fnPause (fn : Nat)
  /-- FN_RESUME (R330). -/
  | fnResume (fn : Nat)
  /-- FUNCTION_LEVEL_RESET (R326). -/
  | functionLevelReset (fn : Nat)
  /-- CC_EN_CLEAR (R326). -/
  | ccEnClear (fn : Nat)
  /-- SHUTDOWN_NOTIFICATION (R326). -/
  | shutdownNotification (fn : Nat)
  /-- VF_ENABLE_CHANGE (R317). -/
  | vfEnableChange (link : Nat) (vfEnable : Bool) (numVfs : Nat)
  /-- FUNCTION_RESET_DONE (R327). -/
  | functionResetDone (fn : Nat)
  /-- DRAIN_TIMEOUT (R328). -/
  | drainTimeout (fn : Nat)
  /-- DLOG_START (R335). -/
  | dlogStart (slot fn : Nat)
  /-- DLOG_STOP (R334). -/
  | dlogStop (slot : Nat)
  /-- DLOG_CUT (R333). -/
  | dlogCut (slot : Nat)
  /-- TRANSLATION_COMPLETION (R337). -/
  | translationCompletion (req : Nat) (res : AtsResult)
  /-- TRANSLATION_TIMEOUT (R337). -/
  | translationTimeout (req : Nat)
  /-- ATS_INVALIDATE (R338): `pages` pages from page `page` of function `fn`. -/
  | atsInvalidate (fn : Nat) (pasid : Option Nat) (page pages : Nat)
  -- keys and seal
  /-- KEY_GENERATE_XTS (R344). -/
  | keyGenerateXts (page index : Nat)
  /-- KEY_GENERATE_GCM (R344). -/
  | keyGenerateGcm (page index : Nat)
  /-- KEY_ERASE_INDEX (R347). -/
  | keyEraseIndex (page index : Nat)
  /-- KEY_REWRITE (R347). -/
  | keyRewrite (page index : Nat)
  /-- KEY_ERASE_SLOT (R340). -/
  | keyEraseSlot (slot : Nat)
  /-- KEY_RELOAD_PAGE (R340). -/
  | keyReloadPage (page : Nat)
  /-- KEY_SLOT_DRAINED (R347). -/
  | keySlotDrained (slot : Nat)
  /-- KEY_VAULT_UPDATED (R345). -/
  | keyVaultUpdated
  /-- KEY_ALARM (R358). -/
  | keyAlarm (src : AlarmSource)
  /-- KEY_ANCHOR_WRITE (R373): the last word of anchor `a`. -/
  | keyAnchorWrite (acc : Access) (a : Nat) (v : Word)
  /-- EPOCH_STRIKE_PERIODIC (R367). -/
  | epochStrikePeriodic
  /-- SEAL_STRIKE_REQUEST (R368): the low word of the tick. -/
  | sealStrikeRequest (acc : Access) (v : Word)
  /-- EPOCH_STRIKE_REQUESTED (R367). -/
  | epochStrikeRequested
  /-- EPOCH_SIGNED (R368). -/
  | epochSigned
  -- buffers
  /-- BUFFER_ALLOC (R382): kind, function, asking region, and whether the buffer is for the landing. -/
  | bufferAlloc (kind fn region : Nat) (landing contracted : Bool)
  /-- BPM_ALLOC (R382). -/
  | bpmAlloc
  /-- BPM_REF_TAKE (R383). -/
  | bpmRefTake (handle : Word)
  /-- BPM_REF_RELEASE (R384). -/
  | bpmRefRelease (handle : Word)
  /-- BUFFER_WINDOW_ACCESS (R380): offset in the window. -/
  | bufferWindowAccess (acc : Access) (off : Nat) (wr : Option Word)
  /-- LEAK_AUDIT_SAMPLE (R388). -/
  | leakAuditSample
  /-- AUDIT_UNFENCE (R390). -/
  | auditUnfence
  -- DRAM
  /-- DRAM_COMMAND_SLOT (R396) of sub-channel `sub` at time `now` ns; `arrivals` join the waiting requests first. -/
  | dramCommandSlot (sub now : Nat) (arrivals : List DramReq)
  /-- DRAM_AGE_PROMOTION (R397). -/
  | dramAgePromotion (sub now : Nat)
  /-- DRAM_REFRESH (R399): bank `bank` of sub-channel `sub` is due; `hot` as MR4 reports. -/
  | dramRefresh (sub bank : Nat) (hot : Bool)
  /-- DRAM_RECALIBRATION (R400). -/
  | dramRecalibration (sub : Nat)
  /-- DRAM_ECC_ERROR (R392) in the burst at `offset`; `dev2` is a second device in error. -/
  | dramEccError (offset dev : Nat) (dev2 : Option Nat)
  -- Boom
  /-- FRAME_SLOT_SEND (R403). -/
  | frameSlotSend (port : Nat)
  /-- FRAME_RETRANSMIT (R405). -/
  | frameRetransmit (port : Nat)
  /-- FRAME_RX_KX (R408): message, fragment and bytes. -/
  | frameRxKx (h : FrameHdr) (msg frag : Nat) (bytes : List Byte)
  /-- FRAME_RX_IDLE (R405). -/
  | frameRxIdle (h : FrameHdr)
  /-- FRAME_RX_ROOT (R411). -/
  | frameRxRoot (h : FrameHdr) (m : RootMsg)
  /-- FRAME_RX_TSYNC (R413). -/
  | frameRxTsync (h : FrameHdr) (m : TsyncMsg)
  /-- FRAME_RX_SVC (R417). -/
  | frameRxSvc (h : FrameHdr) (m : SvcMsg)
  /-- BOOM_PORT_TRAINED (R408). -/
  | boomPortTrained (port : Nat)
  /-- BOOM_KEYING_DONE (R408): the neighbour's node, SHA-256 of its identity key, and whether its signature verifies. -/
  | boomKeyingDone (port node serial : Nat) (fp : List Byte) (sigOk : Bool)
  /-- BOOM_KEYING_TIMEOUT (R408). -/
  | boomKeyingTimeout (port : Nat)
  /-- BOOM_PORT_RETRY (R422). -/
  | boomPortRetry (port : Nat)
  /-- BOOM_PEER_SLOW (R422). -/
  | boomPeerSlow (port : Nat)
  /-- BOOM_PORT_FENCE (R422). -/
  | boomPortFence (port : Nat)
  /-- BOOM_PORT_UNFENCE (R422). -/
  | boomPortUnfence (port : Nat)
  /-- BOOM_BROADCAST (R419). -/
  | boomBroadcast
  /-- BOOM_BARRIER (R419). -/
  | boomBarrier
  /-- BOOM_SNAPSHOT (R419). -/
  | boomSnapshot
  /-- BOOM_SYSTEM_RESET (R419). -/
  | boomSystemReset
  /-- SYSTEM_RESET_TICK (R419). -/
  | systemResetTick
  /-- SVC_REPORT_TIMEOUT (R421). -/
  | svcReportTimeout (port : Nat)
  -- power
  /-- PMU_SET_STATE (R437). -/
  | pmuSetState (acc : Access) (ps : Nat)
  /-- PMU_SET_CEILING (R435). -/
  | pmuSetCeiling (acc : Access) (pt : Nat)
  /-- PS3_ENTRY (R429). -/
  | ps3Entry
  /-- PS3_COMMIT_POINT (R429). -/
  | ps3CommitPoint
  /-- PS4_ENTRY (R430). -/
  | ps4Entry
  /-- PS4_COMMIT_POINT (R430). -/
  | ps4CommitPoint
  /-- PS4_ENTRY_ABANDON (R430). -/
  | ps4EntryAbandon
  /-- WAKE_EVENT (R433). -/
  | wakeEvent (src : WakeSource)
  /-- PMU_TIMER_EXPIRY (R433). -/
  | pmuTimerExpiry
  /-- PS3_EXIT (R432). -/
  | ps3Exit
  /-- PS4_EXIT (R432). -/
  | ps4Exit
  /-- DVFS_CHANGE (R435). -/
  | dvfsChange
  /-- VDD_SETTLED (R435). -/
  | vddSettled
  /-- SUPPLY_TIMEOUT (R434). -/
  | supplyTimeout (what : SupplyFail)
  /-- VCORE_PG_LOW (R493). -/
  | vcorePgLow
  /-- CAP_EXCEED (R423): controller power of the tick, in mW. -/
  | capExceed (mw : Nat)
  /-- REF_LOSS (R438). -/
  | refLoss
  /-- PLN_N_LOW (R439). -/
  | plnNLow
  /-- VIN_TRIP (R439). -/
  | vinTrip
  /-- LANDING_FLUSH_END (R440). -/
  | landingFlushEnd
  /-- RAIL_ADC_ROUND (R451). -/
  | railAdcRound (samples : List AdcSample)
  -- thermal
  /-- SILICON_MODEL_STEP (R447): activity of the step by (region, local cluster, unit class). -/
  | siliconModelStep (act : List (Nat × Nat))
  /-- SENSOR_READ (R448): cluster sensor readings (cluster, 1/65,536 degC). -/
  | sensorRead (readings : List (Nat × Int))
  /-- SENSOR_CROSS_CHECK (R449). -/
  | sensorCrossCheck
  /-- THERMAL_STEP (R450). -/
  | thermalStep
  -- reset and start-up
  /-- POWER_ON (R455). -/
  | powerOn
  /-- RST_N_LOW (R457). -/
  | rstNLow
  /-- RST_N_HIGH (R457). -/
  | rstNHigh
  /-- RCU_WARM (R455). -/
  | rcuWarm
  /-- RCU_LIFECYCLE (R455). -/
  | rcuLifecycle (acc : Access)
  /-- START_UP (R467). -/
  | startUp (rep : BootReport)
  /-- RCU_TICK_STEP (R468): the low word of the target tick. -/
  | rcuTickStep (acc : Access) (v : Word)
  /-- TICK_MARK_WRITE (R469). -/
  | tickMarkWrite
  -- observability
  /-- LOG_FL_CLEAR (R474). -/
  | logFlClear (acc : Access)
  /-- LOG_FL_CUR_WRITE (R482). -/
  | logFlCurWrite (acc : Access) (v : Word)
  /-- LOG_TY_CUR_WRITE (R482). -/
  | logTyCurWrite (acc : Access) (v : Word)
  /-- LOG_CAPTURE_ADVANCE (R482): of the Tally store when `tally`, else of the fault log. -/
  | logCaptureAdvance (acc : Access) (tally : Bool)
  /-- TALLY_PERIOD_END (R479). -/
  | tallyPeriodEnd
  /-- TALLY_RESTART (R481). -/
  | tallyRestart
  -- faults and the rest
  /-- UNIT_SELF_CHECK_FAIL (R45). -/
  | unitSelfCheckFail (u : UnitRef)
  /-- LOCKSTEP_MISMATCH (R45). -/
  | lockstepMismatch (b : LockstepBlk)
  /-- LOCKSTEP_RESTART_DONE (R80). -/
  | lockstepRestartDone (b : LockstepBlk)
  /-- REF_RESTORED (R438). -/
  | refRestored
  /-- POWER_RECOVERY (R445). -/
  | powerRecovery
  /-- POWER_LOSS (R456). -/
  | powerLoss
  /-- CC_EN_SET (R467): CC.AMS, and the admin queue sizes. -/
  | ccEnSet (fn ams asqs acqs : Nat)
  /-- MSIX_VECTOR_UNMASK (R478). -/
  | msixVectorUnmask (fn vector : Nat)
  /-- BOOM_TRAINING_TIMEOUT (R422). -/
  | boomTrainingTimeout (port : Nat)
  /-- LIFECYCLE_PROVISION (R374). -/
  | lifecycleProvision
  /-- ENTROPY_HEALTH_CHANGE (R344). -/
  | entropyHealthChange (ok : Bool)
  /-- PACKAGE_FAULT (R44). -/
  | packageFault (p : PackageRef)
  deriving DecidableEq, Repr

end Sys2Proof
end

