-- ==== Sys2Proof/Config.lean ====
section
/-! DEFINITION. What an implementation fixes and the manual does not, and the free values: constants without a body, of which no proof can see a value. -/

namespace Sys2Proof.Config

/-- The reference cycle, within its tick, of a command whose row does not give it (log entry 3). -/
opaque refCycle : Nat → Nat

/-- Which of the free buffers of a pool a granted allocation takes: position among the free ones (R382, log entry 4). -/
opaque pickFree : Nat → Nat

/-- The DEFLATE stream that a squeeze lane makes of its input at a level (R256, log entry 7): level, history, input. -/
opaque deflate : Nat → List Byte → List Byte → List Byte

/-- SHA-384 (FIPS 180-4), which the manual uses by name only; its value is left uninterpreted (log entry 8). -/
opaque sha384 : List Byte → List Byte

/-- An ECDSA P-384 check (log entry 8): public key, digest, signature. -/
opaque ecdsaOk : List Byte → List Byte → List Byte → Bool

/-- An ECDSA P-384 signature r then s, 96 bytes (log entry 8): private key, digest, a fresh number for the nonce. -/
opaque ecdsaSign : List Byte → List Byte → Nat → List Byte

/-- The public key of an ECDSA P-384 private key, X then Y (log entry 8). -/
opaque ecdsaPublic : List Byte → List Byte

/-- What the CTR_DRBG of the key store gives at its `n`-th call (R344, log entry 9): `len` bytes. -/
opaque drbg : Nat → Nat → List Byte

/-- What the fused device secret derives for key slots 2 and 3 (R339, log entry 9). -/
opaque derive : Nat → List Byte

/-- The link key that keying agrees on, 32 bytes (R408, log entry 9): port and the number of the keying. -/
opaque linkKey : Nat → Nat → List Byte

/-- The flush capacity that the calendar master plans (R442, log entry 10): the number of the plan gives CAP in steps of 64 and its ticks. -/
opaque flushPlan : Nat → Nat × Nat

/-- Centre code and passing eye of a data line after training or tracking (R91, R94, log entry 11): channel, selector, a fresh number. -/
opaque deskew : Nat → Nat → Nat → Nat × Nat

/-- What the reads of the outside find where a rule leaves the figure open (log entry 12): a fresh number gives a number. -/
opaque open_ : Nat → Nat

/-- The contents of the warden boot ROM, which the manual does not give (R26): a byte for each address. -/
opaque bootRom : Nat → Byte

end Sys2Proof.Config
end

