-- ==== Sys2Proof/Machine/RegAddr.lean ====
section
/-! DEFINITION. Control-space addresses of the registers, by name (R10, R26-R28 and the register tables). -/

namespace Sys2Proof.Machine.Reg

/-- Base of region window `g` (R28). -/
abbrev regionBase (g : Nat) : Nat := 0x10000000 + g * 0x4000000

/-- Base of channel engine `n` (R10). -/
abbrev chBase (n : Nat) : Nat := regionBase (n / 32) + n / 4 % 8 * 0x100000 + n % 4 * 0x10000

/-- Base of the decoder complex of cluster `c` (R28). -/
abbrev decBase (c : Nat) : Nat := regionBase (c / 8) + c % 8 * 0x100000 + 0x40000

/-- Base of the transform complex of region `g` (R28). -/
abbrev tfBase (g : Nat) : Nat := regionBase g + 0x800000

/-- Base of the near-pool slice of region `g` (R28). -/
abbrev nearBase (g : Nat) : Nat := regionBase g + 0xC00000

/-- Base of the thermal model of region `g` (R28). -/
abbrev thmrBase (g : Nat) : Nat := regionBase g + 0xD00000

abbrev idPart : Nat := 0x0
abbrev idStep : Nat := 0x4
abbrev idSerialLo : Nat := 0x8
abbrev idSerialHi : Nat := 0xC
abbrev capUnits : Nat := 0x10
abbrev capScale : Nat := 0x14
abbrev idLifecycle : Nat := 0x18
abbrev rcuCtrl : Nat := 0x10000
abbrev rcuStatus : Nat := 0x10004
abbrev rcuCause : Nat := 0x10008
abbrev rcuHeld : Nat := 0x1000C
abbrev rcuTickStepLo : Nat := 0x10010
abbrev rcuTickStepHi : Nat := 0x10014
abbrev rcuBoot : Nat := 0x10018
abbrev pmuCtrl : Nat := 0x20000
abbrev pmuStatus : Nat := 0x20004
abbrev pmuReq : Nat := 0x20008
abbrev pmuReqRes : Nat := 0x2000C
abbrev pmuSvote : Nat := 0x20010
abbrev pmuWake : Nat := 0x20014
abbrev pmuWakeTLo : Nat := 0x20018
abbrev pmuWakeTHi : Nat := 0x2001C
abbrev pmuTimerLo : Nat := 0x20020
abbrev pmuTimerHi : Nat := 0x20024
abbrev pmuHold : Nat := 0x20030
abbrev pmuFlushCap : Nat := 0x20034
abbrev pmuFlushStat : Nat := 0x20038
abbrev pmuFault : Nat := 0x20040
abbrev calCtrl : Nat := 0x40000
abbrev calStatus : Nat := 0x40004
abbrev calTimeLo : Nat := 0x40008
abbrev calTimeHi : Nat := 0x4000C
abbrev calHorizon : Nat := 0x40010
abbrev calPlanWin : Nat := 0x40014
abbrev calConst : Nat := 0x40018
abbrev calFloor : Nat := 0x4001C
abbrev calHoldCnt : Nat := 0x40020
abbrev calHoldLastLo : Nat := 0x40024
abbrev calHoldLastHi : Nat := 0x40028
abbrev calAdmitReq : Nat := 0x40030
abbrev calAdmitRes : Nat := 0x40034
abbrev calLoad : Nat := 0x40038
abbrev calModeA (i : Nat) : Nat := 0x40040 + i * 0x8
abbrev calModeB (i : Nat) : Nat := 0x40044 + i * 0x8
abbrev calCollStat : Nat := 0x40060
abbrev calMaintCtrl : Nat := 0x40070
abbrev calMaintTick : Nat := 0x40074
abbrev calMaintBuf : Nat := 0x40078
abbrev calMaintStat : Nat := 0x4007C
abbrev calMiss : Nat := 0x40080
abbrev calDbgSel : Nat := 0x40100
abbrev calDbgE (i : Nat) : Nat := 0x40104 + i * 0x4
abbrev calNrgBudget : Nat := 0x40200
abbrev calNrgResv : Nat := 0x40204
abbrev calNrgPeak : Nat := 0x40208
abbrev calNrg (i : Nat) : Nat := 0x40210 + i * 0x4
abbrev calDieState (i : Nat) : Nat := 0x50000 + i * 0x4
abbrev hostCtrl : Nat := 0x100000
abbrev hostLinkCfg (i : Nat) : Nat := 0x100010 + i * 0x4
abbrev hostLinkStat (i : Nat) : Nat := 0x100020 + i * 0x4
abbrev hostOwn : Nat := 0x100040
abbrev hostZones : Nat := 0x100050
abbrev hostDeferCnt : Nat := 0x100054
abbrev hostSani : Nat := 0x100060
abbrev fnCtrl : Nat := 0x200000
abbrev fnStatus : Nat := 0x200004
abbrev fnCmd : Nat := 0x200008
abbrev fnCmdRes : Nat := 0x20000C
abbrev fnTokenCfg : Nat := 0x200010
abbrev fnRsvNear : Nat := 0x200014
abbrev fnRsvFar : Nat := 0x200018
abbrev fnShareA : Nat := 0x200020
abbrev fnShareB : Nat := 0x200024
abbrev fnShareC : Nat := 0x200028
abbrev fnShareD : Nat := 0x20002C
abbrev fnSel : Nat := 0x200040
abbrev fnState : Nat := 0x200044
abbrev fnUse : Nat := 0x200048
abbrev fnResetCfg : Nat := 0x200050
abbrev fnFtuCfg : Nat := 0x200060
abbrev fnFtuStat : Nat := 0x200064
abbrev fnDlogCtrl (i : Nat) : Nat := 0x200100 + i * 0x20
abbrev fnDlogBase (i : Nat) : Nat := 0x200104 + i * 0x20
abbrev fnDlogSize (i : Nat) : Nat := 0x200108 + i * 0x20
abbrev fnDlogHead (i : Nat) : Nat := 0x20010C + i * 0x20
abbrev fnDlogTail (i : Nat) : Nat := 0x200110 + i * 0x20
abbrev fnDlogCut (i : Nat) : Nat := 0x200114 + i * 0x20
abbrev keyCmd : Nat := 0x300000
abbrev keyCmdRes : Nat := 0x300004
abbrev keySlotSel : Nat := 0x300010
abbrev keySlotStat : Nat := 0x300014
abbrev keyCtrLo : Nat := 0x300018
abbrev keyCtrHi : Nat := 0x30001C
abbrev keySca : Nat := 0x300030
abbrev keyAlarmCfg : Nat := 0x300040
abbrev keyAlarmStat : Nat := 0x300044
abbrev keyAlarmCnt : Nat := 0x300048
abbrev keyNonceLo : Nat := 0x300050
abbrev keyNonceHi : Nat := 0x300054
abbrev keySvn (i : Nat) : Nat := 0x300060 + i * 0x4
abbrev sealCtrl : Nat := 0x380000
abbrev sealStatus : Nat := 0x380004
abbrev sealPeriod : Nat := 0x380008
abbrev sealStrikeLo : Nat := 0x380010
abbrev sealStrikeHi : Nat := 0x380014
abbrev sealStrikeStat : Nat := 0x380018
abbrev sealSeqLo : Nat := 0x380020
abbrev sealSeqHi : Nat := 0x380024
abbrev sealEpoch : Nat := 0x380028
abbrev sealTokenStat : Nat := 0x380030
abbrev bpmCtrl : Nat := 0x400000
abbrev bpmStatus : Nat := 0x400004
abbrev bpmFreeNear : Nat := 0x400008
abbrev bpmFreeFar : Nat := 0x40000C
abbrev bpmDirty : Nat := 0x400010
abbrev bpmAlloc : Nat := 0x400020
abbrev bpmAllocRes : Nat := 0x400024
abbrev bpmAllocHandle : Nat := 0x400028
abbrev bpmRef : Nat := 0x400030
abbrev bpmRefHandle : Nat := 0x400034
abbrev bpmRefRes : Nat := 0x400038
abbrev bpmWinSel : Nat := 0x400040
abbrev bpmAuditCfg : Nat := 0x400050
abbrev bpmAuditLim (i : Nat) : Nat := 0x400060 + i * 0x4
abbrev bpmAuditSel : Nat := 0x400090
abbrev bpmAuditCur : Nat := 0x400094
abbrev bpmAuditAge : Nat := 0x400098
abbrev bpmAuditOld : Nat := 0x40009C
abbrev bpmAuditCmd : Nat := 0x4000A0
abbrev bpmWin (i : Nat) : Nat := 0x410000 + i * 0x4
abbrev memCtrl : Nat := 0x500000
abbrev memStatus : Nat := 0x500004
abbrev memCarve : Nat := 0x500008
abbrev memPortCfg (i : Nat) : Nat := 0x500020 + i * 0x4
abbrev memAge : Nat := 0x500040
abbrev memLat (i : Nat) : Nat := 0x500060 + i * 0x4
abbrev memEcc : Nat := 0x500080
abbrev memEccLast : Nat := 0x500084
abbrev memRef : Nat := 0x500090
abbrev boomCtrl : Nat := 0x600000
abbrev boomStatus : Nat := 0x600004
abbrev boomTree : Nat := 0x600008
abbrev boomSize : Nat := 0x60000C
abbrev boomOffset : Nat := 0x600010
abbrev boomSync : Nat := 0x600014
abbrev boomGuard : Nat := 0x600018
abbrev boomSvcCfg : Nat := 0x60001C
abbrev boomSvcReq : Nat := 0x600020
abbrev boomSvcData (i : Nat) : Nat := 0x600024 + i * 0x4
abbrev boomSvcRes : Nat := 0x600034
abbrev boomSvcMiss : Nat := 0x600038
abbrev boomSvcTickLo : Nat := 0x600040
abbrev boomSvcTickHi : Nat := 0x600044
abbrev boomRxSid : Nat := 0x600050
abbrev boomRxData (i : Nat) : Nat := 0x600054 + i * 0x4
abbrev boomPortCtrl (i : Nat) : Nat := 0x600100 + i * 0x40
abbrev boomPortStat (i : Nat) : Nat := 0x600104 + i * 0x40
abbrev boomPortCrc (i : Nat) : Nat := 0x600108 + i * 0x40
abbrev boomPortAuth (i : Nat) : Nat := 0x60010C + i * 0x40
abbrev boomPortRetx (i : Nat) : Nat := 0x600110 + i * 0x40
abbrev thmCtrl : Nat := 0x700000
abbrev thmStatus : Nat := 0x700004
abbrev thmLimit : Nat := 0x700010
abbrev thmCheck : Nat := 0x700014
abbrev thmComposite : Nat := 0x700018
abbrev thmBudget : Nat := 0x70001C
abbrev thmAdcSel : Nat := 0x700020
abbrev thmAdcVal : Nat := 0x700024
abbrev thmAdcOvr : Nat := 0x700028
abbrev thmAdcSettle : Nat := 0x70002C
abbrev thmSuspect : Nat := 0x700030
abbrev thmSuspectTh : Nat := 0x700034
abbrev logFlCtrl : Nat := 0x800000
abbrev logFlStat : Nat := 0x800004
abbrev logFlPos : Nat := 0x800008
abbrev logFlCur : Nat := 0x800010
abbrev logFlE (i : Nat) : Nat := 0x800020 + i * 0x4
abbrev logTyCtrl : Nat := 0x800100
abbrev logTyPeriod : Nat := 0x800104
abbrev logTyEnLo : Nat := 0x800108
abbrev logTyEnHi : Nat := 0x80010C
abbrev logTyStat : Nat := 0x800110
abbrev logTyCur : Nat := 0x800114
abbrev logTyR (i : Nat) : Nat := 0x800140 + i * 0x4
abbrev logTyShift (i : Nat) : Nat := 0x800200 + i * 0x4
abbrev krfLoadCtrl : Nat := 0x900000
abbrev krfLoadAddr : Nat := 0x900004
abbrev krfLoadRes : Nat := 0x900008
abbrev krfSlotSel : Nat := 0x900010
abbrev krfSlotVal : Nat := 0x900014
abbrev krfSlotCost : Nat := 0x900018
abbrev krfBindCtrl : Nat := 0x900020
abbrev krfBindArg : Nat := 0x900024
abbrev krfBindRes : Nat := 0x900028
abbrev krfTrapCnt : Nat := 0x900030
abbrev krfTrapLast : Nat := 0x900034
abbrev krfEmitDrop : Nat := 0x900038
abbrev krfStateSel : Nat := 0x900040
abbrev krfStateWin (i : Nat) : Nat := 0x900100 + i * 0x4
abbrev krfWpStat (i : Nat) : Nat := 0x980000 + i * 0x100
abbrev krfWpCommit (i : Nat) : Nat := 0x980004 + i * 0x100
abbrev krfWpGenLo (i : Nat) : Nat := 0x980008 + i * 0x100
abbrev krfWpGenHi (i : Nat) : Nat := 0x98000C + i * 0x100
abbrev krfWpHb (i : Nat) : Nat := 0x980010 + i * 0x100
abbrev krfWpFail (i : Nat) : Nat := 0x980014 + i * 0x100
abbrev krfMbxRx (i : Nat) : Nat := 0x980020 + i * 0x100
abbrev krfMbxPop (i : Nat) : Nat := 0x980024 + i * 0x100
abbrev krfMbxTx (i : Nat) : Nat := 0x981000 + i * 0x100
abbrev irqRoute (i : Nat) : Nat := 0xA00000 + i * 0x4
abbrev irqPend (i : Nat) : Nat := 0xA02000 + i * 0x4
abbrev irqCntSel : Nat := 0xA03000
abbrev irqCnt : Nat := 0xA03004
abbrev irqErr : Nat := 0xA03010
abbrev mapCtrl : Nat := 0xB00000
abbrev mapStatus : Nat := 0xB00004
abbrev mapCordCfg : Nat := 0xB00008
abbrev mapRowCfg : Nat := 0xB0000C
abbrev mapCacheCfg : Nat := 0xB00010
abbrev mapJrnl : Nat := 0xB00014
abbrev mapCacheStat : Nat := 0xB00018
abbrev mapMissCnt : Nat := 0xB0001C
abbrev mapPinCtrl : Nat := 0xB00020
abbrev mapGcCfg : Nat := 0xB00030
abbrev mapGcStat : Nat := 0xB00034
abbrev mapRefresh : Nat := 0xB00038
abbrev mapPlCnt : Nat := 0xB0003C
abbrev mapCordSel : Nat := 0xB00040
abbrev mapCordVal : Nat := 0xB00044
abbrev mapBbtCmd : Nat := 0xB00050
abbrev mapBbtIdx : Nat := 0xB00054
abbrev mapBbtE (i : Nat) : Nat := 0xB00058 + i * 0x4
abbrev mapBbtStat : Nat := 0xB00068
abbrev chCtrl (u : Nat) : Nat := chBase u + 0x0
abbrev chCfg (u : Nat) : Nat := chBase u + 0x4
abbrev chStatus (u : Nat) : Nat := chBase u + 0x8
abbrev chPoll (u : Nat) : Nat := chBase u + 0xC
abbrev chTrack (u : Nat) : Nat := chBase u + 0x10
abbrev chDskSel (u : Nat) : Nat := chBase u + 0x20
abbrev chDskVal (u : Nat) : Nat := chBase u + 0x24
abbrev chFault (u : Nat) : Nat := chBase u + 0x30
abbrev chFailCnt (u : Nat) : Nat := chBase u + 0x34
abbrev chLastStat (u : Nat) : Nat := chBase u + 0x38
abbrev chXfer (u : Nat) : Nat := chBase u + 0x40
abbrev decCtrl (u : Nat) : Nat := decBase u + 0x0
abbrev decStatus (u : Nat) : Nat := decBase u + 0x4
abbrev decSlots (u : Nat) : Nat := decBase u + 0x8
abbrev decIter (u : Nat) : Nat := decBase u + 0xC
abbrev decThr (u : Nat) : Nat := decBase u + 0x10
abbrev decCnt (u i : Nat) : Nat := decBase u + 0x20 + i * 0x4
abbrev decMaxcorr (u : Nat) : Nat := decBase u + 0x34
abbrev decRwqStat (u : Nat) : Nat := decBase u + 0x40
abbrev decRwqLo (u : Nat) : Nat := decBase u + 0x48
abbrev decRwqHi (u : Nat) : Nat := decBase u + 0x4C
abbrev decFault (u : Nat) : Nat := decBase u + 0x60
abbrev tfCtrl (u : Nat) : Nat := tfBase u + 0x0
abbrev tfStatus (u : Nat) : Nat := tfBase u + 0x4
abbrev tfFence (u : Nat) : Nat := tfBase u + 0x8
abbrev tfFault (u : Nat) : Nat := tfBase u + 0xC
abbrev tfGuardCnt (u : Nat) : Nat := tfBase u + 0x20
abbrev tfMovKib (u : Nat) : Nat := tfBase u + 0x30
abbrev tfXtsKib (u : Nat) : Nat := tfBase u + 0x34
abbrev tfGcmKib (u : Nat) : Nat := tfBase u + 0x38
abbrev tfSqzKib (u : Nat) : Nat := tfBase u + 0x3C
abbrev tfHashKib (u : Nat) : Nat := tfBase u + 0x40
abbrev tqCtrl (u i : Nat) : Nat := tfBase u + 0x10000 + i * 0x100
abbrev tqBase (u i : Nat) : Nat := tfBase u + 0x10004 + i * 0x100
abbrev tqSize (u i : Nat) : Nat := tfBase u + 0x10008 + i * 0x100
abbrev tqHead (u i : Nat) : Nat := tfBase u + 0x1000C + i * 0x100
abbrev tqTail (u i : Nat) : Nat := tfBase u + 0x10010 + i * 0x100
abbrev tqStat (u i : Nat) : Nat := tfBase u + 0x10014 + i * 0x100
abbrev npStat (u : Nat) : Nat := nearBase u + 0x0
abbrev npEcc (u : Nat) : Nat := nearBase u + 0x4
abbrev tmNode (u i : Nat) : Nat := thmrBase u + 0x0 + i * 0x4
abbrev tmSens (u i : Nat) : Nat := thmrBase u + 0x100 + i * 0x4
abbrev tmStopped (u : Nat) : Nat := thmrBase u + 0x200

end Sys2Proof.Machine.Reg
end

