-- ==== Sys2Proof/Machine/RegTable.lean ====
section
/-! DEFINITION. The register tables of the manual: for every register its offset, its fields, their access codes and reset values.

Reserved bits stand in no field: they read 0 and ignore writes (R12).
A field with limits keeps its value when a write names a value outside them. -/

namespace Sys2Proof.Machine

/-- Access codes of a register field (the table of register access codes). `st` is "RW, staged" (R21). -/
inductive Acc where
  | ro | rw | st | w1s | w1c | rc | rwl | rws
  deriving DecidableEq, Repr

/-- The halves of a 64-bit register (R30). -/
inductive Half where
  | one | lo | hi
  deriving DecidableEq, Repr

/-- One field of a register. -/
structure RegField where
  hi : Nat
  lo : Nat
  acc : Acc
  reset : Nat
  min : Nat
  max : Nat
  deriving DecidableEq, Repr

/-- A register, or `count` registers `stride` bytes apart. `resets` gives the reset words of runs of indexes: the first, the
last and the word; elsewhere the fields' own reset values stand. -/
structure RegRow where
  name : String
  off : Nat
  count : Nat
  stride : Nat
  half : Half
  resets : List (Nat × Nat × Nat)
  fields : List RegField
  deriving DecidableEq, Repr

/-- A field without limits. -/
def RegField.free (hi lo : Nat) (acc : Acc) (reset : Nat) : RegField := ⟨hi, lo, acc, reset, 0, 2 ^ (hi - lo + 1) - 1⟩

/-- A field with limits. -/
def RegField.within (hi lo : Nat) (acc : Acc) (reset min max : Nat) : RegField := ⟨hi, lo, acc, reset, min, max⟩

/-- Registers of the ID block. -/
def idRegs : List RegRow := [
  ⟨"ID_PART", 0x0, 1, 0x4, .one, [],
    [.free 19 16 .ro 0, .free 15 0 .ro 0]⟩,
  ⟨"ID_STEP", 0x4, 1, 0x4, .one, [],
    [.free 7 4 .ro 0, .free 3 0 .ro 0]⟩,
  ⟨"ID_SERIAL_LO", 0x8, 1, 0x4, .lo, [],
    [.free 31 0 .ro 0]⟩,
  ⟨"ID_SERIAL_HI", 0xC, 1, 0x4, .hi, [],
    [.free 31 16 .ro 0, .free 15 8 .ro 0, .free 7 0 .ro 0]⟩,
  ⟨"CAP_UNITS", 0x10, 1, 0x4, .one, [],
    [.free 15 14 .ro 0, .free 13 13 .ro 1, .free 12 12 .ro 1, .free 11 8 .ro 0, .free 7 4 .ro 0, .free 3 0 .ro 0]⟩,
  ⟨"CAP_SCALE", 0x14, 1, 0x4, .one, [],
    [.free 27 21 .ro 64, .free 20 17 .ro 10, .free 16 13 .ro 12, .free 12 9 .ro 13, .free 8 0 .ro 256]⟩,
  ⟨"ID_LIFECYCLE", 0x18, 1, 0x4, .one, [],
    [.free 31 8 .ro 0, .free 2 0 .ro 0]⟩]

/-- Registers of the RCU block. -/
def rcuRegs : List RegRow := [
  ⟨"RCU_CTRL", 0x0, 1, 0x4, .one, [],
    [.free 1 1 .w1s 0, .free 0 0 .w1s 0]⟩,
  ⟨"RCU_STATUS", 0x4, 1, 0x4, .one, [],
    [.free 16 16 .rws 0, .free 11 8 .ro 0, .free 7 4 .ro 0, .free 3 0 .ro 0]⟩,
  ⟨"RCU_CAUSE", 0x8, 1, 0x4, .one, [],
    [.free 31 16 .rws 0, .free 15 8 .rws 0, .free 3 0 .rws 1]⟩,
  ⟨"RCU_HELD", 0xC, 1, 0x4, .one, [],
    [.free 31 0 .rws 0]⟩,
  ⟨"RCU_TICK_STEP_LO", 0x10, 1, 0x4, .lo, [],
    [.free 31 0 .rw 0]⟩,
  ⟨"RCU_TICK_STEP_HI", 0x14, 1, 0x4, .hi, [],
    [.free 31 31 .ro 0, .free 15 0 .rw 0]⟩,
  ⟨"RCU_BOOT", 0x18, 1, 0x4, .one, [],
    [.free 31 16 .ro 0, .free 8 8 .ro 0, .free 1 1 .ro 0, .free 0 0 .ro 0]⟩]

/-- Registers of the PMU block, part 1. -/
def pmuRegs0 : List RegRow := [
  ⟨"PMU_CTRL", 0x0, 1, 0x4, .one, [],
    [.free 0 0 .rw 0]⟩,
  ⟨"PMU_STATUS", 0x4, 1, 0x4, .one, [],
    [.free 23 23 .ro 1, .free 22 22 .ro 0, .free 21 20 .ro 0, .free 19 18 .ro 0, .free 17 16 .ro 0, .free 10 8 .ro 0, .free 2 0 .ro 0]⟩,
  ⟨"PMU_REQ", 0x8, 1, 0x4, .one, [],
    [.free 31 31 .w1s 0, .free 30 28 .rw 0, .free 2 0 .rw 0]⟩,
  ⟨"PMU_REQ_RES", 0xC, 1, 0x4, .one, [],
    [.free 31 31 .ro 0, .free 7 0 .ro 0]⟩,
  ⟨"PMU_SVOTE", 0x10, 1, 0x4, .one, [],
    [.free 4 1 .rw 0, .free 0 0 .rw 0]⟩,
  ⟨"PMU_WAKE", 0x14, 1, 0x4, .one, [],
    [.free 5 0 .w1c 0]⟩,
  ⟨"PMU_WAKE_T_LO", 0x18, 1, 0x4, .lo, [],
    [.free 31 0 .ro 0]⟩,
  ⟨"PMU_WAKE_T_HI", 0x1C, 1, 0x4, .hi, [],
    [.free 31 0 .ro 0]⟩,
  ⟨"PMU_TIMER_LO", 0x20, 1, 0x4, .lo, [],
    [.free 31 0 .rw 0]⟩,
  ⟨"PMU_TIMER_HI", 0x24, 1, 0x4, .hi, [],
    [.free 15 0 .rw 0]⟩,
  ⟨"PMU_HOLD", 0x30, 1, 0x4, .one, [],
    [.free 31 16 .ro 0, .free 15 0 .ro 0]⟩,
  ⟨"PMU_FLUSH_CAP", 0x34, 1, 0x4, .one, [],
    [.free 25 16 .ro 0, .free 15 0 .ro 0]⟩]

/-- Registers of the PMU block, part 2. -/
def pmuRegs1 : List RegRow := [
  ⟨"PMU_FLUSH_STAT", 0x38, 1, 0x4, .one, [],
    [.free 31 29 .rws 0, .free 28 28 .rws 0, .free 25 16 .rws 0, .free 15 0 .rws 0]⟩,
  ⟨"PMU_FAULT", 0x40, 1, 0x4, .one, [],
    [.free 10 6 .w1c 0, .free 5 5 .w1c 0, .free 4 4 .w1c 0, .free 3 3 .w1c 0, .free 2 2 .w1c 0, .free 1 1 .w1c 0, .free 0 0 .w1c 0]⟩]

/-- Registers of the PMU block. -/
def pmuRegs : List RegRow :=
  pmuRegs0 ++ pmuRegs1

/-- Registers of the CAL block, part 1. -/
def calRegs0 : List RegRow := [
  ⟨"CAL_CTRL", 0x0, 1, 0x4, .one, [],
    [.free 1 1 .w1s 0, .free 0 0 .rw 0]⟩,
  ⟨"CAL_STATUS", 0x4, 1, 0x4, .one, [],
    [.free 15 8 .rws 0, .free 3 3 .ro 0, .free 2 2 .ro 0, .free 1 0 .ro 0]⟩,
  ⟨"CAL_TIME_LO", 0x8, 1, 0x4, .lo, [],
    [.free 31 0 .ro 0]⟩,
  ⟨"CAL_TIME_HI", 0xC, 1, 0x4, .hi, [],
    [.free 31 0 .ro 0]⟩,
  ⟨"CAL_HORIZON", 0x10, 1, 0x4, .one, [],
    [.free 12 0 .ro 4096]⟩,
  ⟨"CAL_PLAN_WIN", 0x14, 1, 0x4, .one, [],
    [.free 23 16 .rc 0, .free 15 8 .ro 0, .within 7 0 .st 192 1 199]⟩,
  ⟨"CAL_CONST", 0x18, 1, 0x4, .one, [],
    [.free 23 16 .ro 14, .free 15 12 .ro 1, .free 11 8 .ro 4, .free 7 4 .ro 2, .free 3 0 .ro 2]⟩,
  ⟨"CAL_FLOOR", 0x1C, 1, 0x4, .one, [],
    [.free 8 8 .w1c 0, .free 1 0 .st 2]⟩,
  ⟨"CAL_HOLD_CNT", 0x20, 1, 0x4, .one, [],
    [.free 31 0 .rc 0]⟩,
  ⟨"CAL_HOLD_LAST_LO", 0x24, 1, 0x4, .lo, [],
    [.free 31 0 .ro 0]⟩,
  ⟨"CAL_HOLD_LAST_HI", 0x28, 1, 0x4, .hi, [],
    [.free 31 0 .ro 0]⟩,
  ⟨"CAL_ADMIT_REQ", 0x30, 1, 0x4, .one, [],
    [.free 31 31 .w1s 0, .free 25 16 .rw 0, .free 13 12 .rw 0, .free 11 8 .rw 0, .free 7 7 .rw 0, .free 6 4 .rw 0, .free 2 0 .rw 0]⟩]

/-- Registers of the CAL block, part 2. -/
def calRegs1 : List RegRow := [
  ⟨"CAL_ADMIT_RES", 0x34, 1, 0x4, .one, [],
    [.free 31 31 .ro 0, .free 25 16 .ro 0, .free 15 8 .ro 0, .free 7 0 .ro 0]⟩,
  ⟨"CAL_LOAD", 0x38, 1, 0x4, .one, [],
    [.free 23 8 .ro 0, .free 7 0 .ro 0]⟩,
  ⟨"CAL_MODE_A", 0x40, 3, 0x8, .one, [],
    [.within 30 28 .st 6 0 6, .within 27 16 .st 40 1 4095, .within 15 12 .st 1 1 15, .within 11 8 .st 1 1 15, .within 7 0 .st 8 1 255]⟩,
  ⟨"CAL_MODE_B", 0x44, 3, 0x8, .one, [],
    [.free 28 28 .st 0, .free 27 24 .st 0, .within 23 12 .st 1000 1 4095, .within 11 0 .st 300 1 4095]⟩,
  ⟨"CAL_COLL_STAT", 0x60, 1, 0x4, .one, [],
    [.free 14 8 .rc 0, .free 6 0 .ro 127]⟩,
  ⟨"CAL_MAINT_CTRL", 0x70, 1, 0x4, .one, [],
    [.free 31 31 .w1s 0, .free 22 22 .rw 0, .free 21 16 .rw 0, .free 15 12 .rw 0, .free 11 0 .rw 0]⟩,
  ⟨"CAL_MAINT_TICK", 0x74, 1, 0x4, .one, [],
    [.free 11 0 .rw 2]⟩,
  ⟨"CAL_MAINT_BUF", 0x78, 1, 0x4, .one, [],
    [.free 31 0 .rw 0]⟩,
  ⟨"CAL_MAINT_STAT", 0x7C, 1, 0x4, .one, [],
    [.free 8 8 .ro 0, .free 7 0 .ro 0]⟩,
  ⟨"CAL_MISS", 0x80, 1, 0x4, .one, [],
    [.free 31 16 .rc 0, .free 15 0 .rc 0]⟩,
  ⟨"CAL_DBG_SEL", 0x100, 1, 0x4, .one, [],
    [.free 16 12 .rw 0, .free 11 0 .rw 0]⟩,
  ⟨"CAL_DBG_E", 0x104, 4, 0x4, .one, [],
    [.free 31 0 .ro 0]⟩]

/-- Registers of the CAL block, part 3. -/
def calRegs2 : List RegRow := [
  ⟨"CAL_NRG_BUDGET", 0x200, 1, 0x4, .one, [],
    [.free 31 31 .w1c 0, .free 23 0 .st 480000]⟩,
  ⟨"CAL_NRG_RESV", 0x204, 1, 0x4, .one, [],
    [.free 23 0 .ro 0]⟩,
  ⟨"CAL_NRG_PEAK", 0x208, 1, 0x4, .one, [],
    [.free 23 0 .rc 0]⟩,
  ⟨"CAL_NRG", 0x210, 12, 0x4, .one, [(0, 0, 7864350), (1, 1, 39321820), (2, 2, 19660980), (3, 3, 1310735), (4, 4, 7864355), (5, 5, 45875580), (6, 6, 19661000), (7, 7, 1310735), (8, 8, 7864360), (9, 9, 52429280), (10, 10, 19661020), (11, 11, 1310735)],
    [.free 31 16 .st 0, .free 15 0 .st 0]⟩,
  ⟨"CAL_DIE_STATE", 0x10000, 4096, 0x4, .one, [],
    [.free 31 20 .ro 0, .free 12 8 .ro 0, .free 7 7 .ro 0, .free 6 4 .ro 0, .free 3 0 .ro 0]⟩]

/-- Registers of the CAL block. -/
def calRegs : List RegRow :=
  calRegs0 ++ calRegs1 ++ calRegs2

/-- Registers of the HOST block. -/
def hostRegs : List RegRow := [
  ⟨"HOST_CTRL", 0x0, 1, 0x4, .one, [],
    [.free 3 0 .rw 0]⟩,
  ⟨"HOST_LINK_CFG", 0x10, 4, 0x4, .one, [],
    [.free 25 24 .rwl 0, .within 16 8 .rwl 0 1 256, .free 7 0 .rwl 0]⟩,
  ⟨"HOST_LINK_STAT", 0x20, 4, 0x4, .one, [],
    [.free 31 16 .rc 0, .free 10 8 .ro 0, .free 7 7 .ro 0, .free 6 5 .ro 0, .free 4 4 .ro 0, .free 1 0 .ro 0]⟩,
  ⟨"HOST_OWN", 0x40, 1, 0x4, .one, [],
    [.free 11 0 .rw 1250]⟩,
  ⟨"HOST_ZONES", 0x50, 1, 0x4, .one, [],
    [.free 29 16 .ro 0, .free 12 0 .ro 0]⟩,
  ⟨"HOST_DEFER_CNT", 0x54, 1, 0x4, .one, [],
    [.free 15 0 .rws 0]⟩,
  ⟨"HOST_SANI", 0x60, 1, 0x4, .one, [],
    [.free 19 18 .ro 0, .free 15 0 .ro 65535]⟩]

/-- Registers of the FN block, part 1. -/
def fnRegs0 : List RegRow := [
  ⟨"FN_CTRL", 0x0, 1, 0x4, .one, [],
    [.free 0 0 .w1s 0]⟩,
  ⟨"FN_STATUS", 0x4, 1, 0x4, .one, [],
    [.free 16 16 .ro 0, .free 8 0 .ro 0]⟩,
  ⟨"FN_CMD", 0x8, 1, 0x4, .one, [],
    [.free 31 31 .w1s 0, .free 30 28 .rw 0, .free 8 0 .rw 0]⟩,
  ⟨"FN_CMD_RES", 0xC, 1, 0x4, .one, [],
    [.free 31 31 .ro 0, .free 7 0 .ro 0]⟩,
  ⟨"FN_TOKEN_CFG", 0x10, 1, 0x4, .one, [],
    [.within 27 24 .st 4 1 8, .within 12 0 .st 512 1 4096]⟩,
  ⟨"FN_RSV_NEAR", 0x14, 1, 0x4, .one, [],
    [.within 13 0 .st 2048 1024 8192]⟩,
  ⟨"FN_RSV_FAR", 0x18, 1, 0x4, .one, [],
    [.free 21 0 .st 65536]⟩,
  ⟨"FN_SHARE_A", 0x20, 1, 0x4, .one, [],
    [.free 29 16 .ro 0, .free 12 0 .ro 0]⟩,
  ⟨"FN_SHARE_B", 0x24, 1, 0x4, .one, [],
    [.free 26 16 .ro 0, .free 13 0 .ro 0]⟩,
  ⟨"FN_SHARE_C", 0x28, 1, 0x4, .one, [],
    [.free 28 16 .ro 0, .free 13 0 .ro 0]⟩,
  ⟨"FN_SHARE_D", 0x2C, 1, 0x4, .one, [],
    [.free 21 0 .ro 0]⟩,
  ⟨"FN_SEL", 0x40, 1, 0x4, .one, [],
    [.free 7 0 .rw 0]⟩]

/-- Registers of the FN block, part 2. -/
def fnRegs1 : List RegRow := [
  ⟨"FN_STATE", 0x44, 1, 0x4, .one, [],
    [.free 31 22 .ro 0, .free 21 19 .ro 0, .free 18 18 .ro 0, .free 17 16 .ro 0, .free 1 0 .ro 0]⟩,
  ⟨"FN_USE", 0x48, 1, 0x4, .one, [],
    [.free 29 16 .ro 0, .free 10 0 .ro 0]⟩,
  ⟨"FN_RESET_CFG", 0x50, 1, 0x4, .one, [],
    [.within 13 0 .rw 6250 125 12000]⟩,
  ⟨"FN_FTU_CFG", 0x60, 1, 0x4, .one, [],
    [.within 11 0 .rw 1250 1 4095]⟩,
  ⟨"FN_FTU_STAT", 0x64, 1, 0x4, .one, [],
    [.free 31 16 .rc 0, .free 15 0 .rc 0]⟩,
  ⟨"FN_DLOG_CTRL", 0x100, 8, 0x20, .one, [],
    [.free 31 31 .w1s 0, .free 30 30 .w1s 0, .free 29 29 .ro 0, .free 28 28 .ro 0, .free 15 8 .ro 0, .free 7 0 .rw 0]⟩,
  ⟨"FN_DLOG_BASE", 0x104, 8, 0x20, .one, [],
    [.free 31 3 .rw 0]⟩,
  ⟨"FN_DLOG_SIZE", 0x108, 8, 0x20, .one, [],
    [.within 4 0 .rw 16 10 24]⟩,
  ⟨"FN_DLOG_HEAD", 0x10C, 8, 0x20, .one, [],
    [.free 23 0 .rw 0]⟩,
  ⟨"FN_DLOG_TAIL", 0x110, 8, 0x20, .one, [],
    [.free 23 0 .ro 0]⟩,
  ⟨"FN_DLOG_CUT", 0x114, 8, 0x20, .one, [],
    [.free 31 31 .w1s 0, .free 30 30 .ro 0, .free 23 0 .ro 0]⟩]

/-- Registers of the FN block. -/
def fnRegs : List RegRow :=
  fnRegs0 ++ fnRegs1

/-- Registers of the KEY block, part 1. -/
def keyRegs0 : List RegRow := [
  ⟨"KEY_CMD", 0x0, 1, 0x4, .one, [],
    [.free 31 31 .w1s 0, .free 30 28 .rw 0, .free 26 16 .rw 0, .free 15 7 .rw 0, .free 6 3 .rw 0]⟩,
  ⟨"KEY_CMD_RES", 0x4, 1, 0x4, .one, [],
    [.free 31 31 .ro 0, .free 25 16 .ro 0, .free 7 0 .ro 0]⟩,
  ⟨"KEY_SLOT_SEL", 0x10, 1, 0x4, .one, [],
    [.free 9 0 .rw 0]⟩,
  ⟨"KEY_SLOT_STAT", 0x14, 1, 0x4, .one, [],
    [.free 31 30 .ro 0, .free 29 28 .ro 0, .free 23 16 .ro 0, .free 8 0 .ro 0]⟩,
  ⟨"KEY_CTR_LO", 0x18, 1, 0x4, .lo, [],
    [.free 31 0 .ro 0]⟩,
  ⟨"KEY_CTR_HI", 0x1C, 1, 0x4, .hi, [],
    [.free 31 0 .ro 0]⟩,
  ⟨"KEY_SCA", 0x30, 1, 0x4, .one, [],
    [.free 8 8 .w1c 0, .free 5 5 .w1s 0, .free 4 4 .st 1, .free 1 0 .st 0]⟩,
  ⟨"KEY_ALARM_CFG", 0x40, 1, 0x4, .one, [],
    [.free 13 0 .rwl 9685]⟩,
  ⟨"KEY_ALARM_STAT", 0x44, 1, 0x4, .one, [],
    [.free 31 31 .ro 0, .free 6 0 .w1c 0]⟩,
  ⟨"KEY_ALARM_CNT", 0x48, 1, 0x4, .one, [],
    [.free 4 0 .rws 0]⟩,
  ⟨"KEY_NONCE_LO", 0x50, 1, 0x4, .lo, [],
    [.free 31 0 .ro 0]⟩,
  ⟨"KEY_NONCE_HI", 0x54, 1, 0x4, .hi, [],
    [.free 31 0 .ro 0]⟩]

/-- Registers of the KEY block, part 2. -/
def keyRegs1 : List RegRow := [
  ⟨"KEY_SVN", 0x60, 4, 0x4, .one, [],
    [.free 31 0 .ro 0]⟩]

/-- Registers of the KEY block. -/
def keyRegs : List RegRow :=
  keyRegs0 ++ keyRegs1

/-- Registers of the SEAL block. -/
def sealRegs : List RegRow := [
  ⟨"SEAL_CTRL", 0x0, 1, 0x4, .one, [],
    [.free 1 1 .w1s 0, .free 0 0 .rw 0]⟩,
  ⟨"SEAL_STATUS", 0x4, 1, 0x4, .one, [],
    [.free 15 15 .ro 0, .free 14 14 .ro 0, .free 13 13 .ro 0, .free 12 0 .ro 0]⟩,
  ⟨"SEAL_PERIOD", 0x8, 1, 0x4, .one, [],
    [.free 31 0 .st 7500000]⟩,
  ⟨"SEAL_STRIKE_LO", 0x10, 1, 0x4, .lo, [],
    [.free 31 0 .rw 0]⟩,
  ⟨"SEAL_STRIKE_HI", 0x14, 1, 0x4, .hi, [],
    [.free 15 0 .rw 0]⟩,
  ⟨"SEAL_STRIKE_STAT", 0x18, 1, 0x4, .one, [],
    [.free 7 0 .ro 0]⟩,
  ⟨"SEAL_SEQ_LO", 0x20, 1, 0x4, .lo, [],
    [.free 31 0 .ro 0]⟩,
  ⟨"SEAL_SEQ_HI", 0x24, 1, 0x4, .hi, [],
    [.free 31 0 .ro 0]⟩,
  ⟨"SEAL_EPOCH", 0x28, 1, 0x4, .one, [],
    [.free 31 0 .ro 0]⟩,
  ⟨"SEAL_TOKEN_STAT", 0x30, 1, 0x4, .one, [],
    [.free 11 8 .ro 0, .free 7 0 .ro 0]⟩]

/-- Registers of the BPM block, part 1. -/
def bpmRegs0 : List RegRow := [
  ⟨"BPM_CTRL", 0x0, 1, 0x4, .one, [],
    [.free 1 1 .w1s 0, .free 0 0 .rw 0]⟩,
  ⟨"BPM_STATUS", 0x4, 1, 0x4, .one, [],
    [.free 1 1 .ro 0, .free 0 0 .ro 0]⟩,
  ⟨"BPM_FREE_NEAR", 0x8, 1, 0x4, .one, [],
    [.free 14 0 .ro 0]⟩,
  ⟨"BPM_FREE_FAR", 0xC, 1, 0x4, .one, [],
    [.free 21 0 .ro 0]⟩,
  ⟨"BPM_DIRTY", 0x10, 1, 0x4, .one, [],
    [.within 31 16 .st 32768 1024 32768, .free 15 0 .ro 0]⟩,
  ⟨"BPM_ALLOC", 0x20, 1, 0x4, .one, [],
    [.free 31 31 .w1s 0]⟩,
  ⟨"BPM_ALLOC_RES", 0x24, 1, 0x4, .one, [],
    [.free 31 31 .ro 0, .free 7 0 .ro 0]⟩,
  ⟨"BPM_ALLOC_HANDLE", 0x28, 1, 0x4, .one, [],
    [.free 31 0 .ro 0]⟩,
  ⟨"BPM_REF", 0x30, 1, 0x4, .one, [],
    [.free 31 31 .w1s 0, .free 30 30 .rw 0]⟩,
  ⟨"BPM_REF_HANDLE", 0x34, 1, 0x4, .one, [],
    [.free 31 0 .rw 0]⟩,
  ⟨"BPM_REF_RES", 0x38, 1, 0x4, .one, [],
    [.free 31 31 .ro 0, .free 23 8 .ro 0, .free 7 0 .ro 0]⟩,
  ⟨"BPM_WIN_SEL", 0x40, 1, 0x4, .one, [],
    [.free 31 0 .rw 0]⟩]

/-- Registers of the BPM block, part 2. -/
def bpmRegs1 : List RegRow := [
  ⟨"BPM_AUDIT_CFG", 0x50, 1, 0x4, .one, [],
    [.within 11 0 .st 125 1 4095]⟩,
  ⟨"BPM_AUDIT_LIM", 0x60, 10, 0x4, .one, [(0, 0, 250000), (1, 1, 12500)],
    [.free 31 0 .st 0]⟩,
  ⟨"BPM_AUDIT_SEL", 0x90, 1, 0x4, .one, [],
    [.free 11 0 .rw 0]⟩,
  ⟨"BPM_AUDIT_CUR", 0x94, 1, 0x4, .one, [],
    [.free 31 31 .ro 0, .free 22 0 .ro 0]⟩,
  ⟨"BPM_AUDIT_AGE", 0x98, 1, 0x4, .one, [],
    [.free 31 0 .ro 0]⟩,
  ⟨"BPM_AUDIT_OLD", 0x9C, 1, 0x4, .one, [],
    [.free 31 0 .ro 0]⟩,
  ⟨"BPM_AUDIT_CMD", 0xA0, 1, 0x4, .one, [],
    [.free 31 31 .w1s 0]⟩,
  ⟨"BPM_WIN", 0x10000, 4096, 0x4, .one, [],
    [.free 31 0 .rw 0]⟩]

/-- Registers of the BPM block. -/
def bpmRegs : List RegRow :=
  bpmRegs0 ++ bpmRegs1

/-- Registers of the MEM block. -/
def memRegs : List RegRow := [
  ⟨"MEM_CTRL", 0x0, 1, 0x4, .one, [],
    [.free 1 1 .w1s 0, .free 0 0 .rw 0]⟩,
  ⟨"MEM_STATUS", 0x4, 1, 0x4, .one, [],
    [.free 5 5 .ro 0, .free 4 4 .ro 0, .free 3 3 .ro 0, .free 2 0 .ro 0]⟩,
  ⟨"MEM_CARVE", 0x8, 1, 0x4, .one, [],
    [.free 24 16 .ro 0, .free 13 8 .ro 0, .within 5 0 .rws 0 2 32]⟩,
  ⟨"MEM_PORT_CFG", 0x20, 8, 0x4, .one, [(0, 1, 1000), (2, 2, 1073743824), (3, 3, 500), (4, 4, 1073743824), (5, 5, 500), (6, 6, 2147491648), (7, 7, 1073743824)],
    [.within 31 30 .st 0 0 2, .free 29 29 .st 0, .within 15 0 .st 0 100 65535]⟩,
  ⟨"MEM_AGE", 0x40, 1, 0x4, .one, [],
    [.within 15 0 .st 20000 1000 65535]⟩,
  ⟨"MEM_LAT", 0x60, 8, 0x4, .one, [],
    [.free 31 16 .rc 0, .free 15 0 .rc 0]⟩,
  ⟨"MEM_ECC", 0x80, 1, 0x4, .one, [],
    [.free 31 16 .rc 0, .free 15 0 .rc 0]⟩,
  ⟨"MEM_ECC_LAST", 0x84, 1, 0x4, .one, [],
    [.free 7 4 .ro 0, .free 2 0 .ro 0]⟩,
  ⟨"MEM_REF", 0x90, 1, 0x4, .one, [],
    [.free 16 16 .ro 0, .free 15 0 .rc 0]⟩]

/-- Registers of the BOOM block, part 1. -/
def boomRegs0 : List RegRow := [
  ⟨"BOOM_CTRL", 0x0, 1, 0x4, .one, [],
    [.free 1 1 .w1s 0, .free 0 0 .rw 0]⟩,
  ⟨"BOOM_STATUS", 0x4, 1, 0x4, .one, [],
    [.free 3 3 .ro 0, .free 2 2 .ro 0, .free 1 0 .ro 0]⟩,
  ⟨"BOOM_TREE", 0x8, 1, 0x4, .one, [],
    [.free 31 18 .ro 0, .free 17 14 .ro 0, .free 12 12 .ro 0, .free 11 10 .ro 0]⟩,
  ⟨"BOOM_SIZE", 0xC, 1, 0x4, .one, [],
    [.free 14 0 .ro 0]⟩,
  ⟨"BOOM_OFFSET", 0x10, 1, 0x4, .one, [],
    [.free 31 0 .ro 0]⟩,
  ⟨"BOOM_SYNC", 0x14, 1, 0x4, .one, [],
    [.within 11 8 .st 8 2 15, .within 7 0 .st 16 1 255]⟩,
  ⟨"BOOM_GUARD", 0x18, 1, 0x4, .one, [],
    [.free 31 24 .st 16, .free 23 16 .st 64, .within 15 12 .st 4 1 15, .within 11 0 .st 125 1 4095]⟩,
  ⟨"BOOM_SVC_CFG", 0x1C, 1, 0x4, .one, [],
    [.within 11 0 .st 250 1 4095]⟩,
  ⟨"BOOM_SVC_REQ", 0x20, 1, 0x4, .one, [],
    [.free 31 31 .w1s 0, .free 30 28 .rw 0]⟩,
  ⟨"BOOM_SVC_DATA", 0x24, 4, 0x4, .one, [],
    [.free 31 0 .rw 0]⟩,
  ⟨"BOOM_SVC_RES", 0x34, 1, 0x4, .one, [],
    [.free 31 31 .ro 0, .free 30 16 .ro 0, .free 7 0 .ro 0]⟩,
  ⟨"BOOM_SVC_MISS", 0x38, 1, 0x4, .one, [],
    [.free 14 0 .ro 0]⟩]

/-- Registers of the BOOM block, part 2. -/
def boomRegs1 : List RegRow := [
  ⟨"BOOM_SVC_TICK_LO", 0x40, 1, 0x4, .lo, [],
    [.free 31 0 .ro 0]⟩,
  ⟨"BOOM_SVC_TICK_HI", 0x44, 1, 0x4, .hi, [],
    [.free 15 0 .ro 0]⟩,
  ⟨"BOOM_RX_SID", 0x50, 1, 0x4, .one, [],
    [.free 15 0 .ro 0]⟩,
  ⟨"BOOM_RX_DATA", 0x54, 4, 0x4, .one, [],
    [.free 31 0 .ro 0]⟩,
  ⟨"BOOM_PORT_CTRL", 0x100, 4, 0x40, .one, [],
    [.free 1 1 .w1s 0, .free 0 0 .w1s 0]⟩,
  ⟨"BOOM_PORT_STAT", 0x104, 4, 0x40, .one, [],
    [.free 7 5 .ro 0, .free 4 4 .ro 0, .free 3 3 .ro 0, .free 2 0 .ro 0]⟩,
  ⟨"BOOM_PORT_CRC", 0x108, 4, 0x40, .one, [],
    [.free 31 0 .rc 0]⟩,
  ⟨"BOOM_PORT_AUTH", 0x10C, 4, 0x40, .one, [],
    [.free 31 16 .rc 0, .free 15 0 .rc 0]⟩,
  ⟨"BOOM_PORT_RETX", 0x110, 4, 0x40, .one, [],
    [.free 31 0 .rc 0]⟩]

/-- Registers of the BOOM block. -/
def boomRegs : List RegRow :=
  boomRegs0 ++ boomRegs1

/-- Registers of the THM block. -/
def thmRegs : List RegRow := [
  ⟨"THM_CTRL", 0x0, 1, 0x4, .one, [],
    [.free 1 1 .w1s 0, .free 0 0 .rw 0]⟩,
  ⟨"THM_STATUS", 0x4, 1, 0x4, .one, [],
    [.free 16 16 .ro 0, .free 15 8 .ro 0, .free 3 3 .rws 0, .free 2 2 .ro 0, .free 1 1 .ro 0]⟩,
  ⟨"THM_LIMIT", 0x10, 1, 0x4, .one, [],
    [.free 31 24 .st 115, .free 23 16 .st 100, .free 15 8 .st 80, .free 7 0 .st 70]⟩,
  ⟨"THM_CHECK", 0x14, 1, 0x4, .one, [],
    [.within 4 0 .st 0 1 30]⟩,
  ⟨"THM_COMPOSITE", 0x18, 1, 0x4, .one, [],
    [.free 29 28 .ro 0, .free 27 22 .ro 0, .free 15 0 .ro 0]⟩,
  ⟨"THM_BUDGET", 0x1C, 1, 0x4, .one, [],
    [.free 23 0 .ro 0]⟩,
  ⟨"THM_ADC_SEL", 0x20, 1, 0x4, .one, [],
    [.free 4 0 .rw 0]⟩,
  ⟨"THM_ADC_VAL", 0x24, 1, 0x4, .one, [],
    [.free 31 31 .ro 0, .free 30 30 .ro 0, .free 11 0 .ro 0]⟩,
  ⟨"THM_ADC_OVR", 0x28, 1, 0x4, .one, [],
    [.free 27 0 .w1c 0]⟩,
  ⟨"THM_ADC_SETTLE", 0x2C, 1, 0x4, .one, [],
    [.within 3 0 .rw 2 1 15]⟩,
  ⟨"THM_SUSPECT", 0x30, 1, 0x4, .one, [],
    [.free 31 0 .ro 0]⟩,
  ⟨"THM_SUSPECT_TH", 0x34, 1, 0x4, .one, [],
    [.free 15 0 .ro 0]⟩]

/-- Registers of the LOG block, part 1. -/
def logRegs0 : List RegRow := [
  ⟨"LOG_FL_CTRL", 0x0, 1, 0x4, .one, [],
    [.free 16 16 .w1s 0, .free 11 0 .rw 125]⟩,
  ⟨"LOG_FL_STAT", 0x4, 1, 0x4, .one, [],
    [.free 31 16 .rc 0, .free 10 0 .ro 0]⟩,
  ⟨"LOG_FL_POS", 0x8, 1, 0x4, .one, [],
    [.free 25 16 .ro 0, .free 9 0 .ro 0]⟩,
  ⟨"LOG_FL_CUR", 0x10, 1, 0x4, .one, [],
    [.free 9 0 .rw 0]⟩,
  ⟨"LOG_FL_E", 0x20, 8, 0x4, .one, [],
    [.free 31 0 .ro 0]⟩,
  ⟨"LOG_TY_CTRL", 0x100, 1, 0x4, .one, [],
    [.free 31 31 .w1s 0, .free 30 30 .w1s 0]⟩,
  ⟨"LOG_TY_PERIOD", 0x104, 1, 0x4, .one, [],
    [.within 23 0 .st 125000 125 16777215]⟩,
  ⟨"LOG_TY_EN_LO", 0x108, 1, 0x4, .lo, [],
    [.free 31 0 .st 4294967295]⟩,
  ⟨"LOG_TY_EN_HI", 0x10C, 1, 0x4, .hi, [],
    [.free 9 0 .st 1023]⟩,
  ⟨"LOG_TY_STAT", 0x110, 1, 0x4, .one, [],
    [.free 31 31 .ro 0, .free 27 12 .rc 0, .free 11 0 .ro 0]⟩,
  ⟨"LOG_TY_CUR", 0x114, 1, 0x4, .one, [],
    [.free 10 0 .rw 0]⟩,
  ⟨"LOG_TY_R", 0x140, 16, 0x4, .one, [],
    [.free 31 0 .ro 0]⟩]

/-- Registers of the LOG block, part 2. -/
def logRegs1 : List RegRow := [
  ⟨"LOG_TY_SHIFT", 0x200, 42, 0x4, .one, [(0, 7, 0), (8, 41, 2)],
    [.free 3 0 .st 0]⟩]

/-- Registers of the LOG block. -/
def logRegs : List RegRow :=
  logRegs0 ++ logRegs1

/-- Registers of the KRF block, part 1. -/
def krfRegs0 : List RegRow := [
  ⟨"KRF_LOAD_CTRL", 0x0, 1, 0x4, .one, [],
    [.free 31 31 .w1s 0, .free 30 30 .rw 0, .free 5 0 .rw 0]⟩,
  ⟨"KRF_LOAD_ADDR", 0x4, 1, 0x4, .one, [],
    [.free 31 0 .rw 0]⟩,
  ⟨"KRF_LOAD_RES", 0x8, 1, 0x4, .one, [],
    [.free 31 31 .ro 0, .free 27 24 .ro 0, .free 23 14 .ro 0, .free 13 8 .ro 0, .free 7 0 .ro 0]⟩,
  ⟨"KRF_SLOT_SEL", 0x10, 1, 0x4, .one, [],
    [.free 5 0 .rw 0]⟩,
  ⟨"KRF_SLOT_VAL", 0x14, 1, 0x4, .one, [],
    [.free 31 30 .ro 0, .free 28 16 .ro 0, .free 11 9 .ro 0, .free 8 0 .ro 0]⟩,
  ⟨"KRF_SLOT_COST", 0x18, 1, 0x4, .one, [],
    [.free 11 0 .ro 0]⟩,
  ⟨"KRF_BIND_CTRL", 0x20, 1, 0x4, .one, [],
    [.free 31 31 .w1s 0, .free 30 29 .rw 0, .free 25 16 .rw 0, .free 15 0 .rw 0]⟩,
  ⟨"KRF_BIND_ARG", 0x24, 1, 0x4, .one, [],
    [.free 5 0 .rw 0]⟩,
  ⟨"KRF_BIND_RES", 0x28, 1, 0x4, .one, [],
    [.free 31 31 .ro 0, .free 25 14 .ro 0, .free 13 8 .ro 0, .free 7 0 .ro 0]⟩,
  ⟨"KRF_TRAP_CNT", 0x30, 1, 0x4, .one, [],
    [.free 31 0 .rc 0]⟩,
  ⟨"KRF_TRAP_LAST", 0x34, 1, 0x4, .one, [],
    [.free 31 24 .ro 0, .free 23 18 .ro 0, .free 17 16 .ro 0, .free 15 6 .ro 0, .free 5 0 .ro 0]⟩,
  ⟨"KRF_EMIT_DROP", 0x38, 1, 0x4, .one, [],
    [.free 31 0 .rc 0]⟩]

/-- Registers of the KRF block, part 2. -/
def krfRegs1 : List RegRow := [
  ⟨"KRF_STATE_SEL", 0x40, 1, 0x4, .one, [],
    [.free 11 0 .rw 0]⟩,
  ⟨"KRF_STATE_WIN", 0x100, 64, 0x4, .one, [],
    [.free 31 0 .ro 0]⟩,
  ⟨"KRF_WP_STAT", 0x80000, 4, 0x100, .one, [],
    [.free 7 7 .w1c 0, .free 6 6 .w1c 0, .free 5 5 .ro 0, .free 4 4 .ro 0, .free 3 3 .ro 1, .free 2 2 .ro 1, .free 1 1 .ro 0, .free 0 0 .ro 0]⟩,
  ⟨"KRF_WP_COMMIT", 0x80004, 4, 0x100, .one, [],
    [.free 31 31 .w1s 0, .free 7 0 .ro 0]⟩,
  ⟨"KRF_WP_GEN_LO", 0x80008, 4, 0x100, .lo, [],
    [.free 31 0 .ro 0]⟩,
  ⟨"KRF_WP_GEN_HI", 0x8000C, 4, 0x100, .hi, [],
    [.free 31 0 .ro 0]⟩,
  ⟨"KRF_WP_HB", 0x80010, 4, 0x100, .one, [],
    [.within 3 0 .rwl 8 2 8]⟩,
  ⟨"KRF_WP_FAIL", 0x80014, 4, 0x100, .one, [],
    [.free 31 24 .rws 0, .free 13 8 .rws 0, .free 1 0 .rws 0]⟩,
  ⟨"KRF_MBX_RX", 0x80020, 4, 0x100, .one, [],
    [.free 31 24 .ro 0, .free 23 16 .ro 0, .free 15 8 .ro 0, .free 6 0 .ro 0]⟩,
  ⟨"KRF_MBX_POP", 0x80024, 4, 0x100, .one, [],
    [.free 0 0 .w1s 0]⟩,
  ⟨"KRF_MBX_TX", 0x81000, 8, 0x100, .one, [],
    [.free 31 31 .w1s 0, .free 14 8 .ro 0, .free 7 0 .ro 0]⟩]

/-- Registers of the KRF block. -/
def krfRegs : List RegRow :=
  krfRegs0 ++ krfRegs1

/-- Registers of the IRQ block. -/
def irqRegs : List RegRow := [
  ⟨"IRQ_ROUTE", 0x0, 1536, 0x4, .one,
    [(0, 159, 0x488C0000), (160, 191, 0x484C0000), (192, 223, 0x48880000), (224, 239, 0x486C0000), (240, 255, 0x488C0000), (256, 259, 0x48880000),
    (260, 263, 0x484C0000), (264, 271, 0x68C00000), (280, 283, 0x484C0000), (284, 287, 0x488C0000), (288, 288, 0x48680000),
    (289, 289, 0x48480000), (290, 290, 0x48A80000), (291, 291, 0x488C0000), (292, 296, 0x48AC0000), (297, 297, 0x48CC0000),
    (298, 298, 0x68F00000), (299, 299, 0x48AC0000), (301, 302, 0x48AC0000), (303, 303, 0x68200000), (304, 304, 0x68600000),
    (305, 306, 0x48AC0000), (307, 307, 0x68400000), (308, 308, 0x68C00000), (309, 309, 0x48840000), (310, 310, 0x48480000),
    (312, 319, 0x486C0000), (320, 320, 0x488C0000), (321, 321, 0x48240000), (322, 322, 0x48840000), (323, 323, 0x486C0000),
    (324, 324, 0x48AC0000), (325, 325, 0x48440000), (326, 326, 0x48CC0000), (327, 327, 0x48880000), (512, 767, 0x48440000),
    (768, 1023, 0x48280000), (1024, 1279, 0x48680000), (1280, 1535, 0x48840000)],
    [.free 30 30 .rw 1, .free 29 29 .rw 0, .within 28 27 .rw 0 0 2, .free 23 20 .rw 0, .free 19 18 .rw 0, .free 17 16 .rw 0, .free 10 0 .rw 0]⟩,
  ⟨"IRQ_PEND", 0x2000, 48, 0x4, .one, [],
    [.free 31 0 .w1c 0]⟩,
  ⟨"IRQ_CNT_SEL", 0x3000, 1, 0x4, .one, [],
    [.free 10 0 .rw 0]⟩,
  ⟨"IRQ_CNT", 0x3004, 1, 0x4, .one, [],
    [.free 15 0 .rc 0]⟩,
  ⟨"IRQ_ERR", 0x3010, 1, 0x4, .one, [],
    [.free 15 0 .rc 0]⟩]

/-- Registers of the MAP block, part 1. -/
def mapRegs0 : List RegRow := [
  ⟨"MAP_CTRL", 0x0, 1, 0x4, .one, [],
    [.free 2 2 .rwl 0, .free 1 1 .w1s 0, .free 0 0 .rw 0]⟩,
  ⟨"MAP_STATUS", 0x4, 1, 0x4, .one, [],
    [.free 3 3 .ro 0, .free 2 2 .ro 0, .free 1 0 .ro 0]⟩,
  ⟨"MAP_CORD_CFG", 0x8, 1, 0x4, .one, [],
    [.free 16 8 .ro 0, .within 3 0 .rwl 2 0 8]⟩,
  ⟨"MAP_ROW_CFG", 0xC, 1, 0x4, .one, [],
    [.within 16 0 .st 12500 125 125000]⟩,
  ⟨"MAP_CACHE_CFG", 0x10, 1, 0x4, .one, [],
    [.within 22 16 .rw 50 0 90, .within 14 8 .rw 50 10 90, .within 7 0 .rws 0 1 128]⟩,
  ⟨"MAP_JRNL", 0x14, 1, 0x4, .one, [],
    [.free 31 16 .ro 0, .within 6 0 .st 32 8 64]⟩,
  ⟨"MAP_CACHE_STAT", 0x18, 1, 0x4, .one, [],
    [.free 28 16 .ro 0, .free 15 0 .ro 0]⟩,
  ⟨"MAP_MISS_CNT", 0x1C, 1, 0x4, .one, [],
    [.free 31 0 .rc 0]⟩,
  ⟨"MAP_PIN_CTRL", 0x20, 1, 0x4, .one, [],
    [.free 31 31 .w1s 0, .free 30 30 .rw 0, .free 25 16 .rw 0, .free 15 8 .ro 0]⟩,
  ⟨"MAP_GC_CFG", 0x30, 1, 0x4, .one, [],
    [.within 31 24 .st 4 1 255, .free 23 16 .st 2, .free 15 8 .st 8, .free 7 0 .st 32]⟩,
  ⟨"MAP_GC_STAT", 0x34, 1, 0x4, .one, [],
    [.free 31 16 .rc 0, .free 15 0 .rc 0]⟩,
  ⟨"MAP_REFRESH", 0x38, 1, 0x4, .one, [],
    [.free 31 16 .ro 0, .free 15 0 .st 8760]⟩]

/-- Registers of the MAP block, part 2. -/
def mapRegs1 : List RegRow := [
  ⟨"MAP_PL_CNT", 0x3C, 1, 0x4, .one, [],
    [.free 15 0 .rws 0]⟩,
  ⟨"MAP_CORD_SEL", 0x40, 1, 0x4, .one, [],
    [.free 11 4 .rw 0, .free 3 0 .rw 0]⟩,
  ⟨"MAP_CORD_VAL", 0x44, 1, 0x4, .one, [],
    [.free 31 31 .ro 0, .free 30 30 .ro 0, .free 29 29 .ro 0, .free 11 0 .ro 0]⟩,
  ⟨"MAP_BBT_CMD", 0x50, 1, 0x4, .one, [],
    [.free 31 31 .w1s 0, .free 30 28 .rw 0]⟩,
  ⟨"MAP_BBT_IDX", 0x54, 1, 0x4, .one, [],
    [.free 22 0 .rw 0]⟩,
  ⟨"MAP_BBT_E", 0x58, 4, 0x4, .one, [],
    [.free 31 0 .rw 0]⟩,
  ⟨"MAP_BBT_STAT", 0x68, 1, 0x4, .one, [],
    [.free 31 31 .ro 0, .free 30 8 .ro 0, .free 7 0 .ro 0]⟩]

/-- Registers of the MAP block. -/
def mapRegs : List RegRow :=
  mapRegs0 ++ mapRegs1

/-- Registers of the CH block. -/
def chRegs : List RegRow := [
  ⟨"CH_CTRL", 0x0, 1, 0x4, .one, [],
    [.free 1 1 .w1s 0, .free 0 0 .w1s 0]⟩,
  ⟨"CH_CFG", 0x4, 1, 0x4, .one, [],
    [.free 22 20 .rw 0, .free 19 19 .rw 0, .free 18 18 .rw 0, .free 15 12 .rw 0, .free 11 8 .rw 0, .free 7 4 .rw 0, .free 3 0 .rw 0]⟩,
  ⟨"CH_STATUS", 0x8, 1, 0x4, .one, [],
    [.free 31 24 .ro 0, .free 23 20 .ro 0, .free 19 17 .ro 0, .free 16 16 .ro 0, .free 15 9 .ro 0, .free 1 0 .ro 0]⟩,
  ⟨"CH_POLL", 0xC, 1, 0x4, .one, [],
    [.within 7 4 .rw 8 1 15, .within 3 0 .rw 4 1 15]⟩,
  ⟨"CH_TRACK", 0x10, 1, 0x4, .one, [],
    [.free 31 16 .rc 0, .free 9 8 .ro 0, .within 5 0 .rw 20 1 63]⟩,
  ⟨"CH_DSK_SEL", 0x20, 1, 0x4, .one, [],
    [.free 7 7 .rw 0, .free 5 4 .rw 0, .free 3 0 .rw 0]⟩,
  ⟨"CH_DSK_VAL", 0x24, 1, 0x4, .one, [],
    [.free 21 16 .ro 0, .free 5 0 .ro 0]⟩,
  ⟨"CH_FAULT", 0x30, 1, 0x4, .one, [],
    [.free 7 7 .w1c 0, .free 6 6 .w1c 0, .free 5 5 .w1c 0, .free 4 4 .w1c 0, .free 3 3 .w1c 0, .free 2 2 .w1c 0, .free 1 1 .w1c 0, .free 0 0 .w1c 0]⟩,
  ⟨"CH_FAIL_CNT", 0x34, 1, 0x4, .one, [],
    [.free 31 16 .rc 0, .free 15 0 .rc 0]⟩,
  ⟨"CH_LAST_STAT", 0x38, 1, 0x4, .one, [],
    [.free 12 8 .ro 0, .free 7 0 .ro 0]⟩,
  ⟨"CH_XFER", 0x40, 1, 0x4, .one, [],
    [.free 31 16 .rc 0, .free 15 0 .rc 0]⟩]

/-- Registers of the DEC block. -/
def decRegs : List RegRow := [
  ⟨"DEC_CTRL", 0x0, 1, 0x4, .one, [],
    [.free 5 1 .w1s 0, .free 0 0 .w1s 0]⟩,
  ⟨"DEC_STATUS", 0x4, 1, 0x4, .one, [],
    [.free 6 6 .ro 0, .free 5 1 .ro 0, .free 0 0 .ro 0]⟩,
  ⟨"DEC_SLOTS", 0x8, 1, 0x4, .one, [],
    [.free 15 8 .ro 8, .free 7 0 .ro 40]⟩,
  ⟨"DEC_ITER", 0xC, 1, 0x4, .one, [],
    [.within 18 16 .st 3 1 7, .within 15 8 .st 30 1 60, .within 7 0 .st 20 1 40]⟩,
  ⟨"DEC_THR", 0x10, 1, 0x4, .one, [],
    [.within 21 16 .st 24 1 63, .within 9 8 .st 2 1 3, .within 7 0 .st 80 1 255]⟩,
  ⟨"DEC_CNT", 0x20, 5, 0x4, .one, [],
    [.free 31 0 .rc 0]⟩,
  ⟨"DEC_MAXCORR", 0x34, 1, 0x4, .one, [],
    [.free 15 0 .rc 0]⟩,
  ⟨"DEC_RWQ_STAT", 0x40, 1, 0x4, .one, [],
    [.free 31 16 .rc 0, .free 6 0 .ro 0]⟩,
  ⟨"DEC_RWQ_LO", 0x48, 1, 0x4, .lo, [],
    [.free 31 31 .ro 0, .free 30 28 .ro 0, .free 27 12 .ro 0, .free 11 0 .ro 0]⟩,
  ⟨"DEC_RWQ_HI", 0x4C, 1, 0x4, .hi, [],
    [.free 26 24 .ro 0, .free 22 20 .ro 0, .free 15 0 .ro 0]⟩,
  ⟨"DEC_FAULT", 0x60, 1, 0x4, .one, [],
    [.free 6 6 .w1c 0, .free 5 5 .w1c 0, .free 4 0 .w1c 0]⟩]

/-- Registers of the TF block, part 1. -/
def tfRegs0 : List RegRow := [
  ⟨"TF_CTRL", 0x0, 1, 0x4, .one, [],
    [.within 12 8 .st 5 0 25, .free 1 1 .w1s 0, .free 0 0 .rw 0]⟩,
  ⟨"TF_STATUS", 0x4, 1, 0x4, .one, [],
    [.free 16 16 .ro 0, .free 15 0 .ro 0]⟩,
  ⟨"TF_FENCE", 0x8, 1, 0x4, .one, [],
    [.free 15 0 .w1s 0]⟩,
  ⟨"TF_FAULT", 0xC, 1, 0x4, .one, [],
    [.free 15 0 .w1c 0]⟩,
  ⟨"TF_GUARD_CNT", 0x20, 1, 0x4, .one, [],
    [.free 31 0 .rc 0]⟩,
  ⟨"TF_MOV_KIB", 0x30, 1, 0x4, .one, [],
    [.free 31 0 .rc 0]⟩,
  ⟨"TF_XTS_KIB", 0x34, 1, 0x4, .one, [],
    [.free 31 0 .rc 0]⟩,
  ⟨"TF_GCM_KIB", 0x38, 1, 0x4, .one, [],
    [.free 31 0 .rc 0]⟩,
  ⟨"TF_SQZ_KIB", 0x3C, 1, 0x4, .one, [],
    [.free 31 0 .rc 0]⟩,
  ⟨"TF_HASH_KIB", 0x40, 1, 0x4, .one, [],
    [.free 31 0 .rc 0]⟩,
  ⟨"TQ_CTRL", 0x10000, 4, 0x100, .one, [],
    [.free 3 3 .rw 0, .free 2 2 .w1s 0, .free 0 0 .rw 0]⟩,
  ⟨"TQ_BASE", 0x10004, 4, 0x100, .one, [],
    [.free 31 6 .rw 0]⟩]

/-- Registers of the TF block, part 2. -/
def tfRegs1 : List RegRow := [
  ⟨"TQ_SIZE", 0x10008, 4, 0x100, .one, [],
    [.within 3 0 .rw 4 4 12]⟩,
  ⟨"TQ_HEAD", 0x1000C, 4, 0x100, .one, [],
    [.free 11 0 .ro 0]⟩,
  ⟨"TQ_TAIL", 0x10010, 4, 0x100, .one, [],
    [.free 11 0 .rw 0]⟩,
  ⟨"TQ_STAT", 0x10014, 4, 0x100, .one, [],
    [.free 31 16 .rc 0, .free 10 8 .ro 0, .free 7 0 .ro 0]⟩]

/-- Registers of the TF block. -/
def tfRegs : List RegRow :=
  tfRegs0 ++ tfRegs1

/-- Registers of the NEAR block. -/
def nearRegs : List RegRow := [
  ⟨"NP_STAT", 0x0, 1, 0x4, .one, [],
    [.free 12 0 .ro 0]⟩,
  ⟨"NP_ECC", 0x4, 1, 0x4, .one, [],
    [.free 31 16 .rc 0, .free 15 0 .rc 0]⟩]

/-- Registers of the THMR block. -/
def thmrRegs : List RegRow := [
  ⟨"TM_NODE", 0x0, 40, 0x4, .one, [],
    [.free 15 0 .ro 0]⟩,
  ⟨"TM_SENS", 0x100, 8, 0x4, .one, [],
    [.free 31 31 .ro 0, .free 15 0 .ro 0]⟩,
  ⟨"TM_STOPPED", 0x200, 1, 0x4, .one, [],
    [.free 31 0 .ro 0]⟩]

end Sys2Proof.Machine
end

