-- ==== Sys2Proof/Machine/Tab.lean ====
section
/-! DEFINITION. Sparse tables and memories in one canonical form, and reads and writes of bit fields and little-endian words.

A table lists (key, value) pairs with strictly rising keys and no pair whose value is the table's default for its key.
A memory is a table of bytes whose unlisted addresses read 0 (log entry 2). -/

namespace Sys2Proof.Machine

/-- A sparse table. -/
abbrev Tab (α : Type) := List (Nat × α)

/-- A memory: (address, byte) pairs. -/
abbrev Mem := Tab Byte

/-- The value at `k`; `d` gives the value of an unlisted key. -/
def Tab.get {α : Type} (d : Nat → α) : Tab α → Nat → α
  | [], k => d k
  | (k', v) :: t, k => if k' = k then v else Tab.get d t k

/-- Removes the pair of `k`. -/
def Tab.erase {α : Type} (t : Tab α) (k : Nat) : Tab α := t.filter (fun p => p.1 != k)

/-- Puts (`k`, `v`) in place. -/
def Tab.insert {α : Type} : Tab α → Nat → α → Tab α
  | [], k, v => [(k, v)]
  | (k', w) :: t, k, v =>
    if k' = k then (k, v) :: t else if k < k' then (k, v) :: (k', w) :: t else (k', w) :: Tab.insert t k v

/-- Writes `v` at `k`, keeping the canonical form. -/
def Tab.set {α : Type} [DecidableEq α] (d : Nat → α) (t : Tab α) (k : Nat) (v : α) : Tab α :=
  if v = d k then Tab.erase t k else Tab.insert t k v

/-- The keys rise strictly, starting above `lo`. -/
def Tab.risingFrom {α : Type} : Nat → Tab α → Bool
  | _, [] => true
  | lo, (k, _) :: t => decide (lo ≤ k) && Tab.risingFrom (k + 1) t

/-- The canonical form of a table. -/
def Tab.wf {α : Type} [DecidableEq α] (d : Nat → α) (t : Tab α) : Bool :=
  Tab.risingFrom 0 t && t.all (fun p => !decide (p.2 = d p.1))

/-- Every unlisted byte reads 0. -/
def Mem.unlisted (_ : Nat) : Byte := 0

/-- One byte of a memory. -/
def Mem.read (m : Mem) (a : Nat) : Byte := Tab.get Mem.unlisted m a

/-- A memory with one byte written. -/
def Mem.write (m : Mem) (a : Nat) (b : Byte) : Mem := Tab.set Mem.unlisted m a b

/-- The canonical form of a memory. -/
def Mem.wf (m : Mem) : Bool := Tab.wf Mem.unlisted m

/-- `n` bytes from address `a` on. -/
def Mem.readBytes (m : Mem) (a : Nat) : Nat → List Byte
  | 0 => []
  | n + 1 => Mem.read m a :: Mem.readBytes m (a + 1) n

/-- The bytes `bs` written from address `a` on. -/
def Mem.writeBytes (m : Mem) (a : Nat) : List Byte → Mem
  | [] => m
  | b :: bs => Mem.writeBytes (Mem.write m a b) (a + 1) bs

/-- The number that little-endian bytes spell. -/
def leNat : List Byte → Nat
  | [] => 0
  | b :: bs => b.toNat + 256 * leNat bs

/-- `n` little-endian bytes of `v`. -/
def leBytes : Nat → Nat → List Byte
  | 0, _ => []
  | n + 1, v => BitVec.ofNat 8 v :: leBytes n (v / 256)

/-- The number that big-endian bytes spell. -/
def beNat (bs : List Byte) : Nat := leNat bs.reverse

/-- `n` big-endian bytes of `v`. -/
def beBytes (n v : Nat) : List Byte := (leBytes n v).reverse

/-- A little-endian number of `n` bytes in memory. -/
def Mem.readLe (m : Mem) (a n : Nat) : Nat := leNat (Mem.readBytes m a n)

/-- A memory with `v` written in `n` little-endian bytes. -/
def Mem.writeLe (m : Mem) (a n v : Nat) : Mem := Mem.writeBytes m a (leBytes n v)

/-- Every byte at an address from `lo` up to and not including `hi` reads 0 afterwards. -/
def Mem.zeroRange (m : Mem) (lo hi : Nat) : Mem := m.filter (fun p => !(decide (lo ≤ p.1) && decide (p.1 < hi)))

/-- A slice of bytes: `n` bytes from offset `o` of `bs`, zeros past its end. -/
def sliceBytes (bs : List Byte) (o n : Nat) : List Byte := (bs.drop o).take n ++ List.replicate (n - ((bs.drop o).take n).length) 0

/-- A sector in its full length of 4,096 bytes. -/
def fullSector (s : Sector) : List Byte := sliceBytes s 0 4096

/-- Bits [hi:lo] of a number. -/
def bitsOf (v hi lo : Nat) : Nat := v / 2 ^ lo % 2 ^ (hi + 1 - lo)

/-- Bit `i` of a number. -/
def bitOf (v i : Nat) : Bool := v.testBit i

/-- `v` with bits [hi:lo] replaced by `x`. -/
def putBits (v hi lo x : Nat) : Nat := v - bitsOf v hi lo * 2 ^ lo + x % 2 ^ (hi + 1 - lo) * 2 ^ lo

/-- 1 for true. -/
def b2n (b : Bool) : Nat := if b then 1 else 0

/-- A number limited to `m`. -/
def satTo (m v : Nat) : Nat := if v ≤ m then v else m

/-- Inserts `x` into a rising list without repeats. -/
def insertNat (x : Nat) : List Nat → List Nat
  | [] => [x]
  | y :: ys => if x = y then y :: ys else if x < y then x :: y :: ys else y :: insertNat x ys

/-- Replaces the elements of a list that `p` holds of. -/
def updateWhere {α : Type} (p : α → Bool) (g : α → α) (xs : List α) : List α := xs.map (fun x => if p x then g x else x)

/-- Replaces the element at position `i` by what `g` gives. -/
def updateAt {α : Type} (xs : List α) (i : Nat) (g : α → α) : List α :=
  match xs, i with
  | [], _ => []
  | x :: t, 0 => g x :: t
  | x :: t, n + 1 => x :: updateAt t n g

/-- The position of the first element that `p` holds of. -/
def firstIdx {α : Type} (p : α → Bool) : List α → Option Nat
  | [] => none
  | x :: t => if p x then some 0 else (firstIdx p t).map (· + 1)

/-- The element with the least key, the earliest of equals. -/
def minBy {α : Type} (key : α → Nat) : List α → Option α
  | [] => none
  | x :: t =>
    match minBy key t with
    | none => some x
    | some y => if key x ≤ key y then some x else some y

/-- The greatest number of a list, 0 for none. -/
def maxNat (xs : List Nat) : Nat := xs.foldl Nat.max 0

/-- The sum of a list. -/
def sumNat (xs : List Nat) : Nat := xs.foldl (· + ·) 0

/-- A stable insertion of `x` by key. -/
def insertBy {α : Type} (key : α → Nat) (x : α) : List α → List α
  | [] => [x]
  | y :: ys => if key x < key y then x :: y :: ys else y :: insertBy key x ys

/-- A list in rising order of key; elements of one key keep their order. -/
def sortBy {α : Type} (key : α → Nat) (xs : List α) : List α := xs.foldl (fun acc x => insertBy key x acc) []

/-- Bit length of a number below 2^64 (R480). -/
def bitLen (v : Nat) : Nat := if v = 0 then 0 else Nat.log2 v + 1

/-- `n / d` rounded up; 0 for d = 0. -/
def ceilDiv (n d : Nat) : Nat := (n + d - 1) / d

end Sys2Proof.Machine
end

