-- ==== Sys2Proof/Machine/BoomState.lean ====
section
/-! DEFINITION. The state of the Boom ports, the tree and the services. -/

namespace Sys2Proof.Machine

/-- Port states, in code order (BOOM_PORT_STAT). -/
inductive PortPhase where
  | off | train | keying | up | down | fenced
  deriving DecidableEq, Repr

/-- A state's code. -/
def PortPhase.code : PortPhase → Nat
  | .off => 0 | .train => 1 | .keying => 2 | .up => 3 | .down => 4 | .fenced => 5

/-- What a frame carries (R404, R406). -/
inductive FrameBody where
  | kx (msg frag : Nat) (bytes : List Byte)
  | idle
  | root (m : RootMsg)
  | tsync (tTx tRxe tTxe : Nat) (lock : Bool)
  | svc (m : SvcMsg)
  deriving DecidableEq, Repr

/-- A frame sent and not yet acknowledged: its counter, the slot it was sent in, and its body (R405). -/
structure SentFrame where
  ctr : Nat
  slot : Nat
  body : FrameBody
  deriving DecidableEq, Repr

/-- A Boom port. -/
structure Port where
  phase : PortPhase
  cause : Nat
  /-- Tick at which its state was entered. -/
  since : Nat
  /-- Counter of the next new frame. -/
  tx : Nat
  /-- Counter of the last frame accepted, plus one. -/
  rx : Nat
  /-- Frame slots that have passed. -/
  slot : Nat
  unacked : List SentFrame
  /-- Bodies that wait to be sent, oldest first. -/
  queue : List FrameBody
  /-- A retransmission sends from this counter on. -/
  resend : Option Nat
  /-- Tick of the last advance of ACK. -/
  ackTick : Nat
  /-- The last ROOT heard and its tick. -/
  root : Option (RootMsg × Nat)
  /-- CRC and authentication failures of the window of 125 ticks, and its start. -/
  winCrc : Nat
  winAuth : Nat
  winStart : Nat
  /-- Tick of the last fall to DOWN by CRC failures. -/
  lastCrcDown : Option Nat
  /-- SVC frames in this tick, whether some were dropped, and consecutive ticks with drops. -/
  svcTick : Nat
  svcDrop : Bool
  floodRun : Nat
  /-- Receive and transmit timestamps of the last TSYNC received. -/
  tRxe : Nat
  tTxe : Nat
  lastSync : Nat
  /-- The neighbour's SERIAL learnt in keying. -/
  peer : Nat
  /-- Keying fragments received: (message, fragment, bytes). Message 0 stands for this package's own MSG 1. -/
  kx : List (Nat × Nat × List Byte)
  deriving DecidableEq, Repr

/-- A port at reset. -/
def Port.off : Port := ⟨.off, 0, 0, 0, 0, 0, [], [], none, 0, none, 0, 0, 0, none, 0, false, 0, 0, 0, 0, 0, []⟩

/-- A service that the package takes part in (R419). OP: 0 broadcast, 1 barrier, 2 snapshot, 3 system reset. -/
structure Svc where
  op : Nat
  sid : Nat
  tick : Nat
  /-- Ports whose report is still due. -/
  due : List Nat
  /-- Tick by which the report of this package is due (R421). -/
  dueTick : Nat
  countA : Nat
  countB : Nat
  /-- The package has entered (barrier) or its own part is done. -/
  self : Bool
  timeout : Bool
  reported : Bool
  deriving DecidableEq, Repr

/-- The Boom block. -/
structure BoomState where
  ports : Tab Port
  root : Nat
  level : Nat
  parent : Option Nat
  size : Nat
  /-- 0 not joined, 1 LOCKED, 2 UNLOCKED, 3 ahead. -/
  align : Nat
  /-- Signed offset from the parent, in ns. -/
  offset : Int
  /-- A slew is due: the sign. -/
  slew : Int
  lastSlew : Nat
  /-- It has taken its parent's tick since the last reset. -/
  stepped : Bool
  /-- The last TSYNC from the parent carried LOCK = 1, and its tick. -/
  parentLock : Bool
  parentSync : Option Nat
  svcs : List Svc
  nextSid : Nat
  /-- The local request that runs: its operation, and the SID that the root gave it once it is known. -/
  request : Option (Nat × Option Nat)
  /-- SVC messages received and acted on at the next boundary: (port, none for this package's own request). -/
  inbox : List (Option Nat × SvcMsg)
  /-- SIDs of broadcasts received. -/
  seen : List Nat
  /-- Tick of an agreed system reset. -/
  resetTick : Option Nat
  /-- One more than the tick in which this package, as the root, last took a service (R418). -/
  took : Nat
  deriving DecidableEq, Repr

end Sys2Proof.Machine
end

