-- ==== Sys2Proof/Machine/BufState.lean ====
section
/-! DEFINITION. The state of the buffer pool manager and of the DDR5 controller. -/

namespace Sys2Proof.Machine

/-- What an allocated buffer is charged to (R381, R387). -/
inductive Charge where
  | shareNear | shareFar | contract | nearReserve | farReserve
  deriving DecidableEq, Repr

/-- A buffer (R381, R383, R385). `refs` 0 is a free buffer. -/
structure Buf where
  kind : Nat
  fn : Nat
  charge : Charge
  refs : Nat
  /-- Tick of its allocation. -/
  since : Nat
  dirty : Bool
  deriving DecidableEq, Repr

/-- A buffer that nothing holds. -/
def Buf.free : Buf := ⟨0, 0, .shareNear, 0, 0, false⟩

/-- The buffer pool manager. -/
structure BufState where
  /-- Buffers by handle; an unlisted handle is free. -/
  bufs : Tab Buf
  /-- Fenced owners, kind * 256 + function, rising (R389). -/
  fenced : List Nat
  /-- Oldest age and handle of each owner at the last sample (R388). -/
  sampled : Tab (Nat × Nat)
  /-- Uncorrectable near-pool words: what failed (R45). -/
  restarting : Bool
  deriving DecidableEq, Repr

/-- A request that waits at a sub-channel (R396, R397). -/
structure DramWait where
  req : DramReq
  promoted : Bool
  deriving DecidableEq, Repr

/-- A DRAM sub-channel. -/
structure SubCh where
  /-- Waiting requests in order of arrival. -/
  waiting : List DramWait
  /-- Open row of each bank; one more than the row, 0 for none (R396). -/
  openRow : Tab Nat
  /-- Postponements of each bank's refresh since it was last issued (R399). -/
  postponed : Tab Nat
  /-- Time in ns of its last command slot. -/
  now : Nat
  /-- Requests issued, newest first. -/
  issued : List DramReq
  /-- Tick of the last recalibration (R400). -/
  recal : Nat
  deriving DecidableEq, Repr

/-- A sub-channel at which nothing waits. -/
def SubCh.idle : SubCh := ⟨[], [], [], 0, [], 0⟩

/-- The DDR5 controller. -/
structure DramState where
  /-- Sub-channels m * 2 + b. -/
  subs : Tab SubCh
  /-- Rate code of MEM_STATUS.RATE, 0 untrained (R400). -/
  rate : Nat
  /-- Flush service is in force (R402). -/
  flush : Bool
  /-- Far pool and map cache sizes in force in GiB, from the carve (R393). -/
  farNow : Nat
  mapNow : Nat
  /-- Bursts that hold an error ECC cannot correct (R392), rising; a write of the whole burst ends it. -/
  poison : List Nat
  deriving DecidableEq, Repr

end Sys2Proof.Machine
end

