-- ==== Sys2Proof/Machine/CalState.lean ====
section
/-! DEFINITION. The state of the calendar master, the die calendars and the completion collector. -/

namespace Sys2Proof.Machine

/-- Kinds of calendar entries, with their codes 1-6 (R54). -/
inductive OpKind where
  | read | program | erase | suspend | resume | maint
  deriving DecidableEq, Repr

/-- On whose behalf a die works: a read of an item, of a reconstruct, of a map page or of maintenance, a program of a group's data slot or parity,
an erase of a block, a maintenance erase. -/
inductive JobOwner where
  | item (id : Nat)
  | peer (job : Nat)
  | mapFetch (page : Nat)
  | maint
  | program (grp slot : Nat)
  | parity (grp : Nat)
  | erase (die block : Nat)
  | maintErase
  deriving DecidableEq, Repr

/-- A calendar entry (R54). `tick` is the issue tick, of which SLOT shows the low 12 bits. -/
structure CalEntry where
  tick : Nat
  kind : OpKind
  cls : Nat
  nowait : Bool
  peer : Bool
  suspN : Nat
  fn : Nat
  dur : Nat
  dl : Nat
  buf : Nat
  job : Nat
  owner : JobOwner
  planes : Nat
  /-- Program mode whose figures apply. -/
  mode : Nat
  /-- Program mode figures used by CAL_MAINT: (TR, E_ISSUE, E_RUN) (R504). -/
  figures : Option (Nat × Nat × Nat)
  deriving DecidableEq, Repr

/-- Die states (R55). -/
inductive DiePhase where
  | idle | reading | runOpen | runLock | runSpent | suspending | suspended | suspReading | resuming | fenced
  deriving DecidableEq, Repr

/-- A die's state code (R55). -/
def DiePhase.code : DiePhase → Nat
  | .idle => 0 | .reading => 1 | .runOpen => 2 | .runLock => 3 | .runSpent => 4 | .suspending => 5
  | .suspended => 6 | .suspReading => 7 | .resuming => 8 | .fenced => 15

/-- The running or suspended program or erase of a die (R57). -/
structure RunningOp where
  kind : OpKind
  mode : Nat
  job : Nat
  owner : JobOwner
  planes : Nat
  issued : Nat
  /-- Booked end: the first tick after the operation. -/
  ends : Nat
  suspN : Nat
  /-- Tick in which the current suspended span began (R57). -/
  span : Nat
  /-- Its end status has been read, and its completion record was placed (R110). -/
  ended : Bool
  fn : Nat
  deriving DecidableEq, Repr

/-- A die and its calendar. -/
structure Die where
  phase : DiePhase
  /-- For a timed state, the first tick after it (R56). -/
  till : Nat
  op : Option RunningOp
  /-- The read that is running. -/
  reading : Option CalEntry
  /-- Entries in rising order of tick, at most 32 (R52). -/
  entries : List CalEntry
  /-- Ticks of NOT_READY refusals (R113). -/
  notReady : List Nat
  /-- Declared, and brought up by its channel. -/
  present : Bool
  /-- Retired by a CAUSE 5 entry (R119). -/
  retired : Bool
  /-- Next tick in which it is polled (R110). -/
  nextPoll : Nat
  deriving DecidableEq, Repr

/-- A die that nothing is booked on. -/
def Die.fresh : Die := ⟨.idle, 0, none, none, [], [], false, false, 0⟩

/-- A completion record (R81). `code` is a common status code or a channel detail code. -/
structure CplRec where
  die : Nat
  kind : OpKind
  code : Nat
  job : Nat
  time : Nat
  /-- A discarded suspend (R58). -/
  discarded : Bool
  deriving DecidableEq, Repr

/-- Where a sector of a page read stands in the decode ladder (R133). -/
structure SectJob where
  sect : Nat
  /-- Ladder step 0-4; `soft` within step 2 (R133). -/
  step : Nat
  soft : Bool
  /-- Decoded, with the status it ended with. -/
  done : Option Nat
  corrected : Nat
  /-- Tick in which its HARD decode failed (R134). -/
  hardTick : Nat
  deriving DecidableEq, Repr

/-- A job of the calendar master: a page read and its decode, a program, an erase or a maintenance operation. -/
structure CalJob where
  id : Nat
  owner : JobOwner
  die : Nat
  /-- The page's place: cord, cord block, row, member slot and plane. -/
  cord : Nat
  cblk : Nat
  row : Nat
  member : Nat
  plane : Nat
  mode : Nat
  cls : Nat
  contracted : Bool
  nowait : Bool
  fn : Nat
  accept : Nat
  deadline : Nat
  sects : List SectJob
  /-- The array read has ended and the data is in its buffer. -/
  read : Bool
  /-- Waits for its own die (R64), or for entries of the calendar to come free. -/
  waiting : Bool
  /-- Peer reads of a reconstruct, and that it is one. -/
  peers : List Nat
  recon : Bool
  /-- Array reads still owed by the ladder's step (R133). -/
  extraReads : Nat
  buf : Nat
  deriving DecidableEq, Repr

/-- A program or erase that waits to be booked (stage 4 of R59). -/
structure StartReq where
  owner : JobOwner
  die : Nat
  kind : OpKind
  mode : Nat
  planes : Nat
  fn : Nat
  /-- A cord row in the landing. -/
  landing : Bool
  /-- Its data has been transferred: a booked start that slipped (R76, R99). -/
  moved : Bool
  deriving DecidableEq, Repr

/-- A latency contract as CAL_ADMIT_REQ bound it, and its counts (R86, R301, R309). -/
structure Contract where
  cls : Nat
  q : Nat
  nowait : Bool
  modes : Nat
  t : Nat
  bindTime : Nat
  reads : Nat
  excused : Nat
  missed : Nat
  deriving DecidableEq, Repr

/-- The calendar master and the collector. -/
structure CalState where
  dies : Tab Die
  jobs : List CalJob
  nextJob : Nat
  starts : List StartReq
  /-- Ticks whose plan has committed and that have not opened (R49). -/
  committed : List Nat
  /-- The plan that runs in this tick has ended: committed or abandoned. -/
  planDone : Bool
  /-- The current tick is a hold tick. -/
  hold : Bool
  /-- Consecutive hold ticks, up to and including the current one (R79). -/
  holdRun : Nat
  /-- Shedding runs up to and not including this tick (R79). -/
  shedTill : Nat
  shedding : Bool
  restarting : Bool
  /-- Planned energy of stages 3-6 by tick (R107). -/
  energy : Tab Nat
  /-- The deepest completion queue of the tick so far (R479). -/
  deepest : Nat
  /-- Completion queues by channel, oldest first (R81). -/
  queues : Tab (List CplRec)
  /-- Records delivered to the calendar master and not yet taken. -/
  delivered : List CplRec
  /-- Channel last served (R82). -/
  ptr : Nat
  collRestarting : Bool
  /-- The booked CAL_MAINT request: job, die, EXACT (R504). -/
  maint : Option (Nat × Nat × Bool)
  /-- Bytes of program data that move to a channel's dies in a tick, by tick * 128 + channel (R99). -/
  xfer : Tab Nat
  /-- Bound contracts by package namespace index (R72, R86). -/
  contracts : Tab (Option Contract)
  deriving DecidableEq, Repr

end Sys2Proof.Machine
end

