-- ==== Sys2Proof/Machine/EnvState.lean ====
section
/-! DEFINITION. What a package is made of and declared to be: the part, its fuses, its memories, and the records of the option block (R464).

The records stand in the boot NOR, which no command of the table rewrites; a start-up reads them. -/

namespace Sys2Proof.Machine

/-- The parts of the family (R3). -/
inductive Part where
  | crn7128 | crn7128S | crn7064
  deriving DecidableEq, Repr

/-- A part descriptor of the NAND record (R101). -/
structure NandPart where
  id : List Nat
  iface : Nat
  cell : Nat
  planes : Nat
  luns : Nat
  spare : Nat
  pages : Nat
  blocks : Nat
  rateStd : Nat
  rateExt : Nat
  mark : Nat
  reserved : Nat
  deriving DecidableEq, Repr

/-- A channel entry of the NAND record (R102). -/
structure NandChan where
  part : Nat
  ceMask : Nat
  rate : Nat
  flags : Nat
  drive : Nat
  odt : Nat
  deriving DecidableEq, Repr

/-- The NAND record (R100). `energy` lists (E_ISSUE, E_RUN) by mode * 4 + kind; `chans` gives the entries of channels by number, and a channel
that it does not list has the entry `rest`. -/
structure NandRec where
  version : Nat
  grownLimit : Nat
  budget : Nat
  energy : List (Nat × Nat)
  parts : List NandPart
  chans : Tab NandChan
  rest : NandChan
  deriving DecidableEq, Repr

/-- A mode of the mode record (R465). -/
structure ModeRec where
  tr : Nat
  tsus : Nat
  tres : Nat
  smax : Nat
  lmin : Nat
  tprog : Nat
  tbers : Nat
  eallow : Nat
  deriving DecidableEq, Repr

/-- The board record and the head of the mode record (R465). -/
structure BoardRec where
  links : Nat
  dramGib : Nat
  ddrMts : Nat
  vid : Nat
  ssvid : Nat
  fnBase : List Nat
  fnCount : List Nat
  farGib : Nat
  mapGib : Nat
  patrol : Nat
  floor : Nat
  deadline : Nat
  modes : List ModeRec
  deriving DecidableEq, Repr

/-- The power record (R453). -/
structure PowerRec where
  eff : Nat
  holdMj : Nat
  capUf : Nat
  vFull : Nat
  vMin : Nat
  vinTrip : Nat
  divHold : Nat
  divVin : Nat
  pBoard : Nat
  vid : List Nat
  deriving DecidableEq, Repr

/-- The thermal record (R454). Temperatures of `thTable` are in 1/16 degC. -/
structure ThermalRec where
  amb : Nat
  tAmb : Int
  gain : Nat
  nbDelta : Nat
  tmap : List Nat
  cSi : Nat
  gAmbSi : Nat
  gNbSi : Nat
  cNand : Nat
  gAmbNand : Nat
  gNbNand : Nat
  ecoef : List Nat
  leak : List (List Nat)
  thTable : List (Nat × Int)
  deriving DecidableEq, Repr

/-- The Boom record (R410). `nb` holds 0xFFFF for a port without a neighbour. -/
structure BoomRec where
  node : Nat
  nb : List Nat
  fp : List (List Byte)
  deriving DecidableEq, Repr

/-- What never changes: the part, the fused serial number, the records of the option block, the band tables by part * 3 + mode (R139) as bytes,
and the identity certificate chain of the key store (R369). -/
structure Env where
  part : Part
  serial : Nat
  nand : NandRec
  board : BoardRec
  power : PowerRec
  thermal : ThermalRec
  boom : BoomRec
  bands : Tab (List Byte)
  chain : List Byte
  deriving DecidableEq, Repr

/-- The fuses and the OTP of the key store (R32-R35, R350, R373-R376). -/
structure Fuses where
  provisioned : Bool
  deployed : Bool
  retired : Bool
  kill : Bool
  lcCount : Nat
  nonce : Nat
  svn : List Nat
  /-- Trust anchors: 96 bytes once programmed, none before. -/
  anchors : Tab (List Byte)
  deriving DecidableEq, Repr

/-- The memories: DRAM by its aperture offset, the near pool, the warden SRAM and the boot NOR. -/
structure Memories where
  dram : Mem
  near : Mem
  sram : Mem
  nor : Mem
  deriving DecidableEq, Repr

/-- Lifecycle states, in code order (R35). -/
inductive Lifecycle where
  | blank | provisioned | deployed | hold | retired
  deriving DecidableEq, Repr

/-- The state that the fuses and the counter give (R374). -/
def Fuses.lifecycle (f : Fuses) : Lifecycle :=
  if f.retired then .retired
  else if f.deployed then (if f.lcCount % 2 = 0 then .deployed else .hold)
  else if f.provisioned then .provisioned
  else .blank

/-- The state's code in ID_LIFECYCLE.STATE (R35). -/
def Lifecycle.code : Lifecycle → Nat
  | .blank => 0 | .provisioned => 1 | .deployed => 2 | .hold => 3 | .retired => 4

/-- Regions that the part has (R3, R9). -/
def Part.regions : Part → Nat
  | .crn7064 => 2
  | _ => 4

/-- The part has squeeze lanes and a Boom block (R3, R403). -/
def Part.full : Part → Bool
  | .crn7128S => false
  | _ => true

end Sys2Proof.Machine
end

