-- ==== Sys2Proof/Machine/HostState.lean ====
section
/-! DEFINITION. The state of the functions, the host engine, its queues and commands, the namespaces and their zones. -/

namespace Sys2Proof.Machine

/-- Function states, in code order (R316). -/
inductive FnPhase where
  | disabled | enabled | resetting | paused
  deriving DecidableEq, Repr

/-- A running function reset (R326, R327). `step` is the step that has begun. -/
structure FnReset where
  cause : Nat
  squash : Bool
  /-- The function ends DISABLED. -/
  disable : Bool
  /-- A pause (R330), which runs steps 1, 2 and 4. -/
  pause : Bool
  /-- A shutdown notification (R326), which runs steps 1-4 and keeps the queues. -/
  shutdown : Bool
  started : Nat
  step : Nat
  deriving DecidableEq, Repr

/-- A submission queue (R285). Entries wait in host memory; their number is tail - head. -/
structure SQ where
  qid : Nat
  size : Nat
  head : Nat
  tail : Nat
  cqid : Nat
  /-- QPRIO: 0 urgent, 1 high, 2 medium, 3 low. -/
  prio : Nat
  deriving DecidableEq, Repr

/-- A completion queue entry (R290). -/
structure Cqe where
  sq : Nat
  cid : Nat
  sct : Nat
  sc : Nat
  dnr : Bool
  dw0 : Nat
  dw1 : Nat
  deriving DecidableEq, Repr

/-- A completion queue. `entries` are those posted and not yet passed by the host's head doorbell, oldest first. -/
structure CQ where
  qid : Nat
  size : Nat
  head : Nat
  iv : Nat
  ien : Bool
  entries : List Cqe
  deriving DecidableEq, Repr

/-- Feature values of one function that its host sets (R286, R310). -/
structure FnFeatures where
  ab : Nat
  lpw : Nat
  mpw : Nat
  hpw : Nat
  nsq : Nat
  ncq : Nat
  /-- CC.AMS 001b is in force. -/
  wrr : Bool
  power : Nat
  apste : Bool
  apst : List (Nat × Nat)
  aerMask : Nat
  temp : Nat
  vectorCfg : Tab Nat
  /-- Interrupt coalescing (feature 0x08). -/
  coal : Nat
  deriving DecidableEq, Repr

/-- The values that the features hold after reset (R286, R427). -/
def FnFeatures.reset : FnFeatures := ⟨3, 0, 3, 7, 0, 0, false, 0, false, [], 0, 0, [], 0⟩

/-- A function (R316). -/
structure Fn where
  phase : FnPhase
  link : Nat
  /-- VF number on its link, 0 for the PF. -/
  vf : Nat
  /-- Its presence conditions hold (R317). -/
  present : Bool
  /-- Disabled by warden firmware (R317). -/
  fwDisabled : Bool
  cause : Nat
  cfs : Bool
  rdy : Bool
  /-- CSTS.SHST. -/
  shst : Nat
  ccEn : Bool
  balance : Int
  /-- The balance is set to the share at the next boundary (R324). -/
  freshBalance : Bool
  /-- Fetching restarts at the next boundary (R324, R330). -/
  fetchHold : Bool
  reset : Option FnReset
  sqs : List SQ
  cqs : List CQ
  /-- Remaining credit of the classes high, medium and low (R286). -/
  credit : List Nat
  /-- Round robin: the last queue served in each of urgent, high, medium, low. -/
  lastQ : List Nat
  feat : FnFeatures
  /-- Outstanding Asynchronous Event Requests, oldest first. -/
  aers : List Cmd
  /-- Asynchronous events not yet reported: (type, information). -/
  events : List (Nat × Nat)
  /-- ATS Enable (R337). -/
  ats : Bool
  /-- Log 0xC1 entries, newest first (R304): (NSID, lost sectors, ZSLBA, first lost LBA, time). -/
  logC1 : List (Nat × Nat × Nat × Nat × Nat)
  /-- Contract state byte of log 0xC1's header (R301). -/
  contractLost : Bool
  deriving DecidableEq, Repr

/-- A function that is not presented. -/
def Fn.absent : Fn :=
  ⟨.disabled, 0, 0, false, false, 0, false, false, 0, false, 0, false, false, none, [], [], [0, 0, 0], [0, 0, 0, 0],
    FnFeatures.reset, [], [], false, [], false⟩

/-- The shares in force (R320). -/
structure Shares where
  qp : Nat
  oz : Nat
  az : Nat
  ns : Nat
  tok : Nat
  near : Nat
  far : Nat
  ftu : Nat
  deriving DecidableEq, Repr

/-- The shares at E = 0 (R319). -/
def Shares.none : Shares := ⟨0, 0, 0, 0, 0, 0, 0, 0⟩

/-- A dirty-page logging slot (R331-R335). -/
structure DlogSlot where
  active : Bool
  fn : Nat
  ovf : Bool
  tail : Nat
  /-- Pages in the epoch's filter, rising; at most 65,536 (R333). -/
  filter : List Nat
  cutPending : Bool
  cutDone : Bool
  cutIdx : Nat
  status : Nat
  deriving DecidableEq, Repr

/-- A slot that has never logged. -/
def DlogSlot.idle : DlogSlot := ⟨false, 0, false, 0, [], false, false, 0, 0⟩

/-- An entry of the translation cache, least recently used first in its list (R336). -/
structure FtuEntry where
  fn : Nat
  pasid : Option Nat
  page : Nat
  /-- Translated page; none for an untranslated-only entry (R337). -/
  target : Option Nat
  deriving DecidableEq, Repr

/-- A translation request that waits for its completion (R337). -/
structure FtuReq where
  id : Nat
  fn : Nat
  pasid : Option Nat
  page : Nat
  cmd : Option Cmd
  since : Nat
  /-- An invalidation met it: its answer is not stored (R338). -/
  noStore : Bool
  deriving DecidableEq, Repr

/-- The function table. -/
structure FnState where
  fns : Tab Fn
  shares : Shares
  /-- E changed: shares are recomputed at the next boundary (R319). -/
  sharesDue : Bool
  /-- The last function served by a fetch decision (R286). -/
  lastFn : Nat
  /-- Commands fetched in this tick (R286). -/
  fetched : Nat
  dlog : List DlogSlot
  /-- Records on their way to DRAM: offset and word; empty between commands (R331). -/
  dlogOut : List (Nat × Nat)
  ftu : List FtuEntry
  ftuReqs : List FtuReq
  ftuNext : Nat
  /-- FN_CMD on a function runs until the reset or pause ends: its function. -/
  cmdRunning : Option Nat
  deriving DecidableEq, Repr

/-- Zone states (R292). -/
inductive ZState where
  | empty | impOpen | expOpen | closed | full
  deriving DecidableEq, Repr

/-- A host zone (R292-R298, R303, R360-R363). -/
structure Zone where
  state : ZState
  /-- Write pointer, in sectors from ZSLBA. -/
  wp : Nat
  /-- Sectors assigned to commands accepted so far, from ZSLBA (R298). -/
  assigned : Nat
  /-- The chain code fixed at the first write (R219); none before. -/
  chain : Option Nat
  evid : Bool
  /-- Tags of the zone and whether they overflowed (R209). -/
  tags : List Nat
  tagOvf : Bool
  /-- The first-write item has been taken and not yet resolved (R219). -/
  firstBusy : Bool
  /-- Tick of the last write, for R294. -/
  lastWrite : Nat
  /-- Cord blocks of each lane, splices in order: (cord, cord block, first group). -/
  lanes : List (List (Nat × Nat × Nat))
  /-- Unreadable sectors (R163), and the sector from which all are unreadable. -/
  lost : List Nat
  lostFrom : Option Nat
  /-- PARITY_LOST is set (R163, R303), with the tick of the loss. -/
  parityLost : Option Nat
  /-- The running hash: leaves folded, and the number of sectors they cover (R361). -/
  fold : List Byte
  folded : Nat
  /-- Leaves delivered out of order, by sector (R361). -/
  leaves : Tab (List Byte)
  /-- SEQ of the zone's seal record once it is in the landing (R362). -/
  sealed : Option Nat
  /-- A release has been accepted (R297, R372). -/
  released : Bool
  /-- Full, waiting for its seal record (R362). -/
  sealDue : Bool
  firstTick : Nat
  deriving DecidableEq, Repr

/-- A zone that holds nothing. -/
def Zone.fresh : Zone := ⟨.empty, 0, 0, none, false, [], false, false, 0, [], [], none, none, [], 0, [], none, false, false, 0⟩

/-- An ownership move (R284). -/
structure Move where
  since : Nat
  cmd : Option Cmd
  deriving DecidableEq, Repr

/-- A namespace (R283, R299-R301, R322). -/
structure Ns where
  zoned : Bool
  mode : Nat
  /-- Lanes of a zone (R169). -/
  w : Nat
  /-- Size in sectors. -/
  size : Nat
  zcap : Nat
  zsze : Nat
  creator : Nat
  owner : Option Nat
  standby : Option Nat
  /-- Reclaim unit handles of its placement handles (R299). -/
  handles : List Nat
  /-- No-wait for best-effort reads (R301). -/
  nowait : Bool
  /-- CDW11 of the saved read contract (R301). -/
  saved : Option Nat
  refusedAtStart : Bool
  /-- PARITY_LOST of a conventional namespace (R303). -/
  parityLost : Option Nat
  move : Option Move
  zones : Tab Zone
  /-- The Changed Zone List: zones that padding moved, rising (R296). -/
  changed : List Nat
  /-- Tick of the owner link's loss, for R284. -/
  part : Nat
  deriving DecidableEq, Repr

/-- Where an item stands on its way through the data path. -/
inductive Stage where
  /-- In the host engine: waiting for depth q, a map fetch, a first write or admission. -/
  | waiting
  /-- A write item that waits for its Kerf invocation, or a read item for its read-side ones: entry of the program. -/
  | kerf (entry : Nat)
  /-- An invocation holds it. -/
  | running (core : Nat)
  /-- In the transform lanes: stages left. -/
  | lanes
  /-- A write item whose transforms are done and that waits for its place in the landing. -/
  | placing
  /-- A read item whose codewords are being read. -/
  | flash
  | done
  deriving DecidableEq, Repr

/-- What a Kerf program asked of an item (R203, R206). -/
structure ItemFx where
  shuf : Option Nat
  sqz : Option Nat
  xts : Option Nat
  hash : Bool
  evid : Bool
  undo : Bool
  fail : Option Nat
  tags : List Nat
  adds : List (Nat × Nat)
  emits : List (List Byte)
  deriving DecidableEq, Repr

/-- No effects. -/
def ItemFx.none : ItemFx := ⟨.none, .none, .none, false, false, false, .none, [], [], []⟩

/-- An item: up to 16 sectors of one command (R192). -/
structure Item where
  id : Nat
  cmd : Cmd
  write : Bool
  append : Bool
  nsx : Nat
  ltag : Nat
  nsect : Nat
  ph : Nat
  first : Bool
  zoned : Bool
  evid : Bool
  contracted : Bool
  nowait : Bool
  chain : Nat
  tags : List Nat
  /-- Sector data: of a write as received, then as transformed; of a read as decoded, then as reversed. -/
  data : List Sector
  fx : ItemFx
  stage : Stage
  /-- Portions of the current lane stage still to run, in bytes, and the stages after it (R245). -/
  laneLeft : List (Nat × Nat)
  /-- First tick in which its current stage may run (R245). -/
  laneFrom : Nat
  /-- Region whose lanes run its stages, and the lane of the current stage (R245, R247). -/
  region : Nat
  lane : Option Nat
  /-- Cluster of the first page read from flash (R191). -/
  cluster : Nat
  /-- A packed extent (R261): first sector and logical sectors. -/
  pack : Option (Nat × Nat)
  buffers : List Nat
  status : Nat
  block : Nat
  reason : Nat
  hint : Nat
  accept : Nat
  deadline : Nat
  jobs : List Nat
  /-- A read: the place in flash that each sector, or each stored sector of a packed extent, is read from. -/
  places : List (Option Loc)
  /-- A read: sectors that failed, with block and code (R289, R290). -/
  fails : List (Nat × Nat × Nat)
  /-- Its leaf digests wait for its placement (R251). -/
  leaves : List (List Byte)
  /-- A fault excuses its deadline, and the hold ticks that its reads slipped by (R74, R75). -/
  excused : Bool
  slips : Nat
  /-- Sectors that read as zeros whatever the chain (R295, R159). -/
  pads : List Nat
  deriving DecidableEq, Repr

/-- A command in the host engine (R288, R289). -/
structure Pend where
  cmd : Cmd
  write : Bool
  nsx : Nat
  slba : Nat
  nlb : Nat
  items : List Nat
  /-- Append: the assigned LBA for DW0-DW1 (R298). -/
  assigned : Option Nat
  accepted : Nat
  /-- A zoned write stopped at a failed item (R288). -/
  stopped : Bool
  deriving DecidableEq, Repr

/-- A zone management command that waits for the writes accepted before it (R297, R361). `op`: 1 open, 2 close, 3 finish, 4 reset. `seq` is the number of
the next item at its acceptance. -/
structure ZoneOp where
  cmd : Cmd
  op : Nat
  nsx : Nat
  zones : List Nat
  all : Bool
  seq : Nat
  deriving DecidableEq, Repr

/-- A host link (R277-R281). -/
structure Link where
  /-- 0 down, 1 training, 2 up, 3 disabled. -/
  state : Nat
  speed : Nat
  width : Nat
  vfEnable : Bool
  numVfs : Nat
  downSince : Option Nat
  deriving DecidableEq, Repr

/-- A link that has not trained. -/
def Link.down : Link := ⟨0, 0, 0, false, 0, none⟩

/-- The progress record of sanitize and format (R313). -/
structure Progress where
  action : Nat
  state : Nat
  nsx : Nat
  total : Nat
  done : Nat
  start : Nat
  seq : Nat
  /-- Erase failures of the current unit (R312). -/
  fails : Nat
  /-- The command to complete at the end of a format. -/
  cmd : Option Cmd
  /-- Namespaces of a format. -/
  nss : List Nat
  deriving DecidableEq, Repr

/-- The host engine. -/
structure HostState where
  links : List Link
  nss : Tab (Option Ns)
  items : List Item
  cmds : List Pend
  nextItem : Nat
  zoneOps : List ZoneOp
  fdp : Bool
  progress : Progress
  /-- Admin commands with WP1, oldest first (R305), and replies not yet posted. -/
  admin : List Cmd
  replies : List (Nat × Cqe)
  /-- Firmware pieces received: (offset, length), rising (R311). -/
  fwPieces : List (Nat × Nat)
  fwActive : Nat
  fwSlots : List Nat
  /-- Emit rings by function: records, read index, drop count (R210, R308). -/
  emit : Tab (List (List Byte) × Nat × Nat)
  /-- Payloads last returned to a host by an admin command: function and bytes. -/
  reply : Nat × List Byte
  deriving DecidableEq, Repr

end Sys2Proof.Machine
end

