-- ==== Sys2Proof/Machine/KerfState.lean ====
section
/-! DEFINITION. The state of the Kerf cores, the program store, the bindings, the warden pairs and the mailboxes. -/

namespace Sys2Proof.Machine

/-- A running loop: first and last position of its body, iterations in all, and the index of the current one (R201). -/
structure KLoop where
  first : Nat
  last : Nat
  count : Nat
  index : Nat
  deriving DecidableEq, Repr

/-- What the core and an invocation share: registers, predicates, the V flag, position and running loops (R189, R190, R220).
`pc` counts instructions on a data core and bytes on a warden core. `loops` lists the innermost first. -/
structure KCore where
  k : List Dword
  p : List Bool
  v : Bool
  pc : Nat
  loops : List KLoop
  deriving DecidableEq, Repr

/-- All registers 0, predicates 1-3 false, V 0 (R189). -/
def KCore.fresh (pc : Nat) : KCore := ⟨List.replicate 16 0, [true, false, false, false], false, pc, []⟩

/-- An invocation on a data-profile core (R191-R197). -/
structure Invocation where
  slot : Nat
  /-- 0 write, 1 read, 2 completion. -/
  entry : Nat
  items : List Nat
  bind : Option Nat
  /-- Timestamp of dispatch. -/
  time : Nat
  cycles : Nat
  scratch : Mem
  /-- The item table and the binding state as they were at dispatch (R195). -/
  table : List Byte
  snap : List Byte
  fx : List ItemFx
  /-- State adds in program order: (offset, value) (R208). -/
  adds : List (Nat × Dword)
  /-- Emit records in program order: (item index, 24 bytes) (R210). -/
  emits : List (Nat × List Byte)
  deriving DecidableEq, Repr

/-- A data-profile core: 0-31 of the clusters, 32-39 of the hub. -/
structure DataCore where
  core : KCore
  inv : Option Invocation
  fenced : Bool
  /-- Hub core 7: clusters whose invocations it has taken over (R45). -/
  covers : List Nat
  deriving DecidableEq, Repr

/-- A core at rest. -/
def DataCore.idle : DataCore := ⟨KCore.fresh 0, none, false, []⟩

/-- An installed program (R211, R214). -/
structure Program where
  words : List Nat
  consts : List Byte
  /-- Entries: write, read, completion; 0xFFFF for none. -/
  entries : List Nat
  batch : Nat
  types : Nat
  schain : Nat
  effects : Nat
  wmax : Nat
  draining : Bool
  deriving DecidableEq, Repr

/-- A binding (R215, R217). -/
structure Binding where
  nsx : Nat
  ph : Nat
  slot : Nat
  /-- The committed state of 256 bytes. -/
  state : List Byte
  /-- Unbound, waiting for its last invocation (R217). -/
  draining : Bool
  deriving DecidableEq, Repr

/-- A bind or unbind that takes effect at the next boundary (R217). -/
structure BindChange where
  nsx : Nat
  ph : Nat
  slot : Option Nat
  index : Nat
  deriving DecidableEq, Repr

/-- The control registers of a warden core that are banked by world (R224), and those that are not. -/
structure WardenCore where
  core : KCore
  /-- Secure world. -/
  secure : Bool
  /-- Thread level; handler level otherwise. -/
  thread : Bool
  /-- Control registers by number; a normal-world copy at 0x1000 + number (R224). -/
  csr : Tab Dword
  halted : Bool
  waiting : Bool
  fenced : Bool
  /-- Tick of the last heartbeat (R234). -/
  beat : Nat
  /-- The registers k1-k15, predicates and V saved in the secure shadow (R228). -/
  shadow : List Dword × List Bool × Bool
  /-- It took a double trap (R229), for R235. -/
  doubleTrap : Bool
  deriving DecidableEq, Repr

/-- A mailbox buffer (R238-R241). -/
structure MbxSlot where
  /-- 0 free, 1 held, 2 pending, 3 taken. -/
  state : Nat
  /-- The core that holds it, for HELD and TAKEN. -/
  owner : Nat
  /-- It belongs to the host share. -/
  host : Bool
  bytes : List Byte
  deriving DecidableEq, Repr

/-- A post of a warden core that its pair's next commit releases (R238): the core, the destination, the slot reserved there (none for the host engine and
the management endpoint) and the message. -/
structure HeldPost where
  core : Nat
  dst : Nat
  slot : Option Nat
  bytes : List Byte
  deriving DecidableEq, Repr

/-- A mirror copy of a pair (R232). -/
structure MirrorCopy where
  valid : Bool
  gen : Nat
  /-- The mirrored bytes, by offset in the working region. -/
  image : Mem
  deriving DecidableEq, Repr

/-- A warden pair (R22, R232-R237). -/
structure Pair where
  /-- Which of the pair's cores is active: 0 or 1. -/
  active : Nat
  committing : Bool
  copy0 : MirrorCopy
  copy1 : MirrorCopy
  gen : Nat
  takeover : Bool
  noState : Bool
  mbx : List MbxSlot
  /-- Slots pending for the pair, oldest first. -/
  queue : List Nat
  /-- Slots taken since the pair's last commit, in the order taken. -/
  taken : List Nat
  deriving DecidableEq, Repr

/-- The Kerf cores, programs, bindings, wardens and mailboxes. -/
structure KerfState where
  cores : Tab DataCore
  slots : Tab (Option Program)
  /-- Bindings by index (R215). -/
  binds : Tab (Option Binding)
  changes : List BindChange
  /-- A load or unload runs: the slot that drains (R214). -/
  unloading : Option Nat
  wardens : Tab WardenCore
  pairs : List Pair
  /-- Held posts in post order. -/
  held : List HeldPost
  deriving DecidableEq, Repr

end Sys2Proof.Machine
end

