-- ==== Sys2Proof/Machine/MapState.lean ====
section
/-! DEFINITION. The state of the mapping engine, the flash contents, the channel engines and the decoder complexes. -/

namespace Sys2Proof.Machine

/-- A stored sector with its codeword's tags (R125). -/
structure Stored where
  data : Sector
  ltag : Nat
  nsx : Nat
  fn : Nat
  /-- FLAGS: bit 0 pad, bit 1 refuge, bit 2 map page. -/
  flags : Nat
  ptick : Nat
  deriving DecidableEq, Repr

/-- A sector place that holds nothing. -/
def Stored.none : Stored := ⟨[], 0, 0, 0, 0, 0⟩

/-- A cord (R150). -/
structure Cord where
  id : Nat
  part : Nat
  members : List Nat
  degraded : Bool
  retired : Bool
  deriving DecidableEq, Repr

/-- A block of a die (R152): erased by the mapping engine, its erase count, and in use by a cord block. -/
structure Blk where
  erased : Bool
  erases : Nat
  inUse : Bool
  deriving DecidableEq, Repr

/-- A block of which nothing is listed: the mapping engine has erased it once, before its first use (R152). -/
def Blk.fresh : Blk := ⟨true, 1, false⟩

/-- What a cord block serves (R152, R156, R181). -/
inductive CbClass where
  | refuge | map | journal | seal | host | gc
  deriving DecidableEq, Repr

/-- A cord block (R152). -/
structure CordBlk where
  cord : Nat
  idx : Nat
  /-- Die and block of each member slot. -/
  members : List (Nat × Nat)
  /-- Program mode: 0 SLC, 1 TLC, 2 QLC. -/
  mode : Nat
  cls : CbClass
  nsx : Nat
  zone : Nat
  lane : Nat
  handle : Nat
  evid : Bool
  /-- Groups opened so far, from 0. -/
  groups : Nat
  /-- Rows closed so far. -/
  closed : Nat
  /-- It takes no further rows (R161). -/
  stopped : Bool
  /-- Tick in which its last row closed, and the tick of its rows' program (R140). -/
  closeTick : Nat
  progTick : Nat
  deriving DecidableEq, Repr

/-- A data page of an open group (R157): its place, its landing buffer, whose sectors it holds (R323) and how many of its four it has received. -/
structure GPage where
  row : Nat
  slot : Nat
  plane : Nat
  buf : Nat
  nsx : Nat
  fill : Nat
  passed : Bool
  pad : Bool
  deriving DecidableEq, Repr

/-- Group states before CLOSED (R157). -/
inductive GPhase where
  | filling | data | parity
  deriving DecidableEq, Repr

/-- A wordline group whose rows are open (R157). -/
structure Group where
  id : Nat
  cord : Nat
  cblk : Nat
  /-- Group number in its cord block. -/
  g : Nat
  cls : CbClass
  phase : GPhase
  /-- Tick in which it began to fill. -/
  since : Nat
  rpw : Nat
  planes : Nat
  mode : Nat
  fn : Nat
  nsx : Nat
  /-- Zone and lane, for a zoned namespace. -/
  zone : Option (Nat × Nat)
  handle : Nat
  pages : List GPage
  /-- Running parity buffers by row * planes + plane, of the row planes whose first page has arrived. -/
  parity : List Nat
  /-- Pages that are lost and being rebuilt, or that PARITY_LOST has taken: (row, slot or none for parity, plane). -/
  lost : List (Nat × Option Nat × Nat)
  /-- Rows that took PARITY_LOST (R163). -/
  plRows : List Nat
  /-- Member slots whose program has passed; slot 16 stands for the parity program. -/
  passed : List Nat
  /-- It waits to be placed again (R161). -/
  replace : Bool
  /-- Tick of the issue of its first program. -/
  prog : Nat
  deriving DecidableEq, Repr

/-- An entry of the grown table (R117), and whether both flash copies hold it (R118). -/
structure Grown where
  die : Nat
  planes : Nat
  cause : Nat
  block : Nat
  time : Nat
  inFlash : Bool
  deriving DecidableEq, Repr

/-- States of a cache slot (R175). -/
inductive CSlot where
  | free | fetching | clean | dirty | writing
  deriving DecidableEq, Repr

/-- The cache slot of a map page (R175). -/
structure MapSlot where
  state : CSlot
  pin : Bool
  lookups : Nat
  /-- Entry changes held while it is FETCHING, oldest first: (index, entry). -/
  held : List (Nat × Nat)
  /-- The page has been read from flash while it is FETCHING. -/
  read : Bool
  deriving DecidableEq, Repr

/-- A page without a cache slot. -/
def MapSlot.free : MapSlot := ⟨.free, false, 0, [], false⟩

/-- A cord block queued for refresh or relocation (R184): reason code 3 relocation, 4 TAG, 3 UNCORR, 2 STEP, 1 CORR, 0 age as priority. -/
structure Refresh where
  prio : Nat
  cord : Nat
  cblk : Nat
  /-- A reason was UNCORR or TAG: closed rows move before the others close (R186). -/
  urgent : Bool
  /-- Blocks whose reason was UNCORR, with their plane: they are retired after the move (R146). -/
  retire : List (Nat × Nat × Nat)
  deriving DecidableEq, Repr

/-- A page of the refuge with its origin (R440, R441). -/
structure RefugePage where
  kind : Nat
  grp : Nat
  page : GPage
  sectors : List Stored
  time : Nat
  /-- The flush did not write it: power fell first. -/
  lost : Bool
  deriving DecidableEq, Repr

/-- The mapping engine and the contents of the flash. -/
structure MapState where
  cords : List Cord
  /-- Dies set aside as spares, rising. -/
  spares : List Nat
  /-- Factory-marked blocks, die * 65536 + block, rising (R116). -/
  factory : List Nat
  grown : List Grown
  blocks : Tab Blk
  cblks : List CordBlk
  nextCblk : Tab Nat
  groups : List Group
  nextGroup : Nat
  /-- Sectors of landing buffers, by handle * 4 + sector. -/
  landing : Tab Stored
  /-- Sectors in closed or passed flash pages, by place (encodeLoc). -/
  flash : Tab Stored
  /-- Map entries (R173) by namespace index * 2^40 + sector. -/
  entries : Tab Nat
  /-- Packed-extent index (R262) by namespace index * 2^40 + first sector: (NSECT, map entry, stored sectors, chain). -/
  packed : Tab (Nat × Nat × Nat × Nat)
  /-- The map directory: the place of the first sector of each map page that has been written back (R173). -/
  dir : Tab Nat
  /-- Cache slots by map page: namespace index * 2^29 + page. -/
  slots : Tab MapSlot
  /-- Journal records in the landing: (key of the entry, new entry). -/
  journal : List (Nat × Nat)
  /-- Items in the miss queue, with the map page they wait for (R175). -/
  missq : List (Nat × Nat)
  /-- Pinned namespaces, rising (R177). -/
  pinned : List Nat
  refresh : List Refresh
  /-- A BBT operation runs: the entry that waits for a relocation (R187). -/
  bbtWait : Option Grown
  /-- Full-table mode is running (R179). -/
  full : Bool
  formed : Bool
  /-- MARK held in both copies, and the SEQ of the newest (R469). -/
  mark : Nat
  markSeq : Nat
  refuge : List RefugePage
  /-- The refuge is in flash and has not been erased (R461). -/
  refugeHeld : Bool
  /-- The timestamp of the trigger that the manifests hold (R441). -/
  refugeTime : Nat
  /-- Host groups opened in each cord since its last GC group (R183). -/
  ratio : Tab Nat
  /-- First-sample scans done and patrols, by cord * 65536 + cord block: the tick (R148). -/
  sampled : Tab Nat
  deriving DecidableEq, Repr

/-- Channel engine states, in code order (R88). -/
inductive ChPhase where
  | off | bringup | running | fenced
  deriving DecidableEq, Repr

/-- A state's code. -/
def ChPhase.code : ChPhase → Nat
  | .off => 0 | .bringup => 1 | .running => 2 | .fenced => 3

/-- A channel engine. -/
structure Chan where
  phase : ChPhase
  detail : Nat
  ceFenced : Nat
  rateNow : Nat
  extNow : Bool
  /-- Tick of CH_CTRL.START. -/
  started : Nat
  /-- Chip enable of the next tracking step (R94). -/
  track : Nat
  /-- Centre code and eye by CH_DSK_SEL selector (R91, R94). -/
  eyes : Tab (Nat × Nat)
  deriving DecidableEq, Repr

/-- An engine at rest. -/
def Chan.off : Chan := ⟨.off, 0, 0, 0, false, 0, 0, []⟩

/-- An entry of a rewrite queue (R143, R144). -/
structure Rewrite where
  die : Nat
  block : Nat
  plane : Nat
  reason : Nat
  step : Nat
  maxCorr : Nat
  deriving DecidableEq, Repr

/-- A decoder complex. -/
structure Dec where
  queue : List Rewrite
  /-- Staging copy of the band tables, by word of DEC_BT. -/
  stage : Tab Word
  /-- Committed copy. -/
  band : Tab Word
  fenced : Bool
  /-- The last tick in which the soft lane decoded, and the soft slots taken in it (R129). -/
  softTick : Nat
  softUsed : Nat
  deriving DecidableEq, Repr

/-- A complex at reset. -/
def Dec.fresh : Dec := ⟨[], [], [], false, 0, 0⟩

/-- The channel engines and the decoder complexes. -/
structure FlashState where
  chans : Tab Chan
  decs : Tab Dec
  deriving DecidableEq, Repr

end Sys2Proof.Machine
end

