-- ==== Sys2Proof/Machine/ObsState.lean ====
section
/-! DEFINITION. The state of the register file, the events, the fault log and the Tally recorder. -/

namespace Sys2Proof.Machine

/-- The register file: copies in force and staging copies (R21), 64-bit holding copies (R30), commits that wait for the boundary. -/
structure Regs where
  /-- Words in force. An unlisted address holds its register's reset word. -/
  cur : Tab Word
  /-- Staging copies of words with staged fields. An unlisted address holds its reset word. -/
  stg : Tab Word
  /-- High words latched by reads, by accessor * 2^32 + address of the low word (R30). -/
  rdHold : Tab (Option Word)
  /-- High words held by writes, keyed alike. -/
  wrHold : Tab (Option Word)
  /-- Committed groups with the staging copies they commit (R21). -/
  commits : List (CommitBlk × Tab Word)
  deriving DecidableEq, Repr

/-- An entry of the fault log (R474). -/
structure LogEntry where
  time : Nat
  event : Nat
  code : Nat
  warm : Bool
  repeats : Nat
  fn : Nat
  arg0 : Nat
  lastDt : Nat
  arg1 : Nat
  deriving DecidableEq, Repr

/-- What one Tally set has accumulated in the current period (R479, R480). -/
structure TallyAcc where
  count : Nat
  sum : Nat
  min : Nat
  max : Nat
  minT : Nat
  maxT : Nat
  hist : List Nat
  aux : List Nat
  sat : Bool
  deriving DecidableEq, Repr

/-- A set that has received nothing. -/
def TallyAcc.empty : TallyAcc := ⟨0, 0, 0, 0, 0, 0, [0, 0, 0, 0, 0, 0, 0, 0], [0, 0, 0, 0], false⟩

/-- Events, fault log and Tally recorder. -/
structure Obs where
  /-- Pending events, rising (R472). Event 300 stands in `pend300`. -/
  pend : List Nat
  /-- Events in service, rising (R477). -/
  inService : List Nat
  /-- Warden cores on which event 300 is pending, rising (R471). -/
  pend300 : List Nat
  /-- Warden cores on which event 300 is in service, rising (R471). -/
  serv300 : List Nat
  /-- Raises of each event since IRQ_CNT was last read for it (R472). -/
  raises : Tab Nat
  /-- Held entries of the fault log, oldest first (R474). -/
  log : List LogEntry
  /-- Ring slot of the oldest entry. -/
  logHead : Nat
  /-- Accumulators of the Tally sets. -/
  tally : Tab TallyAcc
  /-- Timestamp of the period's opening boundary (R480). -/
  tallyStart : Nat
  /-- Tick at whose opening boundary the period closes. -/
  tallyEnd : Nat
  /-- Records held, in order: each the 16 words of R480. -/
  store : List (List Nat)
  /-- RESTART was written and takes effect at the next boundary (R481). -/
  restart : Bool
  /-- MSI-X vectors that the host has unmasked: (function, vector). A vector resets masked (log entry 43). -/
  unmasked : List (Nat × Nat)
  /-- MSI-X vectors whose PBA bit is set: (function, vector) (R478). -/
  pba : List (Nat × Nat)
  /-- MSI-X messages sent, newest first: (function, vector). -/
  msix : List (Nat × Nat)
  deriving DecidableEq, Repr

/-- The answer that the last control-space access gave: its data word, and the common status code (R36). -/
structure BusResp where
  data : Word
  status : Nat
  deriving DecidableEq, Repr

end Sys2Proof.Machine
end

