-- ==== Sys2Proof/Machine/PowState.lean ====
section
/-! DEFINITION. The state of the power manager, the thermal model, the rail ADC and the reset unit. -/

namespace Sys2Proof.Machine

/-- Phases of the package state, in code order (PMU_STATUS.PHASE). -/
inductive PsPhase where
  | steady | entering | exiting | flushing
  deriving DecidableEq, Repr

/-- A phase's code. -/
def PsPhase.code : PsPhase → Nat
  | .steady => 0 | .entering => 1 | .exiting => 2 | .flushing => 3

/-- A change of DVFS point (R435): the new point; it waits for the voltage, or takes effect at the boundary of a tick. -/
structure Dvfs where
  point : Nat
  old : Nat
  /-- None: a raise whose rail has not settled. -/
  effect : Option Nat
  started : Nat
  deriving DecidableEq, Repr

/-- A landing flush (R439, R440). -/
structure Flush where
  cause : Nat
  started : Nat
  written : Nat
  deriving DecidableEq, Repr

/-- The power manager. -/
structure PmuState where
  ps : Nat
  phase : PsPhase
  target : Nat
  /-- The state that an entry left, or the operational state below PS3 and PS4. -/
  left : Nat
  /-- The point set through PMU_REQ OP 1. -/
  ceiling : Nat
  /-- The thermal ceiling (R450). -/
  thermal : Nat
  point : Nat
  dvfs : Option Dvfs
  vid : Nat
  idle : Nat
  entryTick : Nat
  commitDone : Bool
  wakeTime : Nat
  wakePending : Bool
  flush : Option Flush
  short : Bool
  /-- Consecutive ticks for which E_MEAS has stood at 1.05 * E_REQ (R444). -/
  shortOk : Nat
  emeas : Nat
  vholdOver : Bool
  capRun : Nat
  refLost : Bool
  refOk : Nat
  /-- Power state requests of the PFs, by function (R426). -/
  requests : Tab Nat
  /-- The hub PLL failed twice: only a power-on reset leaves reset (R434). -/
  pllHeld : Bool
  retried : Bool
  /-- The PMU_REQ request that runs: its OP and ARG. -/
  req : Option (Nat × Nat)
  /-- Warden pairs that have completed a mirror commit since the last event 300, rising (R430). -/
  commits : List Nat
  /-- PLN_N or VIN has not recovered (R445). -/
  pwrLow : Bool
  /-- A doorbell, an admin command or an NVMe-MI request arrived in this tick (R427). -/
  busy : Bool
  deriving DecidableEq, Repr

/-- A sensor (R448, R449). -/
structure Sensor where
  val : Int
  seen : Bool
  suspect : Bool
  disagree : Nat
  deriving DecidableEq, Repr

/-- A sensor without a reading. -/
def Sensor.fresh : Sensor := ⟨0, false, false, 0⟩

/-- An input of the rail ADC (R451, R452). -/
structure Adc where
  code : Nat
  valid : Bool
  stale : Bool
  outRun : Nat
  deriving DecidableEq, Repr

/-- An input that has not been sampled. -/
def Adc.fresh : Adc := ⟨0, false, false, 0⟩

/-- The thermal model. -/
structure ThmState where
  /-- Node temperatures by region * 40 + node, in 1/65,536 degC (R446). -/
  nodes : Tab Int
  /-- Cluster sensors 0-31, thermistors 32-47. -/
  sensors : Tab Sensor
  adc : Tab Adc
  tAmb : Int
  /-- The thermal budget falls short of CAL_NRG_BUDGET by this (R450). -/
  cut : Nat
  trip : Bool
  /-- Consecutive thermal steps with every silicon node cool (R450). -/
  cool : Nat
  /-- The first tick in which the NAND nodes have not yet been updated (R447). -/
  nandTick : Nat
  deriving DecidableEq, Repr

/-- Phases of the reset unit (RCU_STATUS.PHASE). -/
inductive RcuPhase where
  | inReset | starting | ready | hold | bootFail
  deriving DecidableEq, Repr

/-- A phase's code. -/
def RcuPhase.code : RcuPhase → Nat
  | .inReset => 0 | .starting => 1 | .ready => 6 | .hold => 7 | .bootFail => 8

/-- The reset unit. `step` of a running reset counts the steps of R459. -/
structure RcuState where
  phase : RcuPhase
  /-- Kind of the running reset: 0 power-on, 1 warm, 2 lifecycle. -/
  kind : Nat
  /-- Cause of the last reset (R455). -/
  cause : Nat
  holdCause : Nat
  startStep : Nat
  rstLow : Bool
  rstLowSince : Nat
  /-- Ticks of the warm resets that RST_N started (R458). -/
  rstTicks : List Nat
  rstHighSince : Nat
  /-- RST_N reset entries to log when the controller leaves reset. -/
  heldLog : Bool
  /-- The wipes of the running reset are done. -/
  wiped : Bool
  /-- The calendar has been enabled since the last reset (R415, R468). -/
  calSince : Bool
  tickRefused : Bool
  bootSlot : Nat
  fallback : Bool
  dirCopy : Bool
  svn : Nat
  holdN : Bool
  /-- Regions, dies and the hub fenced as package faults (R44): bits 0-3, 4-5, 6. -/
  package : Nat
  /-- Lockstep restarts that run: block and the tick by which they end (R45). -/
  restarts : List (LockstepBlk × Nat)
  deriving DecidableEq, Repr

end Sys2Proof.Machine
end

