-- ==== Sys2Proof/Machine/TfState.lean ====
section
/-! DEFINITION. The state of the transform complexes, the key store and the seal engine. -/

namespace Sys2Proof.Machine

/-- A descriptor that a ring has read (R268). -/
structure Desc where
  ctrl : Nat
  src : Nat
  dst : Nat
  len : Nat
  outMax : Nat
  arg0 : Nat
  arg1 : Nat
  arg2 : Nat
  /-- OFFS. -/
  offs : Nat
  /-- The DRAM offset that it was read from. -/
  addr : Nat
  deriving DecidableEq, Repr

/-- A ring (R267): the descriptor that it runs. HEAD, HALT and LAST stand in its registers. -/
structure Ring where
  running : Option Desc
  deriving DecidableEq, Repr

/-- A ring that nothing runs on. -/
def Ring.idle : Ring := ⟨none⟩

/-- A stream of a squeeze lane (R257): its history, and whether a fence or a reset cleared it. -/
structure Stream where
  history : List Byte
  live : Bool
  /-- Bits of the last descriptor are held for the next one (R257). -/
  held : Bool
  deriving DecidableEq, Repr

/-- A stream without a history. -/
def Stream.fresh : Stream := ⟨[], false, false⟩

/-- The transform complexes. -/
structure TfState where
  /-- Rings by region * 4 + ring. -/
  rings : Tab Ring
  /-- Streams by (region * 4 + lane) * 16 + stream. -/
  streams : Tab Stream
  /-- Bytes below a KiB not yet counted, by region * 8 + counter. -/
  residue : Tab Nat
  /-- The ring of each region that is looked at first when a descriptor is started (R267). -/
  next : Tab Nat
  deriving DecidableEq, Repr

/-- States of a key slot, in code order (R341). -/
inductive SlotState where
  | empty | valid | draining
  deriving DecidableEq, Repr

/-- A state's code in KEY_SLOT_STAT. -/
def SlotState.code : SlotState → Nat
  | .empty => 0 | .valid => 1 | .draining => 2

/-- A key slot (R341). `type`: 0 none, 1 XTS, 2 GCM, 3 SECURE. -/
structure KeySlot where
  state : SlotState
  type : Nat
  key : List Byte
  users : Nat
  /-- Next GCM counter (R351). -/
  ctr : Nat
  /-- End of the reservation that the vault records. -/
  resv : Nat
  deriving DecidableEq, Repr

/-- An empty slot. -/
def KeySlot.empty : KeySlot := ⟨.empty, 0, [], 0, 0, 0⟩

/-- A key in the vault (R345): page, index, slot, type, key and the end of its GCM reservation. -/
structure VaultKey where
  page : Nat
  index : Nat
  slot : Nat
  type : Nat
  key : List Byte
  resv : Nat
  deriving DecidableEq, Repr

/-- What a key operation that waits for the drain and the vault will do (R345, R347). `cmd`: the Security Send to complete. -/
structure KeyJob where
  op : Nat
  slot : Nat
  page : Nat
  index : Nat
  key : List Byte
  /-- The slot has drained. -/
  drained : Bool
  /-- Both vault copies hold the result. -/
  vaulted : Bool
  /-- KEY_CMD started it; a Security Send otherwise. -/
  byReg : Bool
  cmd : Option Cmd
  deriving DecidableEq, Repr

/-- The key store. -/
structure KeyState where
  slots : Tab KeySlot
  /-- Entries of the pages by page * 16 + index: one more than the slot, 0 for none. -/
  pages : Tab Nat
  vault : List VaultKey
  jobs : List KeyJob
  entropy : Bool
  /-- A LOCK or KILL action holds the store erased (R358). -/
  locked : Bool
  /-- Tick by which WP0 reloads the keys after an ERASE action. -/
  reload : Option Nat
  /-- Staged words of anchors, by anchor * 32 + word (R373). -/
  anchorWords : Tab Nat
  deriving DecidableEq, Repr

/-- A record of the seal log: its 256 bytes, and the signature block that follows an epoch record. -/
structure SealRec where
  seq : Nat
  kind : Nat
  bytes : List Byte
  sig : Option (List Byte)
  deriving DecidableEq, Repr

/-- The seal engine. -/
structure SealState where
  log : List SealRec
  seq : Nat
  epoch : Nat
  /-- SEQ of the first record of the open epoch. -/
  first : Nat
  /-- SEQ of the previous epoch record. -/
  prevEpoch : Option Nat
  /-- SHA-256 of the previous record. -/
  prev : List Byte
  /-- Tick of the last strike. -/
  lastStrike : Nat
  /-- Requested strike (R368): its tick. -/
  strike : Option Nat
  /-- A system snapshot requested it, with its SID (R419). -/
  strikeSid : Option Nat
  /-- Epoch records that wait for their signature: (SEQ, epoch, tick of the strike, requested). -/
  signing : List (Nat × Nat × Nat × Bool)
  corrupt : Option Nat
  /-- Next SEQ that Security Receive 0xF3 returns from, by function (R369). -/
  from_ : Tab Nat
  /-- Raw range that Security Receive 0xF2 returns, by function: (namespace index, first LBA, count) (R370). -/
  raw : Tab (Nat × Nat × Nat)
  /-- The epoch public key object (R369), once slot 1 has been generated. -/
  keyObj : List Byte
  deriving DecidableEq, Repr

end Sys2Proof.Machine
end

