-- ==== Sys2Proof/Machine/State.lean ====
section
/-! DEFINITION. The state of the block, what ends a run, and the state after reset. -/

namespace Sys2Proof.Machine

/-- The tick generator (R14, R48, R414): the tick number, the reference cycle of the last event of the tick, and the tick's length in cycles.
`opening` holds while the work of the tick's opening boundary runs. -/
structure Time where
  tick : Nat
  cyc : Nat
  len : Nat
  opening : Bool
  deriving DecidableEq, Repr

/-- The controller's own state: everything that its commands change but for the fuses, the memories and the queue. -/
structure Chip where
  regs : Regs
  time : Time
  obs : Obs
  resp : BusResp
  buf : BufState
  dram : DramState
  fn : FnState
  host : HostState
  kerf : KerfState
  cal : CalState
  map : MapState
  flash : FlashState
  tf : TfState
  key : KeyState
  sealer : SealState
  boom : BoomState
  pmu : PmuState
  thm : ThmState
  rcu : RcuState
  /-- The model's own counter: which free value is taken next (log entry 4). -/
  free : Nat
  deriving DecidableEq, Repr

/-- The whole state: the commands that wait, first in first out, what never changes, the fuses, the memories and the controller. -/
structure State where
  pending : List Instr
  env : Env
  fuse : Fuses
  mem : Memories
  chip : Chip
  deriving DecidableEq, Repr

/-- Reasons for which the machine stops with a fault. No command of this block stops it: the manual gives every command an effect.
The one constructor names a case that no meaning raises; it is safe. -/
inductive Fault where
  /-- Raised by nothing. Safe. -/
  | none
  deriving DecidableEq, Repr

/-- Reasons for which a command has no meaning. -/
inductive Refusal where
  /-- Raised by the arm of a command that has no meaning in the model. Safe. -/
  | notModelled (mnemonic : String)
  deriving DecidableEq, Repr

/-- The register file after reset. -/
def Regs.reset : Regs := ⟨[], [], [], [], []⟩

/-- Nothing pending, nothing logged, the Tally store empty. -/
def Obs.reset : Obs := ⟨[], [], [], [], [], [], 0, [], 0, 125000, [], false, [], [], []⟩

/-- A mirror copy that holds nothing. -/
def MirrorCopy.empty : MirrorCopy := ⟨false, 0, []⟩

/-- A warden pair after reset. -/
def Pair.fresh : Pair := ⟨0, false, MirrorCopy.empty, MirrorCopy.empty, 0, false, false, [], [], []⟩

/-- The default records of the option block that State.reset holds (log entry 5). -/
def refNand : NandRec :=
  ⟨1, 64, 480000,
    [(120, 30), (600, 220), (300, 180), (20, 15), (120, 35), (700, 380), (300, 200), (20, 15), (120, 40), (800, 480), (300, 220), (20, 15)],
    [⟨[0, 0, 0, 0, 0, 0], 0, 2, 4, 8, 2048, 3072, 1000, 3600, 4800, 1, 0⟩], [], ⟨0, 0xF, 4800, 1, 0, 0⟩⟩

/-- The board and mode records of State.reset (log entry 5): the modes are those of the reset values of CAL_MODE. -/
def refBoard : BoardRec :=
  ⟨1, 128, 4800, 0, 0, [0, 0, 0, 0], [256, 0, 0, 0], 2, 1, 7, 2, 192,
    [⟨8, 1, 1, 6, 40, 300, 1000, 0⟩, ⟨8, 1, 1, 6, 40, 300, 1000, 0⟩, ⟨8, 1, 1, 6, 40, 300, 1000, 0⟩]⟩

/-- The power record of State.reset (log entry 5). -/
def refPower : PowerRec := ⟨90, 1000, 12000, 16000, 6000, 800, 20000, 20000, 20, [40, 36, 30, 20]⟩

/-- The thermal record of State.reset (log entry 5). -/
def refThermal : ThermalRec :=
  ⟨0xFF, 25, 4, 5, List.replicate 16 0, 1000000, 100, 50, 1000000, 10, 5, List.replicate 8 0, List.replicate 4 (List.replicate 8 0),
    (List.range 16).map (fun i => (4000 - 250 * i, 150 * i - 320))⟩

/-- A band table of State.reset (R139, log entry 5): PART, MODE and LEVELS, rising edges, and 256 entries with a DELTA of 1 and offsets 0. -/
def refBand (part mode levels : Nat) : List Byte :=
  let w := fun (n : Nat) => ([BitVec.ofNat 8 n, 0] : List Byte)
  [BitVec.ofNat 8 part, BitVec.ofNat 8 mode, BitVec.ofNat 8 levels, 0] ++ (List.range 7).flatMap (fun i => w (i + 1)) ++ [1, 2, 3, 0] ++
    (List.range 7).flatMap (fun i => w (i + 1)) ++ List.replicate 12 0 ++ (List.range 256).flatMap (fun _ => [1] ++ List.replicate 15 0)

/-- The environment of State.reset. -/
def Env.ref : Env := ⟨.crn7128, 0, refNand, refBoard, refPower, refThermal, ⟨0, [0xFFFF, 0xFFFF, 0xFFFF, 0xFFFF], []⟩,
    [(0, refBand 0 0 1), (2, refBand 0 2 15)], []⟩

/-- The controller right after a power-on reset: every table empty, every register at its reset word, tick 0. -/
def Chip.reset : Chip where
  regs := Regs.reset
  time := ⟨0, 0, 200, false⟩
  obs := Obs.reset
  resp := ⟨0, 0⟩
  buf := ⟨[], [], [], false⟩
  dram := ⟨[], 0, false, 0, 0, []⟩
  fn := ⟨[], Shares.none, false, 0, 0, List.replicate 8 DlogSlot.idle, [], [], [], 0, none⟩
  host := ⟨List.replicate 4 Link.down, [], [], [], 0, [], false, ⟨0, 0, 0, 0, 0, 0, 0, 0, none, []⟩, [], [], [], 0, [0, 0], [], (0, [])⟩
  kerf := ⟨[], [], [], [], none, [], List.replicate 4 Pair.fresh, []⟩
  cal := ⟨[], [], 0, [], [], false, true, 0, 0, false, false, [], 0, [], [], 127, false, none, [], []⟩
  map := ⟨[], [], [], [], [], [], [], [], 0, [], [], [], [], [], [], [], [], [], [], none, false, false, 0, 0, [], false, 0, [], []⟩
  flash := ⟨[], []⟩
  tf := ⟨[], [], [], []⟩
  key := ⟨[], [], [], [], true, false, none, []⟩
  sealer := ⟨[], 0, 0, 0, none, [], 0, none, none, [], none, [], [], []⟩
  boom := ⟨[], 0, 13, none, 1, 0, 0, 0, 0, false, false, none, [], 0, none, [], [], none, 0⟩
  pmu := ⟨0, .steady, 0, 0, 0, 0, 2, none, 40, 0, 0, false, 0, false, none, true, 0, 0, false, 0, false, 0, [], false, false, none, [], false, false⟩
  thm := ⟨[], [], [], 0, 0, false, 0, 0⟩
  rcu := ⟨.inReset, 0, 1, 0, 0, false, 0, [], 0, false, true, false, false, 0, false, false, 0, true, 0, []⟩
  free := 0

/-- The machine right after reset: lifecycle BLANK, memories without contents, the queue empty. -/
def State.reset : State :=
  ⟨[], Env.ref, ⟨false, false, false, false, 0, 0, [0, 0, 0, 0], []⟩, ⟨[], [], [], []⟩, Chip.reset⟩

end Sys2Proof.Machine
end

