-- ==== Sys2Proof/Machine/Ops.lean ====
section
/-! DEFINITION. The operations that every command shares: the register file, time, events, the fault log and the Tally sets. -/

namespace Sys2Proof.Machine

/-! Common status codes (R36). -/

/-- OK. -/
def cstOk : Nat := 0x00
/-- BUSY_RETRY. -/
def cstBusy : Nat := 0x01
/-- ZERO_COUNT. -/
def cstZero : Nat := 0x02
/-- LIMIT. -/
def cstLimit : Nat := 0x03
/-- UNIT_ABSENT. -/
def cstAbsent : Nat := 0x04
/-- BAD_DESCRIPTOR. -/
def cstBad : Nat := 0x05
/-- BUS_ERROR. -/
def cstBus : Nat := 0x06
/-- KEY_UNAVAILABLE. -/
def cstKey : Nat := 0x07
/-- SECURE_HOLD. -/
def cstSecure : Nat := 0x08
/-- TIMEOUT. -/
def cstTimeout : Nat := 0x09
/-- WRAP_REFUSED. -/
def cstWrap : Nat := 0x0A
/-- POOL_EMPTY. -/
def cstPool : Nat := 0x0B
/-- BUDGET. -/
def cstBudget : Nat := 0x0C
/-- LEAK_FENCED. -/
def cstLeak : Nat := 0x0D
/-- CONTRACT_REFUSED. -/
def cstContract : Nat := 0x0E
/-- SEALED. -/
def cstSealed : Nat := 0x0F
/-- HOLD. -/
def cstHold : Nat := 0x10
/-- LIFECYCLE. -/
def cstLife : Nat := 0x11
/-- PARITY_LOST. -/
def cstParity : Nat := 0x12
/-- HOLD_TICK. -/
def cstHoldTick : Nat := 0x13

/-- The order of R39: the first check of a list that fails gives the status, OK if none does. -/
def firstFail : List (Bool × Nat) → Nat
  | [] => cstOk
  | (bad, st) :: t => if bad then st else firstFail t

/-! The register file. -/

/-- The row and index of the register at an offset of a block. -/
def rowAt : List RegRow → Nat → Option (RegRow × Nat)
  | [], _ => none
  | r :: t, off =>
    if r.off ≤ off && (off - r.off) % r.stride = 0 && (off - r.off) / r.stride < r.count then some (r, (off - r.off) / r.stride)
    else rowAt t off

/-- The hub blocks with registers: base, end and registers (R27). -/
def hubBlocks : List (Nat × Nat × List RegRow) := [
  (0x00000000, 0x00010000, idRegs), (0x00010000, 0x00020000, rcuRegs), (0x00020000, 0x00040000, pmuRegs),
  (0x00040000, 0x00100000, calRegs), (0x00100000, 0x00200000, hostRegs), (0x00200000, 0x00300000, fnRegs),
  (0x00300000, 0x00380000, keyRegs), (0x00380000, 0x00400000, sealRegs), (0x00400000, 0x00500000, bpmRegs),
  (0x00500000, 0x00600000, memRegs), (0x00600000, 0x00700000, boomRegs), (0x00700000, 0x00800000, thmRegs),
  (0x00800000, 0x00900000, logRegs), (0x00900000, 0x00A00000, krfRegs), (0x00A00000, 0x00B00000, irqRegs),
  (0x00B00000, 0x00C00000, mapRegs)]

/-- The register at a control-space address of the hub or of a region window (R27, R28); none where no register stands. -/
def findReg (a : Nat) : Option (RegRow × Nat) :=
  if a < 0x00C00000 then
    match hubBlocks.find? (fun b => decide (b.1 ≤ a) && decide (a < b.2.1)) with
    | some (base, _, rows) => rowAt rows (a - base)
    | none => none
  else if a < 0x10000000 || 0x20000000 ≤ a then none
  else
    let o := a % 0x04000000
    if o < 0x00800000 then
      let l := o % 0x00100000
      if l < 0x00040000 then rowAt chRegs (l % 0x00010000) else if l < 0x00080000 then rowAt decRegs (l - 0x00040000) else none
    else if o < 0x00C00000 then rowAt tfRegs (o - 0x00800000)
    else if o < 0x00D00000 then rowAt nearRegs (o - 0x00C00000)
    else if o < 0x00E00000 then rowAt thmrRegs (o - 0x00D00000)
    else none

/-- The word that a row's register of index `i` resets to. -/
def RegRow.resetWord (r : RegRow) (i : Nat) : Nat :=
  match r.resets.find? (fun x => decide (x.1 ≤ i) && decide (i ≤ x.2.1)) with
  | some x => x.2.2
  | none => r.fields.foldl (fun v f => putBits v f.hi f.lo f.reset) 0

/-- The reset word of an address; 0 where no register stands. -/
def resetOf (a : Nat) : Word :=
  match findReg a with
  | some (r, i) => BitVec.ofNat 32 (r.resetWord i)
  | none => 0

/-- The word in force at an address. -/
def Chip.reg (c : Chip) (a : Nat) : Nat := (Tab.get resetOf c.regs.cur a).toNat

/-- The staging copy of the word at an address. -/
def Chip.stgReg (c : Chip) (a : Nat) : Nat := (Tab.get resetOf c.regs.stg a).toNat

/-- Puts a word in force. -/
def Chip.setReg (c : Chip) (a v : Nat) : Chip :=
  { c with regs := { c.regs with cur := Tab.set resetOf c.regs.cur a (BitVec.ofNat 32 v) } }

/-- Puts a word into the staging copy. -/
def Chip.setStg (c : Chip) (a v : Nat) : Chip :=
  { c with regs := { c.regs with stg := Tab.set resetOf c.regs.stg a (BitVec.ofNat 32 v) } }

/-- A field of the word in force. -/
def Chip.fld (c : Chip) (a hi lo : Nat) : Nat := bitsOf (c.reg a) hi lo

/-- A field of the staging copy. -/
def Chip.stgFld (c : Chip) (a hi lo : Nat) : Nat := bitsOf (c.stgReg a) hi lo

/-- A bit of the word in force. -/
def Chip.bit (c : Chip) (a i : Nat) : Bool := bitOf (c.reg a) i

/-- Puts a field in force. -/
def Chip.setFld (c : Chip) (a hi lo x : Nat) : Chip := c.setReg a (putBits (c.reg a) hi lo x)

/-- Puts a bit in force. -/
def Chip.setBit (c : Chip) (a i : Nat) (b : Bool) : Chip := c.setFld a i i (b2n b)

/-- Sets the bits of `mask` in force: what hardware does to W1C fields and to sticky bits. -/
def Chip.orReg (c : Chip) (a mask : Nat) : Chip := c.setReg a (c.reg a ||| mask)

/-- Adds to a saturating counter field. -/
def Chip.bump (c : Chip) (a hi lo n : Nat) : Chip := c.setFld a hi lo (satTo (2 ^ (hi + 1 - lo) - 1) (c.fld a hi lo + n))

/-- Raises a field to at least `n`, saturating: the fields that show a maximum since the last read. -/
def Chip.raiseTo (c : Chip) (a hi lo n : Nat) : Chip :=
  c.setFld a hi lo (Nat.max (c.fld a hi lo) (satTo (2 ^ (hi + 1 - lo) - 1) n))

/-- Writes a field together with its staging copy: what a hardware load of a staged field does at start-up. -/
def Chip.loadFld (c : Chip) (a hi lo x : Nat) : Chip :=
  (c.setFld a hi lo x).setStg a (putBits (c.stgReg a) hi lo x)

/-- What a write of `v` leaves in a stored field: reserved, read-only and read-clear bits ignore it, W1C bits clear where it has ones,
W1S bits set where it has ones, a value outside the limits changes nothing (R12, R43). `locked`: the lifecycle makes RWL read-only. -/
def RegField.write (f : RegField) (locked : Bool) (old v : Nat) : Nat :=
  let x := bitsOf v f.hi f.lo
  match f.acc with
  | .ro => old
  | .rc => old
  | .st => old
  | .rw => if f.min ≤ x && x ≤ f.max then putBits old f.hi f.lo x else old
  | .rws => if f.min ≤ x && x ≤ f.max then putBits old f.hi f.lo x else old
  | .rwl => if locked then old else if f.min ≤ x && x ≤ f.max then putBits old f.hi f.lo x else old
  | .w1s => putBits old f.hi f.lo (bitsOf old f.hi f.lo ||| x)
  | .w1c => putBits old f.hi f.lo (bitsOf old f.hi f.lo - (bitsOf old f.hi f.lo &&& x))

/-- What a write of `v` leaves in the staging copy of a field (R21, R43). -/
def RegField.stage (f : RegField) (old v : Nat) : Nat :=
  let x := bitsOf v f.hi f.lo
  match f.acc with
  | .st => if f.min ≤ x && x ≤ f.max then putBits old f.hi f.lo x else old
  | _ => old

/-- A write of `v` to every field of a register. -/
def Chip.writeFields (c : Chip) (locked : Bool) (r : RegRow) (a v : Nat) : Chip :=
  (c.setReg a (r.fields.foldl (fun w f => f.write locked w v) (c.reg a))).setStg a
    (r.fields.foldl (fun w f => f.stage w v) (c.stgReg a))

/-- The mask of the fields of one access code. -/
def RegRow.mask (r : RegRow) (acc : Acc) : Nat :=
  r.fields.foldl (fun w f => if f.acc = acc then putBits w f.hi f.lo (2 ^ (f.hi + 1 - f.lo) - 1) else w) 0

/-- The fields that a read clears, set to 0 (RC of R12). -/
def Chip.clearRc (c : Chip) (r : RegRow) (a : Nat) : Chip :=
  c.setReg a (r.fields.foldl (fun w f => if f.acc = .rc then putBits w f.hi f.lo 0 else w) (c.reg a))

/-- The words that a warm reset keeps: each word's RWS fields, every other field at its reset value (R456). -/
def keepRws (t : Tab Word) : Tab Word :=
  t.filterMap (fun p =>
    match findReg p.1 with
    | none => none
    | some (r, i) =>
      let w := r.fields.foldl (fun w f => if f.acc = .rws then putBits w f.hi f.lo (bitsOf p.2.toNat f.hi f.lo) else w) (r.resetWord i)
      if w = r.resetWord i then none else some (p.1, BitVec.ofNat 32 w))

/-! Time. -/

/-- The reference cycle in which the command that runs happens: 0 at a boundary, else a free value not below the last one of the tick (log entry 3). -/
def Chip.cycle (c : Chip) : Nat :=
  if c.time.opening then 0 else Nat.max c.time.cyc (Config.refCycle c.free % c.time.len)

/-- The timestamp of a reference cycle of the current tick (R14). -/
def Time.stampAt (t : Time) (cyc : Nat) : Nat := t.tick * 65536 + cyc * 65536 / t.len

/-- The timestamp of the command that runs (R14). -/
def Chip.stamp (c : Chip) : Nat := c.time.stampAt c.cycle

/-- The chip after an event has taken a timestamp. -/
def Chip.pass (c : Chip) : Chip := { c with free := c.free + 1, time := { c.time with cyc := c.cycle } }

/-- The current tick. -/
def Chip.tick (c : Chip) : Nat := c.time.tick

/-! Events and the fault log (R471-R477). -/

/-- The number is one of the table of R471. -/
def eventListed (e : Nat) : Bool := decide (e < 328) || (decide (512 ≤ e) && decide (e < 1536))

/-- Events with a fixed route, no route register and no log entry (R471). -/
def eventFixed (e : Nat) : Bool := (decide (272 ≤ e) && decide (e < 280)) || e == 300

/-- Events under which a rule calls for a fault log entry: LOGEN reads 1 (R473, log entry 6). -/
def logForced (e : Nat) : Bool :=
  decide (e < 128) || (decide (240 ≤ e) && decide (e < 256)) || (decide (260 ≤ e) && decide (e < 264)) ||
  (decide (284 ≤ e) && decide (e < 288)) || [289, 290, 291, 297, 298, 301, 304, 305, 310, 311].contains e ||
  (decide (312 ≤ e) && decide (e < 328)) || (decide (1024 ≤ e) && decide (e < 1280))

/-- The event makes log entries. -/
def Chip.logEnabled (c : Chip) (e : Nat) : Bool := !eventFixed e && (logForced e || c.bit (Reg.irqRoute e) 30)

/-- An entry folded into the newest one of its event, if R475 lets it. -/
def foldLog (win time : Nat) (e code fn : Nat) (log : List LogEntry) : Option (List LogEntry) :=
  match firstIdx (fun x => x.event == e) log.reverse with
  | none => none
  | some i =>
    let k := log.length - 1 - i
    match log[k]? with
    | none => none
    | some x =>
      if x.code = code ∧ x.fn = fn ∧ time / 65536 - x.time / 65536 ≤ win ∧ 0 < win ∧ x.repeats < 65535 then
        some (updateAt log k (fun y => { y with repeats := y.repeats + 1, lastDt := satTo 0xFFFFFFFF (time / 65536 - y.time / 65536) }))
      else none

/-- A new entry at the tail, before the entries of the same cycle that R475 puts after it. -/
def appendLog (x : LogEntry) (log : List LogEntry) : List LogEntry :=
  let after := (log.reverse.takeWhile (fun y => y.time == x.time && (decide (x.event < y.event) || (x.event == y.event && decide (x.fn < y.fn))))).reverse
  log.take (log.length - after.length) ++ [x] ++ after

/-- A log entry for a raise (R475). -/
def Chip.logEntry (c : Chip) (e code fn arg0 arg1 : Nat) : Chip :=
  match foldLog (c.fld Reg.logFlCtrl 11 0) c.stamp e code fn c.obs.log with
  | some l => { c with obs := { c.obs with log := l } }
  | none =>
    let l := appendLog ⟨c.stamp, e, code, false, 0, fn, arg0, 0, arg1⟩ c.obs.log
    if l.length ≤ 1024 then { c with obs := { c.obs with log := l } }
    else { c with obs := { c.obs with log := l.drop 1, logHead := (c.obs.logHead + 1) % 1024 } }.bump Reg.logFlStat 31 16 1

/-- The active core of a pair, 0-7 (R22). -/
def Chip.activeCore (c : Chip) (p : Nat) : Nat := 2 * p + ((c.kerf.pairs[p]?).map (·.active)).getD 0

/-- Raises event `e` (R472), with CODE, FN (0xFFFF for none), ARG0 and ARG1 of its log entry (R474). -/
def Chip.raise (c : Chip) (e code fn arg0 arg1 : Nat) : Chip :=
  if !eventListed e then c
  else if e = 300 then
    { c with obs := { c.obs with
        pend300 := [0, 1, 2, 3].foldl (fun l p => insertNat (c.activeCore p) l) c.obs.pend300,
        raises := Tab.set (fun _ => 0) c.obs.raises e (satTo 65535 (Tab.get (fun _ => 0) c.obs.raises e + 1)) } }.pass
  else
    let c1 := { c with obs := { c.obs with
      pend := insertNat e c.obs.pend,
      raises := Tab.set (fun _ => 0) c.obs.raises e (satTo 65535 (Tab.get (fun _ => 0) c.obs.raises e + 1)) } }
    (if c.logEnabled e then c1.logEntry e code fn arg0 arg1 else c1).pass

/-- Raises an event that concerns no function and names nothing. -/
def Chip.raise0 (c : Chip) (e : Nat) : Chip := c.raise e 0 0xFFFF 0 0

/-- Clears a pending bit. -/
def Chip.unpend (c : Chip) (e : Nat) : Chip := { c with obs := { c.obs with pend := c.obs.pend.filter (· != e) } }

/-! The Tally sets (R479, R480). -/

/-- Adds a value to an accumulator; `dt` is the tick from the period's start, `sh` the histogram shift. -/
def TallyAcc.add (t : TallyAcc) (v dt sh : Nat) : TallyAcc :=
  let bin := Nat.min 7 (bitLen (v / 2 ^ sh))
  { t with
    count := satTo 0xFFFFFFFF (t.count + 1)
    sum := satTo 0xFFFFFFFFFFFFFFFF (t.sum + v)
    min := if t.count = 0 || decide (v < t.min) then v else t.min
    minT := if t.count = 0 || decide (v < t.min) then dt else t.minT
    max := if t.count = 0 || decide (t.max < v) then v else t.max
    maxT := if t.count = 0 || decide (t.max < v) then dt else t.maxT
    hist := updateAt t.hist bin (fun h => satTo 65535 (h + 1))
    sat := t.sat || decide (0xFFFFFFFF < t.count + 1) || decide (0xFFFFFFFFFFFFFFFF < t.sum + v) }

/-- The set records: its bit of LOG_TY_EN in force. -/
def Chip.tallyOn (c : Chip) (s : Nat) : Bool :=
  if s < 32 then c.bit Reg.logTyEnLo s else decide (s < 42) && c.bit Reg.logTyEnHi (s - 32)

/-- A set receives a value (R479). -/
def Chip.tally (c : Chip) (s v : Nat) : Chip :=
  if !c.tallyOn s then c
  else
    let t := (Tab.get (fun _ => TallyAcc.empty) c.obs.tally s).add v (c.tick - c.obs.tallyStart / 65536) (c.fld (Reg.logTyShift s) 3 0)
    { c with obs := { c.obs with tally := Tab.set (fun _ => TallyAcc.empty) c.obs.tally s t } }

/-- A codeword of cluster `k` ended at step `st` with `bits` corrected (R142, AUX of R480). -/
def Chip.tallyDecode (c : Chip) (k st bits : Nat) : Chip :=
  if !c.tallyOn (8 + k) then c
  else
    let c1 := c.tally (8 + k) bits
    let t := Tab.get (fun _ => TallyAcc.empty) c1.obs.tally (8 + k)
    let t1 := { t with aux := updateAt t.aux (Nat.min 3 st) (fun n => satTo 65535 (n + 1)) }
    { c1 with obs := { c1.obs with tally := Tab.set (fun _ => TallyAcc.empty) c1.obs.tally (8 + k) t1 } }

/-- The 16 words of a set's record (R480). -/
def tallyRecord (start s : Nat) (t : TallyAcc) : List Nat :=
  let two := fun (l : List Nat) (i : Nat) => (l[i]?).getD 0 + 65536 * (l[i + 1]?).getD 0
  [start % 2 ^ 32, start / 2 ^ 32, s + 65536 * b2n t.sat, t.count, t.sum % 2 ^ 32, t.sum / 2 ^ 32, t.min % 2 ^ 32, t.max % 2 ^ 32,
    t.minT, t.maxT, two t.hist 0, two t.hist 2, two t.hist 4, two t.hist 6, two t.aux 0, two t.aux 2]

/-- The period closes: one record for each set that received a value, in rising order, while the store has room (R479, R481). -/
def Chip.tallyClose (c : Chip) : Chip :=
  let put := fun (c : Chip) (p : Nat × TallyAcc) =>
    if p.2.count = 0 then c
    else if 2048 ≤ c.obs.store.length then c.bump Reg.logTyStat 27 12 1
    else { c with obs := { c.obs with store := c.obs.store ++ [tallyRecord c.obs.tallyStart p.1 p.2] } }
  let c1 := c.obs.tally.foldl put c
  { c1 with obs := { c1.obs with tally := [], tallyStart := c.tick * 65536, tallyEnd := c.tick + c.fld Reg.logTyPeriod 23 0 } }

/-- RESTART takes effect: the store is empty and recording goes on (R481). -/
def Chip.tallyRestartApply (c : Chip) : Chip := { c with obs := { c.obs with store := [], restart := false } }

/-! Free values and running a chip-level operation. -/

/-- The next number below `n` that a free value gives (0 for n = 0), and the chip with the counter advanced. -/
def Chip.pick (c : Chip) (n : Nat) : Nat × Chip := (Config.pickFree c.free % n, { c with free := c.free + 1 })

/-! Degraded hold (R466) and wakes (R433). -/

/-- The controller is in degraded hold. -/
def Chip.inHold (c : Chip) : Bool := c.rcu.phase == .hold

/-- The calendar, the channel engines and the transform lanes start nothing: degraded hold (R466), a landing flush (R440), or gated regions (R429). -/
def Chip.held (c : Chip) : Bool := c.inHold || c.pmu.flush.isSome || decide (3 ≤ c.pmu.ps)

/-- No new best-effort, maintenance, garbage-collection, refresh or patrol work is booked (R429, R440, R466). -/
def Chip.noNewWork (c : Chip) : Bool := c.held || c.pmu.phase == .entering

/-- Degraded hold begins; the first cause stands, HOLD_N is driven low, and CSTS.RDY follows CC.EN (R466). -/
def Chip.enterHold (c : Chip) (cause : Nat) : Chip :=
  if c.inHold then c
  else
    let c1 := { c with rcu := { c.rcu with
      phase := .hold
      holdCause := cause
      holdN := false } }
    let c2 := { c1 with fn := { c1.fn with fns := c1.fn.fns.map (fun (p : Nat × Fn) => (p.1, { p.2 with rdy := p.2.rdy || p.2.ccEn })) } }
    c2.raise 326 cause 0xFFFF 0 0

/-- A lockstep restart of a hub block runs (R45). -/
def Chip.restartRuns (c : Chip) (b : LockstepBlk) : Bool := c.rcu.restarts.any (fun p => p.1 == b)

/-- A wake source's bit of PMU_WAKE.SEEN. -/
def wakeBit : WakeSource → Nat
  | .host => 0 | .mi => 1 | .link => 2 | .boom => 3 | .timer => 4 | .secure => 5

/-- A wake event (R433): from the first tick of an entry it is latched, the first with its timestamp. Before the commit point it abandons the entry;
in PS3 or PS4 the exit starts, and the package leaves PS3 too. A doorbell or request also ends the package's idleness (R427). -/
def Chip.wakeSee (c : Chip) (w : WakeSource) : Chip :=
  let c := if w = .host ∨ w = .mi then { c with pmu := { c.pmu with busy := true } } else c
  if c.pmu.phase == .steady && decide (c.pmu.ps < 3) then c
  else
    let c0 := if c.fld Reg.pmuWake 5 0 = 0 then (c.setReg Reg.pmuWakeTLo (c.stamp % 2 ^ 32)).setReg Reg.pmuWakeTHi (c.stamp / 2 ^ 32) else c
    let c1 := (c0.orReg Reg.pmuWake (2 ^ wakeBit w)).pass
    if c1.pmu.phase = .entering && decide (c1.pmu.ps < 3) then
      { c1 with pmu := { c1.pmu with
        phase := .steady
        target := c1.pmu.ps } }
    else if c1.pmu.phase = .exiting || c1.pmu.phase = .flushing then c1
    else { c1 with pmu := { c1.pmu with
      phase := .exiting
      target := c1.pmu.left
      wakePending := true } }

/-- A command whose effect lies in the controller's own state. -/
def onChip (f : Chip → Chip) (s : State) : Host.Outcome State Fault Refusal := .next { s with chip := f s.chip }

end Sys2Proof.Machine
end

