-- ==== Sys2Proof/Machine/Buffers.lean ====
section
/-! DEFINITION. The buffer pool manager: handles, allocation, references, the dirty count and the leak audit (R378-R390). -/

namespace Sys2Proof.Machine

/-- Number of near buffers in a region (R378). -/
def nearPerRegion : Nat := 4096

/-- A near handle (R379). -/
def nearHandle (region i : Nat) : Nat := region * 2 ^ 29 + i

/-- A far handle (R379). -/
def farHandle (i : Nat) : Nat := 2 ^ 31 + i

/-- The handle names a near buffer. -/
def isNear (h : Nat) : Bool := decide (h < 2 ^ 31)

/-- The region of a near handle. -/
def handleRegion (h : Nat) : Nat := h / 2 ^ 29 % 4

/-- Far buffers in the pool in force (R378, R393). -/
def Chip.farCount (c : Chip) : Nat := c.dram.farNow * 65536

/-- The handle has the form of R379 and names a present region or an index inside the far pool. -/
def handleForm (e : Env) (c : Chip) (h : Nat) : Bool :=
  if isNear h then bitsOf h 28 12 == 0 && decide (handleRegion h < e.part.regions)
  else bitsOf h 30 21 == 0 && decide (h < 2 ^ 32) && decide (bitsOf h 20 0 < c.farCount)

/-- The buffer of a handle. -/
def Chip.buffer (c : Chip) (h : Nat) : Buf := Tab.get (fun _ => Buf.free) c.buf.bufs h

/-- Puts a buffer. -/
def Chip.setBuffer (c : Chip) (h : Nat) (b : Buf) : Chip :=
  { c with buf := { c.buf with bufs := Tab.set (fun _ => Buf.free) c.buf.bufs h b } }

/-- The handle is valid (R379): it has the form and is allocated. -/
def handleValid (e : Env) (c : Chip) (h : Nat) : Bool := handleForm e c h && decide (0 < (c.buffer h).refs)

/-- Allocated buffers that `p` holds of. -/
def Chip.countBufs (c : Chip) (p : Nat → Buf → Bool) : Nat := (c.buf.bufs.filter (fun x => decide (0 < x.2.refs) && p x.1 x.2)).length

/-- Dirty buffers (R385): BPM_DIRTY.COUNT. -/
def Chip.dirtyCount (c : Chip) : Nat := c.countBufs (fun _ b => b.dirty)

/-- Near buffers of a region in use. -/
def Chip.nearUsed (c : Chip) (r : Nat) : Nat := c.countBufs (fun h _ => isNear h && handleRegion h == r)

/-- Far buffers in use. -/
def Chip.farUsed (c : Chip) : Nat := c.countBufs (fun h _ => !isNear h)

/-- Buffers charged to a function's near or far share. -/
def Chip.shareUsed (c : Chip) (ch : Charge) (fn : Nat) : Nat :=
  c.countBufs (fun _ b => b.charge == ch && b.fn == fn)

/-- Buffers charged to a reserve, in all regions. -/
def Chip.reserveUsed (c : Chip) (ch : Charge) : Nat := c.countBufs (fun _ b => b.charge == ch)

/-- Buffers of a region's contract reserve in use (R387). -/
def Chip.contractUsed (c : Chip) (r : Nat) : Nat := c.countBufs (fun h b => b.charge == .contract && handleRegion h == r)

/-- The `k`-th index, from 0, that a rising list of used indices leaves free. -/
def kthFree : List Nat → Nat → Nat → Nat
  | [], at_, k => at_ + k
  | u :: t, at_, k => if u < at_ then kthFree t at_ k else if k < u - at_ then at_ + k else kthFree t (u + 1) (k - (u - at_))

/-- The regions in the order a near request tries them (R381). -/
def regionOrder (e : Env) (first : Nat) : List Nat := first :: (List.range e.part.regions).filter (· != first)

/-- The near region that grants a buffer under a charge, if any. -/
def Chip.nearGrant (c : Chip) (e : Env) (ch : Charge) (first : Nat) : Option Nat :=
  (regionOrder e first).find? (fun r => decide (r < e.part.regions) && decide (c.nearUsed r < nearPerRegion) &&
    (ch != .contract || decide (c.contractUsed r < 128)))

/-- The owner may take one more buffer under a charge (R320, R381, R387). -/
def Chip.chargeOk (c : Chip) (e : Env) (ch : Charge) (fn : Nat) : Bool :=
  match ch with
  | .shareNear => decide (c.shareUsed .shareNear fn < c.fn.shares.near)
  | .shareFar => decide (c.shareUsed .shareFar fn < c.fn.shares.far)
  | .contract => true
  | .nearReserve => decide (c.reserveUsed .nearReserve < c.fld Reg.fnRsvNear 13 0 - 128 * e.part.regions)
  | .farReserve => decide (c.reserveUsed .farReserve < c.fld Reg.fnRsvFar 21 0)

/-- The charges that an allocation tries in turn (R381, R386, R387). `pad`: a pad buffer (R159). -/
def kindCharges (kind : Nat) (contracted pad : Bool) : List Charge :=
  match kind with
  | 0 => if pad then [.nearReserve] else [.shareNear, .shareFar]
  | 1 => if contracted then [.contract, .shareNear] else [.shareNear]
  | 2 => [.nearReserve]
  | 3 => [.farReserve]
  | 4 => [.farReserve]
  | 5 => [.farReserve, .nearReserve]
  | 6 => [.farReserve, .nearReserve]
  | 7 => [.nearReserve]
  | 8 => [.nearReserve]
  | _ => [.farReserve]

/-- A charge takes its buffer from the near pool. -/
def Charge.near : Charge → Bool
  | .shareFar => false
  | .farReserve => false
  | _ => true

/-- The function number of an owner: 0 for kinds other than HOST and READ (R381). -/
def ownerFn (kind fn : Nat) : Nat := if kind ≤ 1 then fn else 0

/-- The dirty limit in force: the smaller of BPM_DIRTY.MAX and PMU_FLUSH_CAP.CAP (R385, R442), 0 while hold-up is short (R444). -/
def Chip.dirtyLimit (c : Chip) : Nat :=
  if c.pmu.short then 0 else Nat.min (c.fld Reg.bpmDirty 31 16) (c.fld Reg.pmuFlushCap 15 0)

/-- The handle that a charge grants, and the chip after the choice; none if the charge grants none. -/
def Chip.grant (c : Chip) (e : Env) (ch : Charge) (fn first : Nat) : Option (Nat × Chip) :=
  if !c.chargeOk e ch fn then none
  else if ch.near then
    match c.nearGrant e ch first with
    | none => none
    | some r =>
      let used := (c.buf.bufs.filter (fun x => isNear x.1 && handleRegion x.1 == r && decide (0 < x.2.refs))).map (fun x => x.1 % nearPerRegion)
      let (k, c1) := c.pick (nearPerRegion - c.nearUsed r)
      some (nearHandle r (kthFree used 0 k), c1)
  else if c.farUsed < c.farCount then
    let used := (c.buf.bufs.filter (fun x => !isNear x.1 && decide (0 < x.2.refs))).map (fun x => x.1 - 2 ^ 31)
    let (k, c1) := c.pick (c.farCount - c.farUsed)
    some (farHandle (kthFree used 0 k), c1)
  else none

/-- The first charge of a list that grants. -/
def Chip.grantFirst (c : Chip) (e : Env) (fn first : Nat) : List Charge → Option (Nat × Charge × Chip)
  | [] => none
  | ch :: t =>
    match c.grant e ch fn first with
    | some (h, c1) => some (h, ch, c1)
    | none => c.grantFirst e fn first t

/-- The owner is fenced by the leak audit (R389). -/
def Chip.ownerFenced (c : Chip) (kind fn : Nat) : Bool := c.buf.fenced.contains (kind * 256 + ownerFn kind fn)

/-- An allocation (R382): its status and handle, and the chip. A refused allocation takes nothing.
`landing`: the buffer joins the landing, dirty from now on (R385). -/
def Chip.alloc (c : Chip) (e : Env) (kind fn region : Nat) (landing contracted pad : Bool) : Nat × Nat × Chip :=
  let st := firstFail [(decide (9 < kind), cstBad), (c.ownerFenced kind fn, cstLeak),
    (landing && (decide (c.dirtyLimit ≤ c.dirtyCount) || c.pmu.flush.isSome), cstPool)]
  if st ≠ cstOk then (st, 0, c)
  else
    match c.grantFirst e (ownerFn kind fn) region (kindCharges kind contracted pad) with
    | none => (cstPool, 0, c)
    | some (h, ch, c1) =>
      if !c.bit Reg.bpmCtrl 0 || c.buf.restarting then (cstBusy, 0, c)
      else (cstOk, h, c1.setBuffer h ⟨kind, ownerFn kind fn, ch, 1, c.tick, landing⟩)

/-- A reference is taken (R383). -/
def Chip.takeRef (c : Chip) (e : Env) (h : Nat) : Nat × Chip :=
  if !handleValid e c h then (cstBad, c.raise 323 cstBad 0xFFFF 0 0)
  else
    let b := c.buffer h
    if b.refs = 65535 then (cstWrap, c) else (cstOk, c.setBuffer h { b with refs := b.refs + 1 })

/-- A reference is released; at 0 the buffer is free again (R384). -/
def Chip.releaseRef (c : Chip) (e : Env) (h : Nat) : Nat × Chip :=
  if !handleValid e c h then (cstBad, c.raise 323 cstBad 0xFFFF 0 0)
  else
    let b := c.buffer h
    (cstOk, if b.refs = 1 then c.setBuffer h Buf.free else c.setBuffer h { b with refs := b.refs - 1 })

/-- A buffer is given back whatever its count: what a reset's wipes and a discarded landing do. -/
def Chip.freeBuf (c : Chip) (h : Nat) : Chip := c.setBuffer h Buf.free

/-- A landing buffer's data is safe in flash (R158, R385). -/
def Chip.cleanBuf (c : Chip) (h : Nat) : Chip :=
  let b := c.buffer h
  if b.refs = 0 then c else c.setBuffer h { b with dirty := false }

/-- The DRAM offset of a far buffer's contents (R380). -/
def farOffset (h : Nat) : Nat := 2 ^ 31 + bitsOf h 20 0 * 16384

/-- The near-pool address of a near buffer's contents (R380): its region's slice, then its place in it. -/
def nearOffset (h : Nat) : Nat := handleRegion h * 2 ^ 26 + h % 4096 * 16384

/-- `n` bytes of a buffer from offset `o`. -/
def bufBytes (m : Memories) (h o n : Nat) : List Byte :=
  if isNear h then Mem.readBytes m.near (nearOffset h + o) n else Mem.readBytes m.dram (farOffset h + o) n

/-- Bytes written into a buffer from offset `o`. -/
def setBufBytes (m : Memories) (h o : Nat) (bs : List Byte) : Memories :=
  if isNear h then { m with near := Mem.writeBytes m.near (nearOffset h + o) bs }
  else { m with dram := Mem.writeBytes m.dram (farOffset h + o) bs }

/-! BPM_ALLOC and BPM_REF (the operation registers of R505). -/

/-- BPM_ALLOC: one WARDEN buffer from the far pool, zeroed (R382, R384). The operation ends at once. -/
def bpmAllocOp (s : State) : State :=
  let (st, h, c) := s.chip.alloc s.env 9 0 0 false false false
  let c1 := (c.setReg Reg.bpmAllocRes (2 ^ 31 + st)).setReg Reg.bpmAllocHandle h
  { s with chip := c1.setBit Reg.bpmAlloc 31 false,
           mem := if st = cstOk then { s.mem with dram := Mem.zeroRange s.mem.dram (farOffset h) (farOffset h + 16384) } else s.mem }

/-- BPM_REF on the handle of BPM_REF_HANDLE: a take or a release (R383, R384). A handle that is not of kind WARDEN completes with
BAD_DESCRIPTOR. -/
def bpmRefOp (release : Bool) (s : State) : State :=
  let h := s.chip.reg Reg.bpmRefHandle
  let (st, c) :=
    if handleValid s.env s.chip h && (s.chip.buffer h).kind != 9 then (cstBad, s.chip)
    else if release then s.chip.releaseRef s.env h else s.chip.takeRef s.env h
  let n := if st = cstOk then (c.buffer h).refs else 0
  { s with chip := (c.setReg Reg.bpmRefRes (2 ^ 31 + n * 256 + st)).setBit Reg.bpmRef 31 false }

/-! The leak audit. -/

/-- The limit of a kind, 0 where the check is off (R389). -/
def Chip.auditLimit (c : Chip) (kind : Nat) : Nat := c.reg (Reg.bpmAuditLim kind)

/-- The oldest buffer of an owner: age and handle. -/
def Chip.oldest (c : Chip) (owner : Nat) : Option (Nat × Nat) :=
  (minBy (fun x => x.2.since) (c.buf.bufs.filter (fun x => decide (0 < x.2.refs) && x.2.kind * 256 + x.2.fn == owner))).map
    (fun x => (c.tick - x.2.since, x.1))

/-- The owners that hold buffers, rising. -/
def Chip.owners (c : Chip) : List Nat :=
  (c.buf.bufs.filter (fun x => decide (0 < x.2.refs))).foldl (fun l x => insertNat (x.2.kind * 256 + x.2.fn) l) []

/-- The sample of one owner: a HOST, READ or WARDEN owner over its limit is fenced, an excess raises the event of its kind (R389). -/
def Chip.auditOwner (c : Chip) (owner : Nat) : Chip :=
  match c.oldest owner with
  | none => { c with buf := { c.buf with sampled := Tab.erase c.buf.sampled owner } }
  | some (age, h) =>
    let kind := owner / 256
    let c1 := { c with buf := { c.buf with sampled := Tab.insert c.buf.sampled owner (age, h) } }
    if c.auditLimit kind = 0 ∨ age ≤ c.auditLimit kind then c1
    else
      let c2 := if kind ≤ 1 ∨ kind = 9 then { c1 with buf := { c1.buf with fenced := insertNat owner c1.buf.fenced } } else c1
      if kind ≤ 1 then c2.raise (1024 + owner % 256) 0 (owner % 256) 0 0 else c2.raise (312 + (kind - 2)) 0 0xFFFF 0 0

/-- The audit samples every owner (R388). An owner that holds nothing shows age 0. -/
def Chip.auditSample (c : Chip) : Chip :=
  let c0 := { c with buf := { c.buf with sampled := [] } }
  c.owners.foldl (fun c o => c.auditOwner o) c0

/-- A fence of an owner ends (R390). -/
def Chip.unfence (c : Chip) (owner : Nat) : Chip := { c with buf := { c.buf with fenced := c.buf.fenced.filter (· != owner) } }

/-! The buffer window (R380). -/

/-- The buffer that BPM_WIN_SEL shows: none unless its handle is valid and of kind WARDEN. -/
def Chip.windowHandle (c : Chip) (e : Env) : Option Nat :=
  let h := c.reg Reg.bpmWinSel
  if handleValid e c h && (c.buffer h).kind == 9 then some h else none

/-- A word read through the window. -/
def windowRead (s : State) (off : Nat) : Nat :=
  match s.chip.windowHandle s.env with
  | some h => leNat (bufBytes s.mem h (off % 16384 / 4 * 4) 4)
  | none => 0

/-- A word written through the window. -/
def windowWrite (off : Nat) (v : Word) (s : State) : State :=
  match s.chip.windowHandle s.env with
  | some h => { s with mem := setBufBytes s.mem h (off % 16384 / 4 * 4) (leBytes 4 v.toNat) }
  | none => s

/-! The meanings of the rows of the buffer pool manager. -/

/-- BUFFER_ALLOC (R382): the answer stands in the response: the handle and the status. -/
def execBufferAlloc (kind fn region : Nat) (landing contracted : Bool) (s : State) : Host.Outcome State Fault Refusal :=
  onChip (fun c => let (st, h, c1) := c.alloc s.env kind fn region landing contracted false
                   { c1 with resp := ⟨BitVec.ofNat 32 h, st⟩ }) s

/-- BPM_ALLOC (R382, R505): GO starts nothing while an operation runs; here every operation ends within its command. -/
def execBpmAlloc (s : State) : Host.Outcome State Fault Refusal := .next (bpmAllocOp s)

/-- BPM_REF_TAKE (R383): HANDLE is written, then the take is started. -/
def execBpmRefTake (handle : Word) (s : State) : Host.Outcome State Fault Refusal :=
  .next (bpmRefOp false { s with chip := (s.chip.setReg Reg.bpmRefHandle handle.toNat).setReg Reg.bpmRef 0 })

/-- BPM_REF_RELEASE (R384). -/
def execBpmRefRelease (handle : Word) (s : State) : Host.Outcome State Fault Refusal :=
  .next (bpmRefOp true { s with chip := (s.chip.setReg Reg.bpmRefHandle handle.toNat).setReg Reg.bpmRef (2 ^ 30) })

/-- BUFFER_WINDOW_ACCESS (R380): a word of the window is read or written. -/
def execBufferWindowAccess (acc : Access) (off : Nat) (wr : Option Word) (s : State) : Host.Outcome State Fault Refusal :=
  let resp := fun (d : Nat) (t : State) => { t with chip := { t.chip with resp := ⟨BitVec.ofNat 32 d, cstOk⟩ } }
  if off % 4 ≠ 0 ∨ 16384 ≤ off ∨ 8 ≤ acc.who then .next s
  else
    match wr with
    | some v => .next (resp 0 (windowWrite off v s))
    | none => .next (resp (windowRead s off) s)

/-- LEAK_AUDIT_SAMPLE (R388): it happens at the boundary of a tick whose number is a multiple of PERIOD; elsewhere the command changes nothing. -/
def execLeakAuditSample (s : State) : Host.Outcome State Fault Refusal :=
  onChip (fun c => if c.tick % c.fld Reg.bpmAuditCfg 11 0 = 0 then c.auditSample else c) s

/-- AUDIT_UNFENCE (R390): the fence of the owner that BPM_AUDIT_SEL names ends. -/
def execAuditUnfence (s : State) : Host.Outcome State Fault Refusal :=
  onChip (fun c => c.unfence (c.fld Reg.bpmAuditSel 11 0)) s

end Sys2Proof.Machine
end

