-- ==== Sys2Proof/Machine/HostOps.lean ====
section
/-! DEFINITION. The host engine's shared operations: functions, statuses and completions (R290, R291, R305, R478). -/

namespace Sys2Proof.Machine

/-- An NVMe status: type, code and Do Not Retry. -/
structure NStat where
  sct : Nat
  sc : Nat
  dnr : Bool
  deriving DecidableEq, Repr

/-- Successful Completion. -/
def stOk : NStat := ⟨0, 0x00, false⟩
/-- Invalid Command Opcode. -/
def stOpcode : NStat := ⟨0, 0x01, true⟩
/-- Invalid Field in Command. -/
def stField : NStat := ⟨0, 0x02, true⟩
/-- Data Transfer Error. -/
def stDma : NStat := ⟨0, 0x04, false⟩
/-- Command Abort Requested. -/
def stAborted : NStat := ⟨0, 0x07, false⟩
/-- Invalid Namespace or Format. -/
def stNs : NStat := ⟨0, 0x0B, true⟩
/-- Namespace Not Ready, DNR = 1: degraded hold (R466). -/
def stNotReady : NStat := ⟨0, 0x82, true⟩
/-- Operation Denied, DNR = 1. -/
def stDenied : NStat := ⟨0, 0x15, true⟩
/-- LBA Out of Range. -/
def stRange : NStat := ⟨0, 0x80, true⟩
/-- Internal Error. -/
def stInternal (dnr : Bool) : NStat := ⟨0, 0x06, dnr⟩

/-- The contexts of R291 that give LIMIT, BUS_ERROR and SEALED their own NVMe statuses. -/
inductive Ctx where
  | other | zoneActive | zoneOpen | queue | nsCount | nsCapacity | dma | zoneReset
  deriving DecidableEq, Repr

/-- The NVMe status of a common status code (R291). -/
def nvmeOf (x : Ctx) (st : Nat) : NStat :=
  match st with
  | 0x00 => stOk
  | 0x01 => ⟨0, 0x21, false⟩
  | 0x02 => stField
  | 0x03 =>
    match x with
    | .zoneActive => ⟨1, 0xBD, true⟩
    | .zoneOpen => ⟨1, 0xBE, true⟩
    | .queue => ⟨1, 0x01, true⟩
    | .nsCount => ⟨1, 0x16, true⟩
    | .nsCapacity => ⟨1, 0x15, true⟩
    | _ => stField
  | 0x04 => stField
  | 0x05 => stField
  | 0x06 => if x = .dma then stDma else stInternal false
  | 0x07 => ⟨2, 0x86, false⟩
  | 0x08 => ⟨0, 0x15, false⟩
  | 0x09 => stInternal false
  | 0x0A => ⟨2, 0x86, true⟩
  | 0x0B => ⟨0, 0x21, false⟩
  | 0x0C => ⟨0, 0x21, false⟩
  | 0x0D => ⟨0, 0x82, false⟩
  | 0x0E => ⟨7, 0xC4, true⟩
  | 0x0F => if x = .zoneReset then ⟨1, 0xBF, true⟩ else stDenied
  | 0x10 => ⟨7, 0xC3, true⟩
  | 0x11 => stDenied
  | 0x12 => ⟨7, 0xC1, false⟩
  | 0x13 => ⟨0, 0x21, false⟩
  | _ => stInternal true

/-- The NVMe status of a detail code of a block (R290, R291). -/
def nvmeDetail (block code : Nat) : NStat :=
  match block, code with
  | 2, 0x80 => ⟨2, 0x81, true⟩
  | 2, 0x81 => ⟨2, 0x81, true⟩
  | 3, 0x80 => ⟨2, 0x81, true⟩
  | 3, 0x81 => ⟨0, 0x21, false⟩
  | 5, 0x80 => ⟨2, 0x81, true⟩
  | 4, 0x86 => stDenied
  | _, _ => stInternal true

/-- A function. -/
def Chip.func (c : Chip) (f : Nat) : Fn := Tab.get (fun _ => Fn.absent) c.fn.fns f

/-- Puts a function. -/
def Chip.setFn (c : Chip) (f : Nat) (x : Fn) : Chip := { c with fn := { c.fn with fns := Tab.set (fun _ => Fn.absent) c.fn.fns f x } }

/-- Changes a function. -/
def Chip.updFn (c : Chip) (f : Nat) (g : Fn → Fn) : Chip := c.setFn f (g (c.func f))

/-- E: the functions that are not DISABLED (R319). -/
def Chip.enabledCount (c : Chip) : Nat := (c.fn.fns.filter (fun p => p.2.phase != .disabled)).length

/-- The function is a PF: VF number 0 of its link. -/
def Chip.isPf (c : Chip) (f : Nat) : Bool := (c.func f).vf == 0

/-- Sends a message on a vector of a function, or sets its PBA bit where the vector is masked (R478, log entry 43). -/
def Chip.msix (c : Chip) (f vec : Nat) : Chip :=
  if !c.obs.unmasked.contains (f, vec) then
    (if c.obs.pba.contains (f, vec) then c else { c with obs := { c.obs with pba := (f, vec) :: c.obs.pba } })
  else { c with obs := { c.obs with msix := (f, vec) :: c.obs.msix } }

/-- Posts a completion to the completion queue of its submission queue; a queue that no longer exists takes none. -/
def Chip.postCqe (c : Chip) (f : Nat) (x : Cqe) : Chip :=
  let fn := c.func f
  match fn.sqs.find? (fun q => q.qid == x.sq) with
  | none => c
  | some q =>
    match fn.cqs.find? (fun k => k.qid == q.cqid) with
    | none => c
    | some k =>
      let c1 := c.setFn f { fn with cqs := updateWhere (fun y => y.qid == k.qid) (fun y => { y with entries := y.entries ++ [x] }) fn.cqs }
      if k.ien then c1.msix f k.iv else c1

/-- Completes an I/O command. -/
def Chip.complete (c : Chip) (cmd : Cmd) (st : NStat) (dw0 dw1 : Nat) : Chip :=
  c.postCqe cmd.fn ⟨cmd.sq, cmd.cid, st.sct, st.sc, st.dnr, dw0, dw1⟩

/-- Completes an I/O command with a common status code; DW0 carries the code (R290). -/
def Chip.completeSt (c : Chip) (cmd : Cmd) (x : Ctx) (st : Nat) : Chip := c.complete cmd (nvmeOf x st) st 0

/-- WP1 has an admin command in hand (R305). -/
def Chip.taken (c : Chip) (cmd : Cmd) : Chip := { c with host := { c.host with admin := c.host.admin ++ [cmd] } }

/-- WP1's reply to an admin command waits for ADMIN_COMPLETION (R305). The reply to a command that a reset squashed is discarded (R327). -/
def Chip.reply (c : Chip) (cmd : Cmd) (st : NStat) (dw0 dw1 : Nat) : Chip :=
  if !c.host.admin.contains cmd then c
  else { c with host := { c.host with
      admin := c.host.admin.erase cmd,
      replies := c.host.replies ++ [(cmd.fn, ⟨cmd.sq, cmd.cid, st.sct, st.sc, st.dnr, dw0, dw1⟩)] } }

/-- WP1's reply with a common status code in DW0 (R290). -/
def Chip.replySt (c : Chip) (cmd : Cmd) (x : Ctx) (st : Nat) : Chip := c.reply cmd (nvmeOf x st) st 0

/-- WP1's reply with an NVMe status that stands for no controller status: DW0 is 0 (log entry 13). -/
def Chip.replyN (c : Chip) (cmd : Cmd) (st : NStat) : Chip := c.reply cmd st 0 0

/-- A namespace by its package index. -/
def Chip.ns (c : Chip) (nsx : Nat) : Option Ns := Tab.get (fun _ => none) c.host.nss nsx

/-- Puts a namespace. -/
def Chip.setNs (c : Chip) (nsx : Nat) (n : Option Ns) : Chip :=
  { c with host := { c.host with nss := Tab.set (fun _ => none) c.host.nss nsx n } }

/-- The contract of a namespace index (R72). -/
def Chip.contract (c : Chip) (nsx : Nat) : Option Contract := Tab.get (fun _ => none) c.cal.contracts nsx

/-- Binds or releases a contract. -/
def Chip.setContract (c : Chip) (nsx : Nat) (k : Option Contract) : Chip :=
  { c with cal := { c.cal with contracts := Tab.set (fun _ => none) c.cal.contracts nsx k } }

/-- Changes a contract that is bound. -/
def Chip.updContract (c : Chip) (nsx : Nat) (g : Contract → Contract) : Chip := c.setContract nsx ((c.contract nsx).map g)

/-- Changes a namespace that exists. -/
def Chip.updNs (c : Chip) (nsx : Nat) (g : Ns → Ns) : Chip :=
  match c.ns nsx with
  | none => c
  | some n => c.setNs nsx (some (g n))

/-- A zone of a namespace by number. -/
def Ns.zone (n : Ns) (z : Nat) : Zone := Tab.get (fun _ => Zone.fresh) n.zones z

/-- Puts a zone. -/
def Ns.setZone (n : Ns) (z : Nat) (x : Zone) : Ns := { n with zones := Tab.set (fun _ => Zone.fresh) n.zones z x }

/-- A zone of a namespace that exists; a fresh one otherwise. -/
def Chip.zone (c : Chip) (nsx z : Nat) : Zone :=
  match c.ns nsx with
  | none => Zone.fresh
  | some n => n.zone z

/-- Changes a zone. -/
def Chip.updZone (c : Chip) (nsx z : Nat) (g : Zone → Zone) : Chip := c.updNs nsx (fun n => n.setZone z (g (n.zone z)))

/-- The package namespace index of an NSID (log entry 14): NSID - 1. -/
def nsxOf (nsid : Nat) : Nat := nsid - 1

/-- The lifecycle state refuses host commands other than those that R377 names. -/
def lifecycleRefuses (s : State) : Bool := s.fuse.lifecycle == .blank || s.fuse.lifecycle == .retired

end Sys2Proof.Machine
end

