-- ==== Sys2Proof/Machine/Dlog.lean ====
section
/-! DEFINITION. Dirty-page logging and the fallback translation unit (R331-R338). -/

namespace Sys2Proof.Machine

/-! Dirty-page logging. -/

/-- Records of a slot's ring. -/
def Chip.dlogSize (c : Chip) (s : Nat) : Nat := 2 ^ c.fld (Reg.fnDlogSize s) 4 0

/-- A logging slot. -/
def Chip.dlogSlot (c : Chip) (s : Nat) : DlogSlot := c.fn.dlog.getD s DlogSlot.idle

/-- Changes a logging slot. -/
def Chip.updDlog (c : Chip) (s : Nat) (g : DlogSlot → DlogSlot) : Chip := { c with fn := { c.fn with dlog := updateAt c.fn.dlog s g } }

/-- A slot records a page (R331-R334). `t`: the address was translated. -/
def Chip.dlogPut (c : Chip) (s page : Nat) (t : Bool) : Chip :=
  let x := c.dlogSlot s
  if x.ovf || x.filter.contains page then c
  else
    let n := c.dlogSize s
    if (x.tail + 1) % n = c.fld (Reg.fnDlogHead s) 23 0 % n then c.updDlog s (fun x => { x with ovf := true })
    else
      let c1 := c.updDlog s (fun x => { x with
        tail := (x.tail + 1) % n
        filter := if x.filter.length < 65536 then insertNat page x.filter else x.filter })
      { c1 with fn := { c1.fn with
        dlogOut := c1.fn.dlogOut ++ [(c.reg (Reg.fnDlogBase s) / 8 * 8 + x.tail * 8, page % 2 ^ 52 * 4096 + 2 * b2n t + 1)] } }

/-- A DMA write of a function touches a page of host memory: the slot that follows the function records it. -/
def Chip.dlogPage (c : Chip) (fn page : Nat) (t : Bool) : Chip :=
  match firstIdx (fun (x : DlogSlot) => x.active && x.fn == fn) c.fn.dlog with
  | none => c
  | some s => c.dlogPut s page t

/-- A DMA write of `n` bytes to host memory at pages that the command's PRPs name and the table does not (log entry 12). -/
def Chip.dmaWrite (c : Chip) (fn n : Nat) : Chip :=
  (List.range (ceilDiv n 4096)).foldl
    (fun c _ => ({ c with free := c.free + 1 }).dlogPage fn (Config.open_ c.free % 2 ^ 52) (c.func fn).ats) c

/-- An answer's data goes to the host of a function by DMA. -/
def Chip.answerDma (c : Chip) (fn : Nat) (bs : List Byte) : Chip :=
  let c1 := c.dmaWrite fn bs.length
  { c1 with host := { c1.host with reply := (fn, bs) } }

/-- The records on their way reach the rings in the DRAM aperture (R331). A record outside the aperture is lost. -/
def flushDlog (s : State) : State :=
  let put := fun (m : Mem) (p : Nat × Nat) => if 0x80000000 ≤ p.1 then Mem.writeLe m (p.1 - 0x80000000) 8 p.2 else m
  { s with
    mem := { s.mem with dram := s.chip.fn.dlogOut.foldl put s.mem.dram }
    chip := { s.chip with fn := { s.chip.fn with dlogOut := [] } } }

/-- A command whose effect lies in the controller's state and in the dirty-page rings. -/
def onHost (f : Chip → Chip) (s : State) : Host.Outcome State Fault Refusal := .next (flushDlog { s with chip := f s.chip })

/-- An admin command of a function in service: WP1 takes it (R305), then its effect. -/
def adminOp (cmd : Cmd) (f : State → State) (s : State) : State :=
  if (s.chip.func cmd.fn).phase = .enabled ∧ s.chip.pmu.flush = none then flushDlog (f { s with chip := s.chip.taken cmd }) else s

/-- An admin command whose effect lies in the controller's state. -/
def adminChip (cmd : Cmd) (f : State → Chip → Chip) (s : State) : Host.Outcome State Fault Refusal :=
  .next (adminOp cmd (fun s => { s with chip := f s s.chip }) s)

/-- START of a slot (R334, R335): its status. -/
def Chip.dlogStart (c : Chip) (s fn : Nat) : Chip :=
  if 8 ≤ s || (c.fn.dlog.zipIdx.any (fun p => p.1.active && p.1.fn == fn && p.2 != s)) then
    if 8 ≤ s then c else c.updDlog s (fun x => { x with status := cstLimit })
  else (c.setReg (Reg.fnDlogHead s) 0).updDlog s (fun _ => ⟨true, fn, false, 0, [], false, false, 0, cstOk⟩)

/-- STOP of a slot: the ring is kept (R335). -/
def Chip.dlogStop (c : Chip) (s : Nat) : Chip := c.updDlog s (fun x => { x with active := false })

/-- CUT (R333): ignored before an earlier cut has taken effect. -/
def Chip.dlogCut (c : Chip) (s : Nat) : Chip :=
  c.updDlog s (fun x => if x.cutPending then x else { x with cutPending := true, cutDone := false })

/-- At the boundary the epochs that were cut end (R333). -/
def Chip.dlogBoundary (c : Chip) : Chip :=
  { c with fn := { c.fn with dlog := c.fn.dlog.map (fun x =>
    if x.cutPending then { x with cutPending := false, cutDone := true, cutIdx := x.tail, filter := [] } else x) } }

/-- A reset of a function stops its slot and keeps the ring (R335). -/
def Chip.dlogStopFn (c : Chip) (fn : Nat) : Chip :=
  { c with fn := { c.fn with dlog := updateWhere (fun x => x.fn == fn) (fun x => { x with active := false }) c.fn.dlog } }

/-! The translation cache. -/

/-- A DMA of a command waits for a translation. -/
def Chip.ftuWaits (c : Chip) (cmd : Cmd) : Bool := c.fn.ftuReqs.any (fun r => r.cmd == some cmd)

/-- Looks up a page for a DMA of a command (R336, R337): a hit moves to the end of its list, an untranslated-only hit counts a fallback, a miss sends a
request that the command waits for. -/
def Chip.ftuLookup (c : Chip) (cmd : Cmd) (pasid : Option Nat) (page : Nat) : Chip :=
  if !(c.func cmd.fn).ats then c
  else
    match c.fn.ftu.find? (fun x => x.fn == cmd.fn && x.pasid == pasid && x.page == page) with
    | some x =>
      let c1 := { c with fn := { c.fn with ftu := c.fn.ftu.erase x ++ [x] } }
      if x.target.isNone then c1.bump Reg.fnFtuStat 31 16 1 else c1
    | none =>
      { c with fn := { c.fn with
        ftuReqs := c.fn.ftuReqs ++ ([⟨c.fn.ftuNext, cmd.fn, pasid, page, some cmd, c.tick, false⟩] : List FtuReq)
        ftuNext := c.fn.ftuNext + 1 } }.bump Reg.fnFtuStat 15 0 1

/-- The DMAs of a command that moves `n` pages (log entry 12). -/
def Chip.ftuCommand (c : Chip) (cmd : Cmd) (n : Nat) : Chip :=
  if !(c.func cmd.fn).ats then c
  else (List.range n).foldl (fun c _ => ({ c with free := c.free + 1 }).ftuLookup cmd none (Config.open_ c.free % 2 ^ 52)) c

/-- Stores an entry in its function's share: the least recently used one of the function makes room (R336). -/
def Chip.ftuStore (c : Chip) (x : FtuEntry) : Chip :=
  let mine := c.fn.ftu.filter (fun y => y.fn == x.fn)
  let l := if mine.length < c.fn.shares.ftu then c.fn.ftu else match mine with | [] => c.fn.ftu | y :: _ => c.fn.ftu.erase y
  if c.fn.shares.ftu = 0 then c else { c with fn := { c.fn with ftu := l ++ [x] } }

/-- A translation ends (R337, R338): what is stored, and the request that ends. -/
def Chip.ftuEnd (c : Chip) (r : FtuReq) (res : AtsResult) : Chip :=
  let c1 := { c with fn := { c.fn with ftuReqs := c.fn.ftuReqs.filter (fun q => q.id != r.id) } }
  match res with
  | .granted t => if r.noStore then c1 else c1.ftuStore ⟨r.fn, r.pasid, r.page, some t⟩
  | .untranslatedOnly => (if r.noStore then c1 else c1.ftuStore ⟨r.fn, r.pasid, r.page, none⟩).bump Reg.fnFtuStat 31 16 1
  | .denied => c1

/-- An invalidation (R338): matching entries go at once, and outstanding translations of the range are not stored. -/
def Chip.ftuInvalidate (c : Chip) (fn : Nat) (pasid : Option Nat) (page n : Nat) : Chip :=
  let hit := fun (f : Nat) (q : Option Nat) (p : Nat) => f == fn && q == pasid && decide (page ≤ p) && decide (p < page + n)
  { c with fn := { c.fn with
    ftu := c.fn.ftu.filter (fun x => !hit x.fn x.pasid x.page)
    ftuReqs := updateWhere (fun (r : FtuReq) => hit r.fn r.pasid r.page) (fun r => { r with noStore := true }) c.fn.ftuReqs } }

/-! The rows. -/

/-- DLOG_START (R335): the slot's FN is written with START. -/
def execDlogStart (slot fn : Nat) (s : State) : Host.Outcome State Fault Refusal :=
  onChip (fun c => (if slot < 8 then c.setFld (Reg.fnDlogCtrl slot) 7 0 fn else c).dlogStart slot fn) s

/-- DLOG_STOP (R334). -/
def execDlogStop (slot : Nat) (s : State) : Host.Outcome State Fault Refusal := onChip (fun c => c.dlogStop slot) s

/-- DLOG_CUT (R333). -/
def execDlogCut (slot : Nat) (s : State) : Host.Outcome State Fault Refusal := onChip (fun c => c.dlogCut slot) s

/-- ATS_INVALIDATE (R338). -/
def execAtsInvalidate (fn : Nat) (pasid : Option Nat) (page pages : Nat) (s : State) : Host.Outcome State Fault Refusal :=
  onChip (fun c => c.ftuInvalidate fn pasid page pages) s

end Sys2Proof.Machine
end

