-- ==== Sys2Proof/Machine/Crypto.lean ====
section
/-! DEFINITION. SHA-256, AES-256 with XTS and GCM, and the DEFLATE expander, which the manual takes from their standards by name. -/

namespace Sys2Proof.Machine

/-! SHA-256 (FIPS 180-4). -/

/-- The round constants. -/
def shaK : List Word := [
  0x428a2f98, 0x71374491, 0xb5c0fbcf, 0xe9b5dba5, 0x3956c25b, 0x59f111f1, 0x923f82a4, 0xab1c5ed5,
  0xd807aa98, 0x12835b01, 0x243185be, 0x550c7dc3, 0x72be5d74, 0x80deb1fe, 0x9bdc06a7, 0xc19bf174,
  0xe49b69c1, 0xefbe4786, 0x0fc19dc6, 0x240ca1cc, 0x2de92c6f, 0x4a7484aa, 0x5cb0a9dc, 0x76f988da,
  0x983e5152, 0xa831c66d, 0xb00327c8, 0xbf597fc7, 0xc6e00bf3, 0xd5a79147, 0x06ca6351, 0x14292967,
  0x27b70a85, 0x2e1b2138, 0x4d2c6dfc, 0x53380d13, 0x650a7354, 0x766a0abb, 0x81c2c92e, 0x92722c85,
  0xa2bfe8a1, 0xa81a664b, 0xc24b8b70, 0xc76c51a3, 0xd192e819, 0xd6990624, 0xf40e3585, 0x106aa070,
  0x19a4c116, 0x1e376c08, 0x2748774c, 0x34b0bcb5, 0x391c0cb3, 0x4ed8aa4a, 0x5b9cca4f, 0x682e6ff3,
  0x748f82ee, 0x78a5636f, 0x84c87814, 0x8cc70208, 0x90befffa, 0xa4506ceb, 0xbef9a3f7, 0xc67178f2]

/-- The initial hash value. -/
def shaInit : List Word :=
  [0x6a09e667, 0xbb67ae85, 0x3c6ef372, 0xa54ff53a, 0x510e527f, 0x9b05688c, 0x1f83d9ab, 0x5be0cd19]

/-- The message schedule, newest word first: `n` words more. -/
def shaSchedule : Nat → List Word → List Word
  | 0, w => w
  | n + 1, w =>
    let a := (w[1]?).getD 0
    let b := (w[14]?).getD 0
    let s1 := a.rotateRight 17 ^^^ a.rotateRight 19 ^^^ (a >>> 10)
    let s0 := b.rotateRight 7 ^^^ b.rotateRight 18 ^^^ (b >>> 3)
    shaSchedule n ((s1 + (w[6]?).getD 0 + s0 + (w[15]?).getD 0) :: w)

/-- One round on the eight working variables. -/
def shaRound (v : List Word) (kw : Word × Word) : List Word :=
  match v with
  | [a, b, c, d, e, f, g, h] =>
    let t1 := h + (e.rotateRight 6 ^^^ e.rotateRight 11 ^^^ e.rotateRight 25) + ((e &&& f) ^^^ (~~~e &&& g)) + kw.1 + kw.2
    let t2 := (a.rotateRight 2 ^^^ a.rotateRight 13 ^^^ a.rotateRight 22) + ((a &&& b) ^^^ (a &&& c) ^^^ (b &&& c))
    [t1 + t2, a, b, c, d + t1, e, f, g]
  | _ => v

/-- The words of a block of 64 bytes, big-endian. -/
def beWords : List Byte → List Word
  | a :: b :: c :: d :: t => BitVec.ofNat 32 (beNat [a, b, c, d]) :: beWords t
  | _ => []

/-- The compression of one block. -/
def shaBlock (h : List Word) (blk : List Byte) : List Word :=
  let w := (shaSchedule 48 (beWords blk).reverse).reverse
  List.zipWith (· + ·) h ((shaK.zip w).foldl shaRound h)

/-- Folds a padded message block by block; `n` bounds the blocks. -/
def shaFold : Nat → List Word → List Byte → List Word
  | 0, h, _ => h
  | n + 1, h, m => if m.length < 64 then h else shaFold n (shaBlock h (m.take 64)) (m.drop 64)

/-- The padding of a message of `len` bytes. -/
def shaPad (len : Nat) : List Byte := 0x80 :: List.replicate ((119 - len % 64) % 64) 0 ++ beBytes 8 (8 * len)

/-- SHA-256 of a message: 32 bytes. -/
def sha256 (m : List Byte) : List Byte :=
  let p := m ++ shaPad m.length
  (shaFold (p.length / 64) shaInit p).flatMap (fun w => beBytes 4 w.toNat)

/-- SHA-256 of a whole sector (R251): its 4,096 bytes. -/
def sectorDigest (s : Sector) : List Byte := sha256 (fullSector s)

/-! AES-256 (FIPS 197). -/

/-- Multiplication by x in the field of AES. -/
def xtime (b : Byte) : Byte := if b.msb then (b <<< 1) ^^^ 0x1b else b <<< 1

/-- The product of two bytes in the field of AES; the first argument counts the bits left. -/
def gmul : Nat → Byte → Byte → Byte
  | 0, _, _ => 0
  | n + 1, a, b => (if b.getLsbD 0 then a else 0) ^^^ gmul n (xtime a) (b >>> 1)

/-- The `n`-th power in the field, by repeated multiplication. -/
def gpow (a : Byte) : Nat → Byte
  | 0 => 1
  | n + 1 => gmul 8 a (gpow a n)

/-- The S-box: the inverse (the 254th power), then the affine map. -/
def sbox (b : Byte) : Byte :=
  let i := gpow b 254
  i ^^^ i.rotateLeft 1 ^^^ i.rotateLeft 2 ^^^ i.rotateLeft 3 ^^^ i.rotateLeft 4 ^^^ 0x63

/-- The inverse S-box. -/
def invSbox (b : Byte) : Byte := gpow (b.rotateLeft 1 ^^^ b.rotateLeft 3 ^^^ b.rotateLeft 6 ^^^ 0x05) 254

/-- Byte-wise XOR of two lists. -/
def xorBytes (a b : List Byte) : List Byte := List.zipWith (· ^^^ ·) a b

/-- The key schedule: `n` further words of 4 bytes after those listed, newest first. -/
def aesExpand : Nat → Nat → List (List Byte) → List (List Byte)
  | 0, _, w => w
  | n + 1, i, w =>
    let p := (w[0]?).getD []
    let t :=
      if i % 8 = 0 then xorBytes ((p.drop 1 ++ p.take 1).map sbox) [gpow 2 (i / 8 - 1), 0, 0, 0]
      else if i % 8 = 4 then p.map sbox
      else p
    aesExpand n (i + 1) (xorBytes t ((w[7]?).getD []) :: w)

/-- Lists of `n` pieces of `k` bytes. -/
def pieces (k : Nat) : Nat → List Byte → List (List Byte)
  | 0, _ => []
  | n + 1, l => l.take k :: pieces k n (l.drop k)

/-- The 15 round keys of a 32-byte key. -/
def aesKeys (key : List Byte) : List (List Byte) :=
  let w := (aesExpand 52 8 (pieces 4 8 (sliceBytes key 0 32)).reverse).reverse
  pieces 16 15 w.flatten

/-- ShiftRows; `inv` turns it back. -/
def shiftRows (inv : Bool) (s : List Byte) : List Byte :=
  (List.range 16).map (fun i => (s[if inv then (13 * i) % 16 else (5 * i) % 16]?).getD 0)

/-- MixColumns of one column by the circulant of `m`. -/
def mixColumn (m : List Byte) (col : List Byte) : List Byte :=
  (List.range 4).map (fun i => (List.range 4).foldl (fun x j => x ^^^ gmul 8 ((m[(j + 4 - i) % 4]?).getD 0) ((col[j]?).getD 0)) 0)

/-- MixColumns of a state. -/
def mixColumns (m : List Byte) (s : List Byte) : List Byte := (pieces 4 4 s).flatMap (mixColumn m)

/-- One block enciphered. -/
def aesEnc (key blk : List Byte) : List Byte :=
  match aesKeys key with
  | k0 :: ks =>
    (ks.zip (List.range 14)).foldl
      (fun s kr =>
        let t := shiftRows false (s.map sbox)
        xorBytes (if kr.2 = 13 then t else mixColumns [2, 3, 1, 1] t) kr.1) (xorBytes (sliceBytes blk 0 16) k0)
  | [] => blk

/-- One block deciphered. -/
def aesDec (key blk : List Byte) : List Byte :=
  match (aesKeys key).reverse with
  | k0 :: ks =>
    (ks.zip (List.range 14)).foldl
      (fun s kr =>
        let t := xorBytes ((shiftRows true s).map invSbox) kr.1
        if kr.2 = 13 then t else mixColumns [14, 11, 13, 9] t) (xorBytes (sliceBytes blk 0 16) k0)
  | [] => blk

/-! XTS (IEEE 1619). -/

/-- The next tweak of a data unit: multiplication by x, little-endian. -/
def tweakNext (t : List Byte) : List Byte :=
  let v := leNat t
  leBytes 16 (Nat.xor (2 * v % 2 ^ 128) (if 2 ^ 127 ≤ v then 0x87 else 0))

/-- One full block under a tweak. -/
def xtsBlock (enc : Bool) (k1 t b : List Byte) : List Byte := xorBytes (if enc then aesEnc k1 (xorBytes b t) else aesDec k1 (xorBytes b t)) t

/-- A data unit from a tweak on, with ciphertext stealing for a last part block; `n` bounds the blocks. -/
def xtsUnit (enc : Bool) (k1 : List Byte) : Nat → List Byte → List Byte → List Byte
  | 0, _, d => d
  | n + 1, t, d =>
    if d.length < 16 then d
    else if d.length % 16 ≠ 0 ∧ d.length < 32 then
      let r := d.length - 16
      let (ta, tb) := if enc then (t, tweakNext t) else (tweakNext t, t)
      let cc := xtsBlock enc k1 ta (d.take 16)
      let last := d.drop 16 ++ cc.drop r
      xtsBlock enc k1 tb last ++ cc.take r
    else xtsBlock enc k1 t (d.take 16) ++ xtsUnit enc k1 n (tweakNext t) (d.drop 16)

/-- XTS of one data unit under a 64-byte key (K1 then K2) and a tweak number (R263). -/
def xts (enc : Bool) (key : List Byte) (tweak : Nat) (d : List Byte) : List Byte :=
  xtsUnit enc (key.take 32) (d.length / 16 + 1) (aesEnc (key.drop 32) (leBytes 16 tweak)) d

/-- XTS of consecutive data units of `unit` bytes under consecutive tweaks; `n` bounds the units. -/
def xtsUnits (enc : Bool) (key : List Byte) (unit : Nat) : Nat → Nat → List Byte → List Byte
  | 0, _, d => d
  | n + 1, tweak, d =>
    if d.length = 0 then [] else xts enc key tweak (d.take unit) ++ xtsUnits enc key unit n (tweak + 1) (d.drop unit)

/-! GCM (NIST SP 800-38D). -/

/-- The product in the field of GHASH, bit 0 first: `n` bits of `x` left. -/
def ghMul : Nat → Nat → Nat → Nat → Nat
  | 0, _, _, z => z
  | n + 1, x, v, z =>
    ghMul n x (if v % 2 = 1 then Nat.xor (v / 2) 0xE1000000000000000000000000000000 else v / 2) (if x.testBit n then Nat.xor z v else z)

/-- GHASH of 16-byte blocks; `n` bounds them. -/
def ghash (h : Nat) : Nat → Nat → List Byte → Nat
  | 0, y, _ => y
  | n + 1, y, d => if d.length = 0 then y else ghash h n (ghMul 128 (Nat.xor y (beNat (sliceBytes d 0 16))) h 0) (d.drop 16)

/-- Zeros that fill a list to whole blocks. -/
def padBlock (d : List Byte) : List Byte := d ++ List.replicate ((16 - d.length % 16) % 16) 0

/-- Counter mode from a counter block on; `n` bounds the blocks. -/
def gctr (key : List Byte) (iv : List Byte) : Nat → Nat → List Byte → List Byte
  | 0, _, _ => []
  | n + 1, i, d => if d.length = 0 then [] else xorBytes (d.take 16) (aesEnc key (iv ++ beBytes 4 i)) ++ gctr key iv n (i + 1) (d.drop 16)

/-- The tag of a ciphertext and its AAD under a 96-bit IV. -/
def gcmTag (key iv aad ct : List Byte) : List Byte :=
  let h := beNat (aesEnc key (List.replicate 16 0))
  let m := padBlock aad ++ padBlock ct ++ beBytes 8 (8 * aad.length) ++ beBytes 8 (8 * ct.length)
  xorBytes (beBytes 16 (ghash h (m.length / 16 + 1) 0 m)) (aesEnc key (iv ++ beBytes 4 1))

/-- GCM in counter mode: the same for encryption and decryption. -/
def gcmCrypt (key iv d : List Byte) : List Byte := gctr key iv (d.length / 16 + 1) 2 d

/-! CRC-32C. -/

/-- One byte into the register. -/
def crcByte (r : Nat) (b : Byte) : Nat :=
  (List.range 8).foldl (fun x _ => if x % 2 = 1 then Nat.xor (x / 2) 0x82F63B78 else x / 2) (Nat.xor r b.toNat)

/-- CRC-32C of a message. -/
def crc32c (m : List Byte) : Nat := Nat.xor (m.foldl crcByte 0xFFFFFFFF) 0xFFFFFFFF

end Sys2Proof.Machine
end

