-- ==== Sys2Proof/Machine/Keys.lean ====
section
/-! DEFINITION. The key store: slots, cipher pages, generation, erase and rewrite with their drain and vault, and the zeroing of R359
(R339-R351). -/

namespace Sys2Proof.Machine

/-- A key slot. -/
def Chip.slot (c : Chip) (i : Nat) : KeySlot := Tab.get (fun _ => KeySlot.empty) c.key.slots i

/-- Puts a key slot. -/
def Chip.setSlot (c : Chip) (i : Nat) (x : KeySlot) : Chip :=
  { c with key := { c.key with slots := Tab.set (fun _ => KeySlot.empty) c.key.slots i x } }

/-- The slot that an entry of a page names: fixed on the secure pages (R339), one more than the entry on a user page; none for an empty entry. -/
def Chip.pageSlot (c : Chip) (page index : Nat) : Option Nat :=
  if 256 ≤ page then
    let i := (page - 256) * 16 + index
    if (c.slot i).state = .empty then none else some i
  else
    match Tab.get (fun _ => 0) c.key.pages (page * 16 + index) with
    | 0 => none
    | n + 1 => some n

/-- Sets or clears an entry of a user page; the entries of secure pages are fixed. -/
def Chip.setPage (c : Chip) (page index : Nat) (slot : Option Nat) : Chip :=
  if 256 ≤ page then c
  else { c with key := { c.key with pages := Tab.set (fun _ => 0) c.key.pages (page * 16 + index) (match slot with | none => 0 | some i => i + 1) } }

/-- User slots that a page holds, those of running generations included (R343). -/
def Chip.pageHolds (c : Chip) (page : Nat) : Nat :=
  ((List.range 16).filter (fun i => decide (0 < Tab.get (fun _ => 0) c.key.pages (page * 16 + i)))).length +
    (c.key.jobs.filter (fun j => decide (j.op ≤ 1) && j.page == page)).length

/-- The user slots in use or set aside for a running generation, rising. -/
def Chip.userSlotsUsed (c : Chip) : List Nat :=
  let used := (c.key.slots.filter (fun p => decide (128 ≤ p.1) && p.2.state != .empty)).map (·.1)
  c.key.jobs.foldl (fun l j => if 128 ≤ j.slot then insertNat j.slot l else l) used

/-- The share of user slots of a function (R343). -/
def Chip.keyShare (c : Chip) : Nat := Nat.min 16 (896 / Nat.max 1 c.enabledCount)

/-- A key operation runs that the KEY_CMD register started (R505). -/
def Chip.keyBusy (c : Chip) : Bool := c.key.jobs.any (·.byReg)

/-- The secure entries that only the key store's own paths write (R340). -/
def keyReserved (page index : Nat) : Bool := page == 256 || (page == 257 && decide (index < 4))

/-- The checks of a key operation in the order of R39 (R340, R343, R344, R346, R348). `op` is KEY_CMD.OP. -/
def Chip.keyCheck (c : Chip) (lc : Lifecycle) (op slot page index : Nat) : Nat :=
  let named := if op = 4 then some slot else c.pageSlot page index
  let isEmpty := if op = 4 then (c.slot slot).state == .empty else named.isNone
  let user := if op = 4 then decide (128 ≤ slot) else decide (page < 256)
  let draining := match named with | some i => (c.slot i).state == .draining | none => false
  let pendingGen := c.key.jobs.any (fun j => j.page == page && j.index == index && decide (j.op ≤ 1))
  firstFail [
    (decide (6 ≤ op) || (op != 4 && decide (264 ≤ page)) || (decide (op ≤ 3) && keyReserved page index) || (op == 4 && decide (slot < 20)) ||
      (decide (op ≤ 1) && (!isEmpty || pendingGen)) || ((op == 2 || op == 3 || (op == 4 && decide (slot < 1024))) && isEmpty), cstBad),
    ((op == 4 && decide (1024 ≤ slot)) ||
      (decide (op ≤ 1) && decide (page < 256) && (decide (c.keyShare ≤ c.pageHolds page) || decide (896 ≤ c.userSlotsUsed.length))), cstLimit),
    ((op == 2 || op == 3 || op == 4) && user && lc == .hold, cstHold),
    ((decide (op ≤ 1) || op == 3) && (!c.key.entropy || c.key.locked) || (op == 5 && c.key.locked), cstKey),
    ((op == 2 || op == 3 || op == 4) && draining, cstBusy)]

/-- Bytes of a key of a type: two AES-256 keys or one (R341). -/
def keyBytes (type : Nat) : Nat := if type = 1 then 64 else 32

/-- A fresh key of a type from the DRBG (R344, log entry 9). -/
def Chip.freshKey (c : Chip) (type : Nat) : List Byte × Chip :=
  (sliceBytes (Config.drbg c.free (keyBytes type)) 0 (keyBytes type), { c with free := c.free + 1 })

/-- A GCM reservation block (R351). -/
def gcmBlock : Nat := 2 ^ 24

/-- Reloads a page's keys from the vault (R340, R345). A GCM counter restarts at the recorded reservation end (R351). -/
def Chip.reloadPage (c : Chip) (page : Nat) : Chip :=
  (c.key.vault.filter (fun v => v.page == page && !(page == 257 && decide (v.index < 4)))).foldl
    (fun c v => (c.setSlot v.slot ⟨.valid, v.type, v.key, 0, v.resv, v.resv⟩).setPage v.page v.index (some v.slot)) c

/-- Ends a key operation: KEY_CMD_RES, or WP0's answer to the Security Send (R291). -/
def Chip.keyFinish (c : Chip) (j : KeyJob) (st : Nat) : Chip :=
  let c1 := { c with key := { c.key with jobs := c.key.jobs.erase j } }
  if j.byReg then (c1.setReg Reg.keyCmdRes (2 ^ 31 + j.slot % 1024 * 65536 + st)).setBit Reg.keyCmd 31 false
  else
    match j.cmd with
    | some cmd => c1.replySt cmd .other st
    | none => c1

/-- Starts a key operation (R340-R347). A refused one ends at once and changes nothing else. -/
def Chip.keyStart (c : Chip) (lc : Lifecycle) (op slot page index : Nat) (byReg : Bool) (cmd : Option Cmd) : Chip :=
  let j0 : KeyJob := ⟨op, slot, page, index, [], false, false, byReg, cmd⟩
  let st := c.keyCheck lc op slot page index
  if st ≠ cstOk then c.keyFinish j0 st
  else if op ≤ 1 then
    let type := if 256 ≤ page then 3 else op + 1
    let (i, c1) :=
      if 256 ≤ page then ((page - 256) * 16 + index, c)
      else
        let used := c.userSlotsUsed.map (· - 128)
        let (k, c1) := c.pick (896 - used.length)
        (128 + kthFree used 0 k, c1)
    let (key, c2) := c1.freshKey (if type = 3 then op + 1 else type)
    { c2 with key := { c2.key with jobs := c2.key.jobs ++ [{ j0 with slot := i, key := key, drained := true }] } }
  else if op = 5 then (c.reloadPage page).keyFinish j0 cstOk
  else
    let i := if op = 4 then slot else ((c.pageSlot page index).getD 0)
    let x := c.slot i
    let (key, c1) := if op = 3 then c.freshKey x.type else ([], c)
    let c2 := c1.setSlot i { x with state := .draining }
    { c2 with key := { c2.key with jobs := c2.key.jobs ++ [{ j0 with slot := i, key := key }] } }

/-- The slot of a draining operation has no user left: an erase zeroes it, a rewrite places the new key (R347). -/
def Chip.keyDrained (c : Chip) (i : Nat) : Chip :=
  match c.key.jobs.find? (fun j => j.slot == i && !j.drained) with
  | none => c
  | some j =>
    if (c.slot i).users ≠ 0 then c
    else
      let c1 := { c with key := { c.key with jobs := updateWhere (fun y => y == j) (fun y => { y with drained := true }) c.key.jobs } }
      if j.op = 3 then c1.setSlot i { c.slot i with key := j.key, ctr := 0, resv := gcmBlock }
      else
        let c2 := c1.setSlot i KeySlot.empty
        { c2 with key := { c2.key with pages := c2.key.pages.filter (fun p => p.2 != i + 1) } }

/-- The vault without a slot's key. -/
def vaultDrop (v : List VaultKey) (slot : Nat) : List VaultKey := v.filter (fun x => x.slot != slot)

/-- The page and index that name a slot. -/
def Chip.slotName (c : Chip) (i : Nat) : Nat × Nat :=
  if i < 128 then (256 + i / 16, i % 16)
  else match c.key.pages.find? (fun p => p.2 == i + 1) with
    | some p => (p.1 / 16, p.1 % 16)
    | none => (0, 0)

/-- Both vault copies hold the result of the oldest operation that has drained (R345): a generation's slot becomes VALID and its index names it,
an erase completes, a rewrite waits for the next boundary (R347), and a GCM slot's next reservation (a job with operation 6) is in force (R351). -/
def Chip.vaultUpdated (c : Chip) : Chip :=
  match c.key.jobs.find? (fun j => j.drained && !j.vaulted) with
  | none => c
  | some j =>
    if j.op ≤ 1 then
      let type := if 256 ≤ j.page then 3 else j.op + 1
      let c1 := (c.setSlot j.slot ⟨.valid, type, j.key, 0, 0, gcmBlock⟩).setPage j.page j.index (some j.slot)
      let v := vaultDrop c1.key.vault j.slot ++ [⟨j.page, j.index, j.slot, type, j.key, gcmBlock⟩]
      { c1 with key := { c1.key with vault := v } }.keyFinish j cstOk
    else if j.op = 3 then
      let (p, i) := c.slotName j.slot
      let v := vaultDrop c.key.vault j.slot ++ [⟨p, i, j.slot, (c.slot j.slot).type, j.key, gcmBlock⟩]
      { c with key := { c.key with vault := v, jobs := updateWhere (fun y => y == j) (fun y => { y with vaulted := true }) c.key.jobs } }
    else if j.op = 6 then
      let x := c.slot j.slot
      let c1 := if x.state ≠ .empty ∧ x.key = j.key then
          { c.setSlot j.slot { x with resv := x.resv + gcmBlock } with key := { (c.setSlot j.slot { x with resv := x.resv + gcmBlock }).key with
            vault := updateWhere (fun v => v.slot == j.slot) (fun v => { v with resv := x.resv + gcmBlock }) c.key.vault } }
        else c
      c1.keyFinish j cstOk
    else { c with key := { c.key with vault := vaultDrop c.key.vault j.slot } }.keyFinish j cstOk

/-- At a boundary, every rewrite whose key both vault copies hold becomes VALID and completes (R347). -/
def Chip.keyBoundary (c : Chip) : Chip :=
  (c.key.jobs.filter (·.vaulted)).foldl (fun c j => (c.setSlot j.slot { c.slot j.slot with state := .valid }).keyFinish j cstOk) c

/-- Every slot is zeroed and every running operation completes with KEY_UNAVAILABLE (R349, R359). -/
def Chip.keyZero (c : Chip) : Chip :=
  let c1 := { c with key := { c.key with slots := [], pages := [] } }
  c.key.jobs.foldl (fun c j => c.keyFinish j cstKey) c1

/-- WP0 derives slots 2 and 3 and reloads every other key from the vault (R345); nothing is loaded while the KILL fuse withholds the secret. -/
def Chip.keyReloadAll (c : Chip) (kill : Bool) : Chip :=
  if kill then c
  else
    let c1 := (c.setSlot 2 ⟨.valid, 3, sliceBytes (Config.derive 2) 0 32, 0, 0, 0⟩).setSlot 3 ⟨.valid, 3, sliceBytes (Config.derive 3) 0 48, 0, 0, 0⟩
    (List.range 264).foldl (fun c p => if c.key.vault.any (fun v => v.page == p) then c.reloadPage p else c) c1

/-! The meanings of the rows. -/

/-- The KEY_CMD word of an operation. -/
def keyWord (op slot page index : Nat) : Nat := op * 2 ^ 28 + slot % 2048 * 2 ^ 16 + page % 512 * 2 ^ 7 + index % 16 * 8

/-- KEY_CMD written with GO (R505): while an operation runs it starts nothing and changes nothing. -/
def keyCommand (op slot page index : Nat) (s : State) : State :=
  if s.chip.keyBusy then s
  else
    let c := (s.chip.setReg Reg.keyCmd (keyWord op slot page index + 2 ^ 31)).setReg Reg.keyCmdRes 0
    { s with chip := c.keyStart s.fuse.lifecycle op (slot % 2048) (page % 512) (index % 16) true none }

/-- KEY_GENERATE_XTS (R344). -/
def execKeyGenerateXts (page index : Nat) (s : State) : Host.Outcome State Fault Refusal := .next (keyCommand 0 0 page index s)

/-- KEY_GENERATE_GCM (R344). -/
def execKeyGenerateGcm (page index : Nat) (s : State) : Host.Outcome State Fault Refusal := .next (keyCommand 1 0 page index s)

/-- KEY_ERASE_INDEX (R347). -/
def execKeyEraseIndex (page index : Nat) (s : State) : Host.Outcome State Fault Refusal := .next (keyCommand 2 0 page index s)

/-- KEY_REWRITE (R347). -/
def execKeyRewrite (page index : Nat) (s : State) : Host.Outcome State Fault Refusal := .next (keyCommand 3 0 page index s)

/-- KEY_ERASE_SLOT (R340). -/
def execKeyEraseSlot (slot : Nat) (s : State) : Host.Outcome State Fault Refusal := .next (keyCommand 4 slot 0 0 s)

/-- KEY_RELOAD_PAGE (R340). -/
def execKeyReloadPage (page : Nat) (s : State) : Host.Outcome State Fault Refusal := .next (keyCommand 5 0 page 0 s)

/-- KEY_SLOT_DRAINED (R347): the user count of a draining slot has reached 0. -/
def execKeySlotDrained (slot : Nat) (s : State) : Host.Outcome State Fault Refusal := onChip (fun c => c.keyDrained slot) s

/-- KEY_VAULT_UPDATED (R345). -/
def execKeyVaultUpdated (s : State) : Host.Outcome State Fault Refusal := onChip (fun c => c.vaultUpdated) s

/-- ENTROPY_HEALTH_CHANGE (R344). -/
def execEntropyHealthChange (ok : Bool) (s : State) : Host.Outcome State Fault Refusal :=
  onChip (fun c => { c with key := { c.key with entropy := ok } }) s

/-- The payload of Security Send 0xF5: 16 bytes, OP and index, the rest 0 (R344, R352). -/
def keyPayload (op : Nat) (payload : List Byte) : Option Nat :=
  match payload with
  | o :: i :: rest =>
    if payload.length = 16 ∧ o.toNat = op ∧ i.toNat < 16 ∧ rest.all (fun b => b.toNat == 0) then some i.toNat else none
  | _ => none

/-- A key management request of a function's host (R344). A payload that is not as stated completes with Invalid Field in Command. -/
def keyPage (op pay : Nat) (cmd : Cmd) (payload : List Byte) (s : State) : State :=
  if lifecycleRefuses s then { s with chip := s.chip.replySt cmd .other cstLife }
  else
    match keyPayload pay payload with
    | none => { s with chip := s.chip.replyN cmd stField }
    | some i => { s with chip := s.chip.keyStart s.fuse.lifecycle op 0 cmd.fn i false (some cmd) }

/-- KEY_PAGE_GENERATE_XTS (R344). -/
def execKeyPageGenerateXts (cmd : Cmd) (payload : List Byte) (s : State) : Host.Outcome State Fault Refusal := .next (adminOp cmd (keyPage 0 1 cmd payload) s)

/-- KEY_PAGE_GENERATE_GCM (R344). -/
def execKeyPageGenerateGcm (cmd : Cmd) (payload : List Byte) (s : State) : Host.Outcome State Fault Refusal := .next (adminOp cmd (keyPage 1 2 cmd payload) s)

/-- KEY_PAGE_ERASE (R344). -/
def execKeyPageErase (cmd : Cmd) (payload : List Byte) (s : State) : Host.Outcome State Fault Refusal := .next (adminOp cmd (keyPage 2 3 cmd payload) s)

/-- KEY_PAGE_REWRITE (R344). -/
def execKeyPageRewrite (cmd : Cmd) (payload : List Byte) (s : State) : Host.Outcome State Fault Refusal := .next (adminOp cmd (keyPage 3 4 cmd payload) s)

/-- KEY_ANCHOR_WRITE (R373): the last word of anchor `a` programs it from the words staged before; an anchor written a second time completes with
BAD_DESCRIPTOR, and outside BLANK and PROVISIONED the write is ignored. The KEY block is the secure world's (R27). -/
def keyAnchorWrite (acc : Access) (a : Nat) (v : Word) (s : State) : State :=
  let resp := fun (st : Nat) (t : State) => { t with chip := { t.chip with resp := ⟨0, st⟩ } }
  if !acc.secure || decide (8 ≤ acc.who) then resp cstBus { s with chip := s.chip.raise 304 cstBus 0xFFFF 0 0 }
  else if s.fuse.lifecycle ≠ .blank ∧ s.fuse.lifecycle ≠ .provisioned then resp cstOk s
  else if Tab.get (fun _ => []) s.fuse.anchors a ≠ [] ∨ 8 ≤ a then resp cstBad s
  else
    let w := Tab.set (fun _ => 0) s.chip.key.anchorWords (a * 32 + 23) v.toNat
    let bytes := (List.range 24).flatMap (fun i => leBytes 4 (Tab.get (fun _ => 0) w (a * 32 + i)))
    resp cstOk { s with fuse := { s.fuse with anchors := Tab.set (fun _ => []) s.fuse.anchors a bytes },
                               chip := { s.chip with key := { s.chip.key with anchorWords := w } } }

/-- KEY_ANCHOR_WRITE (R373). -/
def execKeyAnchorWrite (acc : Access) (a : Nat) (v : Word) (s : State) : Host.Outcome State Fault Refusal := .next (keyAnchorWrite acc a v s)

end Sys2Proof.Machine
end

