-- ==== Sys2Proof/Machine/Seal.lean ====
section
/-! DEFINITION. The seal engine: the running hash, Zynsum records, epochs, the seal log and raw sector reads (R360-R370). -/

namespace Sys2Proof.Machine

/-- What a record carries besides the fields that every record has (R364, R365). -/
structure RecBody where
  kind : Nat
  flags : Nat
  tags : List Nat
  lc : Nat
  fn : Nat
  nsx : Nat
  zslba : Nat
  sectors : Nat
  zdigest : List Byte
  aux : List Byte
  deriving DecidableEq, Repr

/-- A body whose unnamed fields are 0 (R365). -/
def RecBody.blank (kind : Nat) : RecBody := ⟨kind, 0, [], 0, 0, 0, 0, 0, [], []⟩

/-- The node number of a package: 0 without Boom (R403). -/
def Env.node (e : Env) : Nat := if e.part.full then e.boom.node else 0

/-- Bytes 0x00-0xEF of a record (R364), big-endian. LC and the fields that R365 does not name for the kind are 0 (log entry 15). -/
def recordHead (e : Env) (x : SealState) (time : Nat) (b : RecBody) : List Byte :=
  beBytes 4 0x5A594E31 ++ beBytes 1 1 ++ beBytes 1 b.kind ++ beBytes 1 b.flags ++ beBytes 1 b.tags.length ++
  beBytes 8 x.seq ++ beBytes 8 time ++ beBytes 8 e.serial ++ beBytes 4 x.epoch ++ beBytes 2 e.node ++ beBytes 1 b.lc ++ beBytes 1 b.fn ++
  beBytes 2 b.nsx ++ beBytes 6 0 ++ beBytes 8 b.zslba ++ beBytes 8 b.sectors ++ sliceBytes b.zdigest 0 32 ++
  sliceBytes (b.tags.flatMap (beBytes 4)) 0 64 ++ sliceBytes x.prev 0 32 ++ sliceBytes b.aux 0 32 ++ beBytes 16 0

/-- The MAC of a record head under slot 0 (R366): the IV is bits [31:0] of SERIAL followed by SEQ. -/
def recordMac (key : List Byte) (e : Env) (seq : Nat) (head : List Byte) : List Byte :=
  gcmTag key (beBytes 4 (e.serial % 2 ^ 32) ++ beBytes 8 seq) head []

/-- Appends a record at a time (R364-R366). Past the last SEQ it is refused with WRAP_REFUSED and changes nothing (R350). -/
def Chip.sealAppend (c : Chip) (e : Env) (time : Nat) (b : RecBody) : Nat × Chip :=
  let x := c.sealer
  if 2 ^ 64 - 1 ≤ x.seq then (cstWrap, c)
  else
    let head := recordHead e x time b
    let bytes := head ++ recordMac (c.slot 0).key e x.seq head
    (cstOk, { c with sealer := { x with log := x.log ++ [⟨x.seq, b.kind, bytes, none⟩], seq := x.seq + 1, prev := sha256 bytes } })

/-! The running hash of an evidence zone (R360, R361). -/

/-- Folds the leaves that are there in sector order: `n` bounds the leaves. The state of the hash is the concatenation of the leaf digests. -/
def foldLeaves : Nat → Zone → Zone
  | 0, z => z
  | n + 1, z =>
    match Tab.get (fun _ => []) z.leaves z.folded with
    | [] => z
    | d => foldLeaves n { z with fold := z.fold ++ d, folded := z.folded + 1, leaves := Tab.erase z.leaves z.folded }

/-- A leaf is delivered and every leaf in order is folded (R361). -/
def Zone.deliver (z : Zone) (sector : Nat) (d : List Byte) : Zone :=
  let z1 := { z with leaves := Tab.insert z.leaves sector d }
  foldLeaves (z1.leaves.length + 1) z1

/-- The zone digest over the folded leaves (R360). -/
def Zone.digest (z : Zone) : List Byte := sha256 z.fold

/-- An evidence zone that is Full is sealed: its record is appended and the zone is sealed (R362, R363). It waits while the engine is disabled or slot 0
is empty. -/
def Chip.sealZone (c : Chip) (e : Env) (nsx z : Nat) : Chip :=
  match c.ns nsx with
  | none => c
  | some n =>
    let x := n.zone z
    if !(x.evid && x.sealDue) || decide (x.folded < x.wp) || !c.bit Reg.sealCtrl 0 || c.restartRuns .seal || (c.slot 0).state != .valid then c
    else
      let flags := b2n x.tagOvf + 2 * b2n (!x.lost.isEmpty || x.lostFrom.isSome)
      let (st, c1) := c.sealAppend e c.stamp
        { RecBody.blank 1 with flags := flags, tags := x.tags, fn := n.owner.getD 0, nsx := nsx, zslba := z * n.zsze, sectors := x.wp, zdigest := x.digest }
      if st = cstOk then (c1.updZone nsx z (fun y => { y with sealed := some c.sealer.seq, sealDue := false })).pass else c

/-- Open evidence zones with a running hash: SEAL_STATUS.OPEN_EVZ. -/
def Chip.openEvidence (c : Chip) : Nat :=
  sumNat (c.host.nss.map (fun p =>
    match p.2 with
    | none => 0
    | some n => (n.zones.filter (fun z => z.2.evid && (z.2.state == .impOpen || z.2.state == .expOpen))).length))

/-! Epochs (R367, R368). -/

/-- The boundary that opened the current tick. -/
def Chip.opened (c : Chip) : Nat := c.tick * 65536

/-- An epoch is struck at the current tick's opening boundary: its record, FLAGS bit 2 for a requested one, and the signature that is due.
Past the last epoch number it is refused (R350). -/
def Chip.strike (c : Chip) (e : Env) (requested : Bool) : Nat × Chip :=
  let x := c.sealer
  if 2 ^ 32 - 1 ≤ x.epoch then (cstWrap, c)
  else
    let aux := beBytes 8 x.first ++ beBytes 8 (x.seq - x.first) ++ beBytes 8 (x.prevEpoch.getD (2 ^ 64 - 1)) ++ beBytes 8 0
    let (st, c1) := c.sealAppend e c.opened { RecBody.blank 3 with flags := 4 * b2n requested, aux := aux }
    if st ≠ cstOk then (st, c)
    else
      (cstOk, { c1 with sealer := { c1.sealer with
        epoch := x.epoch + 1, first := c1.sealer.seq, prevEpoch := some x.seq, lastStrike := c.tick,
        signing := x.signing ++ [(x.seq, x.epoch, c.tick, requested)],
        strike := if requested then none else x.strike } })

/-- A requested strike is due: its tick has opened (R367). -/
def Chip.strikeDue (c : Chip) : Bool :=
  match c.sealer.strike with
  | some t => decide (t ≤ c.tick)
  | none => false

/-- A periodic strike is due: SEAL_PERIOD ticks have passed since the last strike and the epoch holds a record (R367). -/
def Chip.periodDue (c : Chip) : Bool :=
  decide (c.reg Reg.sealPeriod ≠ 0) && decide (c.sealer.lastStrike + c.reg Reg.sealPeriod ≤ c.tick) && decide (c.sealer.first < c.sealer.seq)

/-- The engine strikes: it is enabled and holds its MAC key. -/
def Chip.sealReady (c : Chip) : Bool := c.bit Reg.sealCtrl 0 && !c.restartRuns .seal && (c.slot 0).state == .valid

/-- EPOCH_STRIKE_PERIODIC (R367). A periodic and a requested strike of one boundary make one record with FLAGS bit 2 set. -/
def execEpochStrikePeriodic (s : State) : Host.Outcome State Fault Refusal :=
  onChip (fun c => if c.sealReady && c.periodDue then (c.strike s.env c.strikeDue).2 else c) s

/-- EPOCH_STRIKE_REQUESTED (R367, R419): an UNLOCKED package, or one that is ahead, does not strike for a system snapshot (R420). -/
def execEpochStrikeRequested (s : State) : Host.Outcome State Fault Refusal :=
  onChip (fun c => if c.sealReady && c.strikeDue then (c.strike s.env true).2 else c) s

/-- A strike request for a tick (R368): its status, and the pending strike. -/
def Chip.strikeRequest (c : Chip) (t : Nat) : Chip :=
  let st := firstFail [(decide (t < c.tick + 2), cstBad), (c.sealer.strike.isSome, cstBusy)]
  let c1 := c.setReg Reg.sealStrikeStat st
  if st = cstOk then { c1 with sealer := { c1.sealer with strike := some t, strikeSid := none } } else c1

/-- The signature block of an epoch record (R368). -/
def signatureBlock (epoch seq : Nat) (sig : List Byte) : List Byte :=
  beBytes 4 0x5A594E53 ++ beBytes 4 epoch ++ beBytes 8 seq ++ sliceBytes sig 0 96 ++ beBytes 16 0

/-- The oldest epoch record that waits for it is signed (R368). -/
def Chip.signEpoch (c : Chip) : Chip :=
  match c.sealer.signing with
  | [] => c
  | (seq, epoch, _, _) :: rest =>
    if (c.slot 1).state ≠ .valid then c
    else
      let rec_ := (c.sealer.log.find? (fun r => r.seq == seq)).map (·.bytes)
      let blk := signatureBlock epoch seq (Config.ecdsaSign (c.slot 1).key (Config.sha384 (rec_.getD [])) c.free)
      let c1 := { c with
        free := c.free + 1
        sealer := { c.sealer with
          signing := rest
          log := updateWhere (fun r => r.seq == seq) (fun r => { r with sig := some blk }) c.sealer.log } }
      c1.raise 307 0 0xFFFF 0 0

/-- The epoch public key object of 208 bytes (R369). -/
def keyObject (e : Env) (priv identity : List Byte) (fresh : Nat) : List Byte :=
  let head := beBytes 4 0x5A594E4B ++ beBytes 4 0 ++ beBytes 8 e.serial ++ sliceBytes (Config.ecdsaPublic priv) 0 96
  head ++ sliceBytes (Config.ecdsaSign identity (Config.sha384 head) fresh) 0 96

/-! Verification material (R369, R370). -/

/-- A record read back is checked against its MAC (R366). -/
def macHolds (key : List Byte) (e : Env) (r : SealRec) : Bool :=
  decide (r.bytes.drop 0xF0 = recordMac key e r.seq (r.bytes.take 0xF0))

/-- The seal log is read from a SEQ: each record is checked, and the first that fails marks the log corrupt from its SEQ (R366). -/
def Chip.sealCheck (c : Chip) (e : Env) (from_ : Nat) : Chip :=
  if (c.slot 0).state ≠ .valid then c
  else
    match (c.sealer.log.filter (fun r => decide (from_ ≤ r.seq))).find? (fun r => !macHolds (c.slot 0).key e r) with
    | none => c
    | some r =>
      if c.sealer.corrupt.isSome then c
      else { c with sealer := { c.sealer with corrupt := some r.seq } }.raise 308 0 0xFFFF 0 0

/-- A security command of the table of R373 that only PFs may send. -/
def pfOnly (cmd : Cmd) (f : State → Chip → Chip) (s : State) : Host.Outcome State Fault Refusal :=
  adminChip cmd (fun s c => if c.isPf cmd.fn then f s c else c.replyN cmd stField) s

/-- SEAL_LOG_SEQ_SEND (R369): the SEQ from which the log is returned, 8 bytes, big-endian as the records are (log entry 16). -/
def execSealLogSeqSend (cmd : Cmd) (payload : List Byte) (s : State) : Host.Outcome State Fault Refusal :=
  pfOnly cmd (fun s c =>
    if lifecycleRefuses s then c.replySt cmd .other cstLife
    else if payload.length ≠ 8 then c.replyN cmd stField
    else { c with sealer := { c.sealer with from_ := Tab.insert c.sealer.from_ cmd.fn (beNat payload) } }.replyN cmd stOk) s

/-- SEAL_LOG_RECEIVE (R369): records and signature blocks as stored, each record checked as it is read back. -/
def execSealLogReceive (cmd : Cmd) (s : State) : Host.Outcome State Fault Refusal :=
  pfOnly cmd (fun s c =>
    let f := Tab.get (fun _ => 0) c.sealer.from_ cmd.fn
    let bs := (c.sealer.log.filter (fun r => decide (f ≤ r.seq))).flatMap (fun r => r.bytes ++ r.sig.getD [])
    ((c.sealCheck s.env f).answerDma cmd.fn bs).replyN cmd stOk) s

/-- EPOCH_KEY_OBJECT_RECEIVE (R369): the object exists from DEPLOYED on. -/
def execEpochKeyObjectReceive (cmd : Cmd) (s : State) : Host.Outcome State Fault Refusal :=
  pfOnly cmd (fun _ c =>
    if c.sealer.keyObj = [] then c.replySt cmd .other cstLife else (c.answerDma cmd.fn c.sealer.keyObj).replyN cmd stOk) s

/-- IDENTITY_CHAIN_RECEIVE (R369): the chain as written at PROVISIONED. -/
def execIdentityChainReceive (cmd : Cmd) (s : State) : Host.Outcome State Fault Refusal :=
  pfOnly cmd (fun s c => (c.answerDma cmd.fn s.env.chain).replyN cmd stOk) s

/-- RAW_SECTOR_RANGE_SEND (R370): first LBA and count 1-16, the rest 0, little-endian (log entry 16), by the function that owns the namespace. -/
def execRawSectorRangeSend (cmd : Cmd) (nsid : Nat) (payload : List Byte) (s : State) : Host.Outcome State Fault Refusal :=
  adminChip cmd (fun s c =>
    let lba := leNat (payload.take 8)
    let n := leNat ((payload.drop 8).take 4)
    let ok := match c.ns (nsxOf nsid) with
      | none => false
      | some x =>
        let z := x.zone (lba / Nat.max 1 x.zsze)
        x.zoned && x.owner == some cmd.fn && z.sealed.isSome && decide (lba % Nat.max 1 x.zsze + n ≤ z.wp)
    if lifecycleRefuses s then c.replySt cmd .other cstLife
    else if payload.length ≠ 16 || !((payload.drop 12).all (fun b => b.toNat == 0)) || n == 0 || decide (16 < n) || !ok then c.replyN cmd stField
    else { c with sealer := { c.sealer with raw := Tab.insert c.sealer.raw cmd.fn (nsxOf nsid, lba, n) } }.replyN cmd stOk) s

end Sys2Proof.Machine
end

