-- ==== Sys2Proof/Machine/Boom.lean ====
section
/-! DEFINITION. The Boom link: ports, frames, keying, the tree, the system tick and the services (R403-R422), and the signature of epochs (R368),
which ends a package's part in a snapshot. -/

namespace Sys2Proof.Machine

/-! Ports. -/

/-- A port. -/
def Chip.port (c : Chip) (n : Nat) : Port := Tab.get (fun _ => Port.off) c.boom.ports n

/-- Puts a port. -/
def Chip.setPort (c : Chip) (n : Nat) (p : Port) : Chip :=
  { c with boom := { c.boom with ports := Tab.set (fun _ => Port.off) c.boom.ports n p } }

/-- Changes a port. -/
def Chip.updPort (c : Chip) (n : Nat) (g : Port → Port) : Chip := c.setPort n (g (c.port n))

/-- The Boom record declares a neighbour on port `n` of a part that has the block (R5, R410). -/
def Env.declaresPort (e : Env) (n : Nat) : Bool := e.part.full && decide (n < 4) && e.boom.nb.getD n 0xFFFF != 0xFFFF

/-- Ports that are UP, in port order. -/
def Chip.upPorts (c : Chip) : List Nat := (List.range 4).filter (fun n => (c.port n).phase == .up)

/-- The neighbour of a port is a child: its last ROOT has PARENT = 1 (R411). -/
def Port.child (p : Port) : Bool := p.phase == .up && p.root.any (fun r => r.1.parent)

/-- The ports of the children. -/
def Chip.children (c : Chip) : List Nat := c.upPorts.filter (fun n => (c.port n).child)

/-- A body joins the frames that wait at a port. -/
def Chip.sendBody (c : Chip) (n : Nat) (b : FrameBody) : Chip := c.updPort n (fun p => { p with queue := p.queue ++ [b] })

/-! The local request (R418, R421). -/

/-- The local request ends: BOOM_SVC_RES and BOOM_SVC_MISS show it and GO reads 0. -/
def Chip.requestDone (c : Chip) (st countA countB : Nat) : Chip :=
  if c.boom.request.isNone then c
  else
    let c1 := (c.setReg Reg.boomSvcRes (2 ^ 31 + countA % 2 ^ 15 * 2 ^ 16 + st)).setReg Reg.boomSvcMiss (countB % 2 ^ 15)
    let c2 := c1.setBit Reg.boomSvcReq 31 false
    { c2 with boom := { c2.boom with request := none } }

/-- The parent's link fails: a running request completes with TIMEOUT (R421). -/
def Chip.parentLost (c : Chip) (n : Nat) : Chip := if c.boom.parent = some n then c.requestDone cstTimeout 0 0 else c

/-- A port leaves UP, KEYING or TRAIN: nothing of its link is kept but the last ROOT, whose SIZE R421 counts. -/
def Port.drop (p : Port) (ph : PortPhase) (t : Nat) : Port :=
  { p with
    phase := ph
    since := t
    unacked := []
    queue := []
    resend := none
    kx := []
    svcTick := 0
    svcDrop := false
    floodRun := 0 }

/-- The port is DOWN (R422). -/
def Chip.boomDown (c : Chip) (n : Nat) : Chip := ((c.updPort n (fun p => p.drop .down c.tick)).parentLost n).raise0 (280 + n)

/-- The port is fenced, with the cause that BOOM_PORT_STAT shows (R422). -/
def Chip.boomFence (c : Chip) (n cause : Nat) : Chip :=
  ((c.updPort n (fun p => { p.drop .fenced c.tick with cause := cause })).parentLost n).raise (284 + n) cause 0xFFFF 0 0

/-- The counting window of 125 ticks begins anew once it is over. -/
def Port.window (p : Port) (t : Nat) : Port :=
  if p.winStart + 125 ≤ t then { p with winStart := t, winCrc := 0, winAuth := 0 } else p

/-- A frame whose CRC fails (R407, R422). -/
def Chip.boomCrc (c : Chip) (n : Nat) : Chip :=
  let p := (c.port n).window c.tick
  let c1 := (c.bump (Reg.boomPortCrc n) 31 0 1).setPort n { p with winCrc := p.winCrc + 1 }
  if p.winCrc + 1 ≤ c.fld Reg.boomGuard 23 16 then c1
  else if p.lastCrcDown.any (fun t => decide (c.tick < t + 125000)) then c1.boomFence n 2
  else (c1.updPort n (fun p => { p with lastCrcDown := some c.tick, winCrc := 0 })).boomDown n

/-- A frame dropped as unauthenticated (R407, R422). -/
def Chip.boomAuth (c : Chip) (n : Nat) : Chip :=
  let p := (c.port n).window c.tick
  let c1 := (c.bump (Reg.boomPortAuth n) 31 16 1).setPort n { p with winAuth := p.winAuth + 1 }
  if p.winAuth + 1 ≤ c.fld Reg.boomGuard 31 24 then c1 else c1.boomFence n 3

/-! Keying (R408, R409). -/

/-- A keying message in fragments of 32 bytes: `k` bounds them. -/
def kxFrags (msg : Nat) : Nat → Nat → List Byte → List (Nat × Nat × List Byte)
  | 0, _, _ => []
  | k + 1, i, bs => if bs = [] then [] else (msg, i, sliceBytes bs 0 32) :: kxFrags msg k (i + 1) (bs.drop 32)

/-- The port enters KEYING: it sends MSG 1 and MSG 2 and keeps its own MSG 1 for MSG 3 (log entry 27). -/
def Chip.enterKeying (c : Chip) (e : Env) (n : Nat) : Chip :=
  let m1 := sliceBytes (Config.ecdsaPublic (Config.drbg c.free 48)) 0 96 ++ leBytes 8 e.serial ++ leBytes 2 e.node
  let m2 := sliceBytes (Config.ecdsaPublic (c.slot 3).key) 0 96
  let frames := (kxFrags 1 4 0 m1 ++ kxFrags 2 3 0 m2).map (fun f => FrameBody.kx f.1 f.2.1 f.2.2)
  let c1 := c.updPort n (fun p => { p.drop .keying c.tick with
    queue := frames
    kx := kxFrags 0 4 0 m1 })
  { c1 with free := c1.free + 1 }

/-- The bytes of a keying message from its fragments. -/
def Port.kxBytes (p : Port) (msg len : Nat) : List Byte :=
  ((sortBy (fun f => f.2.1) (p.kx.filter (fun f => f.1 == msg))).flatMap (·.2.2)).take len

/-- All of the neighbour's MSG 1 has been received: MSG 3 is sent, the signature over both MSG 1 messages, the lower SERIAL's first. -/
def Chip.sendMsg3 (c : Chip) (e : Env) (n : Nat) : Chip :=
  let p := c.port n
  if (p.kx.filter (fun f => f.1 == 1)).length < 4 then c
  else
    let mine := p.kxBytes 0 106
    let its := p.kxBytes 1 106
    let both := if e.serial ≤ leNat ((its.drop 96).take 8) then mine ++ its else its ++ mine
    let sig := sliceBytes (Config.ecdsaSign (c.slot 3).key (Config.sha384 both) c.free) 0 96
    let c1 := c.updPort n (fun p => { p with queue := p.queue ++ (kxFrags 3 3 0 sig).map (fun f => FrameBody.kx f.1 f.2.1 f.2.2) })
    { c1 with free := c1.free + 1 }

/-- The link key takes effect: slot 16 + n holds it as a GCM key, both counters start at 0, and the port is UP (R405, R408). -/
def Chip.portUp (c : Chip) (n serial : Nat) : Chip :=
  let c1 := c.setSlot (16 + n) { KeySlot.empty with
    state := .valid
    type := 2
    key := Config.linkKey n c.free }
  let c2 := c1.updPort n (fun p => { p.drop .up c.tick with
    tx := 0
    rx := 0
    slot := 0
    ackTick := c.tick
    root := none
    tRxe := 0
    tTxe := 0
    peer := serial })
  { c2 with free := c2.free + 1 }

/-- BOOM_CTRL.ENABLE has been written (R408, R410): the declared ports train, or every port is off. -/
def Chip.boomEnable (c : Chip) (e : Env) (on : Bool) : Chip :=
  (List.range 4).foldl (fun c n =>
    let p := c.port n
    if on then (if p.phase = .off ∧ e.declaresPort n then c.setPort n (p.drop .train c.tick) else c)
    else if p.phase = .fenced ∨ p.phase = .off then c
    else (c.setPort n (p.drop .off c.tick)).parentLost n) c

/-- An alarm erase has emptied every link key: each UP port keys afresh (R409). -/
def Chip.boomRekey (c : Chip) (e : Env) : Chip := c.upPorts.foldl (fun c n => c.enterKeying e n) c

/-- BOOM_PORT_TRAINED (R408). -/
def execBoomPortTrained (port : Nat) (s : State) : Host.Outcome State Fault Refusal :=
  onChip (fun c => if (c.port port).phase = .train then c.enterKeying s.env port else c) s

/-- BOOM_KEYING_DONE (R408): identity, node and signature are checked; a neighbour that fails is fenced (R422; log entry 27). -/
def execBoomKeyingDone (port node serial : Nat) (fp : List Byte) (sigOk : Bool) (s : State) : Host.Outcome State Fault Refusal :=
  onChip (fun c =>
    if (c.port port).phase ≠ .keying then c
    else if fp = s.env.boom.fp.getD port [] ∧ node = s.env.boom.nb.getD port 0xFFFF ∧ sigOk then c.portUp port serial
    else c.boomFence port 4) s

/-- BOOM_KEYING_TIMEOUT (R408): 1,250 ticks without an end of keying. -/
def execBoomKeyingTimeout (port : Nat) (s : State) : Host.Outcome State Fault Refusal :=
  onChip (fun c => if (c.port port).phase = .keying ∧ (c.port port).since + 1250 ≤ c.tick then c.boomDown port else c) s

/-- BOOM_TRAINING_TIMEOUT (R422): 1,250 ticks without training. -/
def execBoomTrainingTimeout (port : Nat) (s : State) : Host.Outcome State Fault Refusal :=
  onChip (fun c => if (c.port port).phase = .train ∧ (c.port port).since + 1250 ≤ c.tick then c.boomDown port else c) s

/-- BOOM_PORT_RETRY (R408, R422): 12,500 ticks after the port went DOWN. -/
def execBoomPortRetry (port : Nat) (s : State) : Host.Outcome State Fault Refusal :=
  onChip (fun c =>
    if (c.port port).phase = .down ∧ (c.port port).since + 12500 ≤ c.tick ∧ c.bit Reg.boomCtrl 0 then c.updPort port (fun p => p.drop .train c.tick)
    else c) s

/-- BOOM_PEER_SLOW (R422): ACK has not advanced for 4 ticks while frames wait for it. -/
def execBoomPeerSlow (port : Nat) (s : State) : Host.Outcome State Fault Refusal :=
  onChip (fun c =>
    let p := c.port port
    if p.phase = .up ∧ p.unacked ≠ [] ∧ p.ackTick + 4 ≤ c.tick then c.boomDown port else c) s

/-- A fence of a port by firmware. -/
def Chip.portFence (c : Chip) (e : Env) (port : Nat) : Chip :=
  if e.part.full && decide (port < 4) && (c.port port).phase != .fenced then c.boomFence port 1 else c

/-- The end of a fence (R422): bring-up and keying start again. -/
def Chip.portUnfence (c : Chip) (e : Env) (port : Nat) : Chip :=
  if (c.port port).phase ≠ .fenced then c
  else c.updPort port (fun p => p.drop (if e.declaresPort port && c.bit Reg.boomCtrl 0 then .train else .off) c.tick)

/-- BOOM_PORT_CTRL_n.FENCE. -/
def execBoomPortFence (port : Nat) (s : State) : Host.Outcome State Fault Refusal := onChip (fun c => c.portFence s.env port) s

/-- BOOM_PORT_CTRL_n.UNFENCE (R422). -/
def execBoomPortUnfence (port : Nat) (s : State) : Host.Outcome State Fault Refusal := onChip (fun c => c.portUnfence s.env port) s

/-! Sending (R403-R405). -/

/-- The frame slot of an UP port (R405): a repeat while one is due or the window is full, else a new frame. The counter that would pass 2^64 - 1 sends the
port to KEYING. -/
def Chip.slotUp (c : Chip) (e : Env) (n : Nat) : Chip :=
  let p := c.port n
  let first := (p.unacked.head?).map (·.ctr)
  let again := match p.resend with
    | some k => some k
    | none => if 276 ≤ p.unacked.length then first else none
  match again.bind (fun k => p.unacked.find? (fun f => decide (k ≤ f.ctr))) with
  | some f =>
    let c1 := c.bump (Reg.boomPortRetx n) 31 0 1
    c1.setPort n { p with
      slot := p.slot + 1
      resend := if p.unacked.any (fun g => decide (f.ctr < g.ctr)) then some (f.ctr + 1) else none
      unacked := updateWhere (fun g => g.ctr == f.ctr) (fun g => { g with slot := p.slot }) p.unacked }
  | none =>
    if 2 ^ 64 - 1 ≤ p.tx then c.enterKeying e n
    else
      let body := match p.queue.head? with
        | some (.tsync _ r t l) => FrameBody.tsync c.stamp r t l
        | some b => b
        | none => .idle
      c.pass.setPort n { p with
        slot := p.slot + 1
        tx := p.tx + 1
        resend := none
        queue := p.queue.drop 1
        ackTick := if p.unacked = [] then c.tick else p.ackTick
        unacked := p.unacked ++ [⟨p.tx, p.slot, body⟩] }

/-- FRAME_SLOT_SEND (R403): an UP port sends a frame, a KEYING port the next fragment. -/
def execFrameSlotSend (port : Nat) (s : State) : Host.Outcome State Fault Refusal :=
  onChip (fun c =>
    match (c.port port).phase with
    | .up => c.slotUp s.env port
    | .keying => c.updPort port (fun p => { p with slot := p.slot + 1, queue := p.queue.drop 1 })
    | _ => c) s

/-- FRAME_RETRANSMIT (R405): ACK has not covered a frame sent 138 slots earlier. -/
def execFrameRetransmit (port : Nat) (s : State) : Host.Outcome State Fault Refusal :=
  onChip (fun c =>
    let p := c.port port
    match p.unacked with
    | [] => c
    | f :: _ => if p.phase = .up ∧ p.unacked.any (fun g => decide (g.slot + 138 ≤ p.slot)) then c.setPort port { p with resend := some f.ctr } else c) s

/-! Receiving (R405-R407). -/

/-- What ACK covers leaves the window (log entry 27: a peer that has accepted nothing sends 2^32 - 1). -/
def Port.acked (p : Port) (ack t : Nat) : Port :=
  let d := (p.tx + 2 ^ 32 - 1 - ack % 2 ^ 32) % 2 ^ 32
  if d < p.unacked.length then { p with unacked := p.unacked.drop (p.unacked.length - d), ackTick := t } else p

/-- A frame arrives: whether it is accepted. A KX frame counts in KEYING alone; in UP a frame is accepted in counter order only. `bad` marks content
that R422 drops as unauthenticated. -/
def Chip.boomRx (c : Chip) (h : FrameHdr) (kx bad : Bool) : Bool × Chip :=
  let n := h.port
  let p := c.port n
  if p.phase ≠ .up ∧ p.phase ≠ .keying then (false, c)
  else if !h.crcOk then (false, c.boomCrc n)
  else if p.phase = .keying then (if kx then (true, c) else (false, c.boomAuth n))
  else if kx || !h.tagOk || bad then (false, c.boomAuth n)
  else if p.rx % 2 ^ 32 ≠ h.seq then (false, c)
  else (true, c.setPort n { p.acked h.ack c.tick with rx := p.rx + 1 })

/-- FRAME_RX_KX (R408). -/
def execFrameRxKx (h : FrameHdr) (msg frag : Nat) (bytes : List Byte) (s : State) : Host.Outcome State Fault Refusal :=
  onChip (fun c =>
    let (ok, c1) := c.boomRx h true false
    if !ok || msg == 0 || (c.port h.port).kx.any (fun f => f.1 == msg && f.2.1 == frag) then c1
    else
      let c2 := c1.updPort h.port (fun p => { p with kx := p.kx ++ [(msg, frag, bytes)] })
      if msg = 1 then c2.sendMsg3 s.env h.port else c2) s

/-- FRAME_RX_IDLE (R405). -/
def execFrameRxIdle (h : FrameHdr) (s : State) : Host.Outcome State Fault Refusal := onChip (fun c => (c.boomRx h false false).2) s

/-- A ROOT frame claims a false root (R422). -/
def falseRoot (node : Nat) (m : RootMsg) : Bool := (m.root == node && m.level != 0) || (m.level == 0 && m.root != node)

/-- FRAME_RX_ROOT (R411, R422). -/
def execFrameRxRoot (h : FrameHdr) (m : RootMsg) (s : State) : Host.Outcome State Fault Refusal :=
  onChip (fun c =>
    let (ok, c1) := c.boomRx h false (falseRoot h.node m)
    if ok then c1.updPort h.port (fun p => { p with root := some (m, c.tick) }) else c1) s

/-! The system tick (R413-R416). -/

/-- Units of 1/65,536 tick in ns, toward zero. -/
def unitsNs (u : Int) : Int := Int.tdiv (u * 8000) 65536

/-- The package takes its parent's tick number and fraction (R415). -/
def Chip.alignStep (c : Chip) (target : Nat) : Chip :=
  { c with
    time := { c.time with
      tick := target / 65536
      cyc := target % 65536 * c.time.len / 65536 }
    boom := { c.boom with
      stepped := true
      offset := 0 } }

/-- A TSYNC from the parent (R413, R415): the offset, and what follows from one above 4 us. -/
def Chip.tsync (c : Chip) (m : TsyncMsg) : Chip :=
  let c1 := { c with boom := { c.boom with
    parentLock := m.lock
    parentSync := some c.tick } }
  if m.tRxe = 0 ∧ m.tTxe = 0 then c1
  else
    let units : Int := Int.tdiv (((m.rxTime : Int) - m.tTx) - ((m.tRxe : Int) - m.tTxe)) 2
    let ns := unitsNs units
    let c2 := { c1 with boom := { c1.boom with offset := ns } }
    if ns < -4000 ∧ !c.rcu.calSince then c2.alignStep ((c.stamp : Int) - units).toNat
    else if 4000 < ns then { c2 with boom := { c2.boom with align := 3 } }
    else c2

/-- FRAME_RX_TSYNC (R413). -/
def execFrameRxTsync (h : FrameHdr) (m : TsyncMsg) (s : State) : Host.Outcome State Fault Refusal :=
  onChip (fun c =>
    let (ok, c1) := c.boomRx h false false
    if !ok then c1
    else
      let c2 := c1.updPort h.port (fun p => { p with tRxe := m.rxTime, tTxe := m.tTx, lastSync := c.tick })
      if c.boom.parent = some h.port then c2.tsync m else c2) s

/-- FRAME_RX_SVC (R417, R422): kept for the next boundary; a child's frames beyond SVC_RATE in a tick are dropped. An order in PS3 is a wake (R433). -/
def execFrameRxSvc (h : FrameHdr) (m : SvcMsg) (s : State) : Host.Outcome State Fault Refusal :=
  onChip (fun c =>
    let (ok, c1) := c.boomRx h false false
    if !ok then c1
    else
      let p := c1.port h.port
      if p.child && decide (c1.fld Reg.boomGuard 15 12 ≤ p.svcTick) then
        (c1.bump (Reg.boomPortAuth h.port) 15 0 1).setPort h.port { p with svcDrop := true }
      else
        let c2 := c1.setPort h.port { p with svcTick := p.svcTick + 1 }
        let c3 := { c2 with boom := { c2.boom with inbox := c2.boom.inbox ++ [(some h.port, m)] } }
        if m.dir = 1 ∧ c.pmu.ps = 3 then c3.wakeSee .boom else c3) s

/-- The place in the tree (R411): root, level and parent from the ROOT frames heard in the last 4 ticks. -/
def treePlace (node : Nat) (heard : List (Nat × RootMsg)) : Nat × Nat × Option Nat :=
  heard.foldl (fun a h =>
    if 11 < h.2.level then a
    else if h.2.root < a.1 ∨ (h.2.root = a.1 ∧ h.2.level + 1 < a.2.1) then (h.2.root, h.2.level + 1, some h.1)
    else a) (node, 0, none)

/-- The tree is computed (R411, R412), and ALIGN with it (R416). A package without an UP port is detached. -/
def Chip.treeBoundary (c : Chip) (e : Env) : Chip :=
  let ups := c.upPorts
  let heard := ups.filterMap (fun n => (c.port n).root.bind (fun r => if c.tick ≤ r.2 + 4 then some (n, r.1) else none))
  let (root, level, parent) := if ups = [] then (e.node, 13, none) else treePlace e.node heard
  let size := 1 + sumNat (c.children.map (fun n => ((c.port n).root.map (fun r => r.1.size)).getD 0))
  let same := decide (parent = c.boom.parent)
  let sync := if same then c.boom.parentSync else none
  let locked := decide (-50 ≤ c.boom.offset) && decide (c.boom.offset ≤ 50) && c.boom.parentLock && sync.any (fun t => decide (c.tick ≤ t + 1250))
  let align := if c.boom.align = 3 then 3 else if ups = [] then 0 else if parent.isNone || locked then 1 else 2
  { c with boom := { c.boom with
    root := root
    level := level
    parent := parent
    size := size
    parentSync := sync
    align := align } }

/-- The frames of a tick are queued (R411, R413): a ROOT on every UP port, a TSYNC to parent and children every INTERVAL ticks. One that was not yet sent
gives way. -/
def Chip.tickFrames (c : Chip) : Chip :=
  let due := decide (c.tick % Nat.max 1 (c.fld Reg.boomSync 7 0) = 0)
  c.upPorts.foldl (fun c n =>
    let isRoot := fun (b : FrameBody) => match b with | .root _ => true | _ => false
    let isSync := fun (b : FrameBody) => match b with | .tsync _ _ _ _ => true | _ => false
    let edge := decide (c.boom.parent = some n) || (c.port n).child
    c.updPort n (fun p =>
      let keep := p.queue.filter (fun b => !isRoot b && !(due && edge && isSync b))
      let root := FrameBody.root ⟨c.boom.root, c.boom.level, decide (c.boom.parent = some n), c.boom.size⟩
      let sync := if due && edge then [FrameBody.tsync 0 p.tRxe p.tTxe (decide (c.boom.align = 1))] else []
      { p with queue := keep ++ root :: sync })) c

/-- The length of the tick that opens (R414): one reference cycle more when the child is ahead by more than 20 ns, one less when it is behind, at most
once in SLEW_GAP ticks. -/
def Chip.slew (c : Chip) : Chip :=
  let can := c.boom.parent.isSome && decide (c.boom.lastSlew + c.fld Reg.boomSync 11 8 ≤ c.tick)
  let len := if can && decide (20 < c.boom.offset) then 201 else if can && decide (c.boom.offset < -20) then 199 else 200
  { c with
    time := { c.time with len := len }
    boom := { c.boom with lastSlew := if len = 200 then c.boom.lastSlew else c.tick } }

/-! Services (R417-R421). The messages' encodings in OP, STATUS, SID and the counts are the model's (log entry 28): a request carries the requester's node
in SID, an order carries it in COUNT_A; an order with STATUS BUSY_RETRY answers the requester that its SID names. -/

/-- A service that runs here. -/
def Chip.svc (c : Chip) (op : Nat) : Option Svc := c.boom.svcs.find? (fun v => v.op == op)

/-- Changes a service. -/
def Chip.updSvc (c : Chip) (op : Nat) (g : Svc → Svc) : Chip := { c with boom := { c.boom with svcs := updateWhere (fun v => v.op == op) g c.boom.svcs } }

/-- A service ends here. -/
def Chip.dropSvc (c : Chip) (op : Nat) : Chip := { c with boom := { c.boom with svcs := c.boom.svcs.filter (fun v => v.op != op) } }

/-- A message goes to the parent. -/
def Chip.toParent (c : Chip) (m : SvcMsg) : Chip :=
  match c.boom.parent with
  | some n => c.sendBody n (.svc m)
  | none => c

/-- A message goes to every child. -/
def Chip.toChildren (c : Chip) (m : SvcMsg) : Chip := c.children.foldl (fun c n => c.sendBody n (.svc m)) c

/-- The totals of a snapshot, or the release of a barrier, reach a package: the request that the service answers completes (R419, R421). -/
def Chip.svcTotals (c : Chip) (m : SvcMsg) : Chip :=
  let mine := c.boom.request.any (fun r => r.1 == m.op && (m.op == 1 || r.2 == some m.sid))
  let st := if (c.svc m.op).any (·.timeout) then cstTimeout else m.status
  let c1 := (c.toChildren m).dropSvc m.op
  if mine then c1.requestDone st m.countA m.countB else c1

/-- A package that has done its own part and heard every child reports, the root sends the totals down (R419). -/
def Chip.tryReport (c : Chip) (op : Nat) : Chip :=
  match c.svc op with
  | none => c
  | some v =>
    if !v.self || v.due != [] || v.reported then c
    else
      let m : SvcMsg := ⟨2, op, if v.timeout then cstTimeout else cstOk, v.sid, v.tick, v.countA, v.countB, []⟩
      let c1 := c.updSvc op (fun v => { v with reported := true })
      if c.boom.parent.isSome then c1.toParent m else c1.svcTotals { m with dir := 3 }

/-- The package has done its own part: it struck and signed, entered, or takes no part; its report is due. -/
def Chip.svcSelf (c : Chip) (op a b : Nat) : Chip :=
  let timeout := c.fld Reg.boomSvcCfg 11 0
  (c.updSvc op (fun v => { v with
    self := true
    countA := v.countA + a
    countB := v.countB + b
    dueTick := c.tick + timeout })).tryReport op

/-- A service begins here: the reports of the children are due. -/
def Chip.addSvc (c : Chip) (op sid tick : Nat) : Chip :=
  if (c.svc op).isSome then c
  else { c with boom := { c.boom with svcs := c.boom.svcs ++ [⟨op, sid, tick, c.children, 0, 0, 0, false, false, false⟩] } }

/-- A broadcast reaches the package (R419). -/
def Chip.svcBroadcast (c : Chip) (m : SvcMsg) : Chip :=
  if c.boom.seen.contains m.sid then c
  else
    let c1 := (List.range 4).foldl (fun c i => c.setReg (Reg.boomRxData i) (m.data.getD i 0).toNat) (c.setReg Reg.boomRxSid (m.sid % 2 ^ 16))
    let c2 := { c1 with boom := { c1.boom with seen := m.sid :: c1.boom.seen } }
    (c2.raise0 288).toChildren m

/-- The agreed tick of an order (BOOM_SVC_TICK). -/
def Chip.svcTick (c : Chip) (t : Nat) : Chip := (c.setReg Reg.boomSvcTickLo (t % 2 ^ 32)).setReg Reg.boomSvcTickHi (t / 2 ^ 32 % 2 ^ 16)

/-- A snapshot order (R419, R420): a pending local strike is cancelled; a LOCKED package writes TICK to its strike, any other counts itself in COUNT_B. -/
def Chip.svcSnapshot (c : Chip) (m : SvcMsg) : Chip :=
  let c1 := ((c.svcTick m.tick).toChildren m).addSvc 2 m.sid m.tick
  let c2 := if c1.sealer.strike.isSome then
      { c1.setReg Reg.sealStrikeStat cstBusy with sealer := { c1.sealer with
        strike := none
        strikeSid := none } }
    else c1
  if c2.boom.align = 1 && c2.sealReady then
    { c2 with sealer := { c2.sealer with
      strike := some m.tick
      strikeSid := some m.sid } }
  else c2.svcSelf 2 0 1

/-- A system reset order (R419): it is forwarded, and a LOCKED package resets at its tick. -/
def Chip.svcReset (c : Chip) (m : SvcMsg) : Chip :=
  let c1 := (c.svcTick m.tick).toChildren m
  if c1.boom.align = 1 then { c1 with boom := { c1.boom with resetTick := some m.tick } } else c1

/-- An order arrives from the parent, or from this package as the root. -/
def Chip.svcOrder (c : Chip) (e : Env) (m : SvcMsg) : Chip :=
  if m.status = cstBusy then
    let c1 := c.toChildren m
    if m.sid = e.node ∧ c.boom.request.any (fun r => r.1 == m.op && r.2.isNone) then c1.requestDone cstBusy 0 0 else c1
  else
    let mine := decide (m.countA = e.node) && c.boom.request.any (fun r => r.1 == m.op && r.2.isNone)
    let c0 := if mine then { c with boom := { c.boom with request := some (m.op, some m.sid) } } else c
    match m.op with
    | 0 => let c1 := c0.svcBroadcast m
           if mine then c1.requestDone cstOk 0 0 else c1
    | 2 => c0.svcSnapshot m
    | 3 => c0.svcReset m
    | _ => c0

/-- The root takes a request (R418, R419): at most one new service in a tick, one of each kind at a time. The depth of the tree is a free value
(log entry 28). -/
def Chip.rootTake (c : Chip) (e : Env) (port : Option Nat) (m : SvcMsg) : Chip :=
  if (c.svc m.op).isSome || (m.op == 3 && c.boom.resetTick.isSome) then c.svcOrder e { m with dir := 1, status := cstBusy }
  else if c.boom.took = c.tick + 1 then { c with boom := { c.boom with inbox := c.boom.inbox ++ [(port, m)] } }
  else
    let (d, c1) := if c.children = [] then (0, c) else let r := c.pick 12; (1 + r.1, r.2)
    let sid := c1.boom.nextSid % 2 ^ 16
    let c2 := { c1 with boom := { c1.boom with
      nextSid := (sid + 1) % 2 ^ 16
      took := c1.tick + 1 } }
    c2.svcOrder e { m with
      dir := 1
      sid := sid
      countA := m.sid
      tick := if m.op = 0 then 0 else c2.tick + d + 2 }

/-- A request: forwarded to the parent, or taken by the root. -/
def Chip.svcRequest (c : Chip) (e : Env) (port : Option Nat) (m : SvcMsg) : Chip :=
  if c.boom.parent.isSome then c.toParent m else c.rootTake e port m

/-- A child's report (R419). -/
def Chip.svcReport (c : Chip) (port : Nat) (m : SvcMsg) : Chip :=
  let c1 := if m.op = 1 then c.addSvc 1 m.sid 0 else c
  (c1.updSvc m.op (fun v => { v with
    due := v.due.filter (· != port)
    countA := v.countA + m.countA
    countB := v.countB + m.countB
    timeout := v.timeout || m.status == cstTimeout })).tryReport m.op

/-- A message that has waited for the boundary is acted on (R417): requests and reports from children, orders from the parent. -/
def Chip.svcAct (c : Chip) (e : Env) (x : Option Nat × SvcMsg) : Chip :=
  let fromParent := x.1.isSome && decide (x.1 = c.boom.parent)
  let fromChild := x.1.isNone || x.1.any (fun n => (c.port n).child)
  match x.2.dir with
  | 0 => if fromChild then c.svcRequest e x.1 x.2 else c
  | 1 => if fromParent then c.svcOrder e x.2 else c
  | 2 => if fromChild then c.svcReport (x.1.getD 4) x.2 else c
  | _ => if fromParent then c.svcTotals x.2 else c

/-- Flooding (R422), and the counts of a tick begin anew. -/
def Chip.floodBoundary (c : Chip) : Chip :=
  (List.range 4).foldl (fun c n =>
    let p := c.port n
    if p.phase ≠ .up then c
    else
      let run := if p.svcDrop then p.floodRun + 1 else 0
      let c1 := c.setPort n { p with svcTick := 0, svcDrop := false, floodRun := run }
      if 0 < run ∧ c.fld Reg.boomGuard 11 0 ≤ run then c1.boomFence n 5 else c1) c

/-- The boundary's work of the Boom block: the tree, the messages of the tick that ended in the order of R418, flooding, and the frames of the new tick. -/
def Chip.boomBoundary (c : Chip) (e : Env) : Chip :=
  if !e.part.full || !c.bit Reg.boomCtrl 0 then c
  else
    let c0 := (c.treeBoundary e).floodBoundary
    let order := sortBy (fun x => match x.1 with | none => 0 | some n => n + 1) c0.boom.inbox
    let c1 := order.foldl (fun c x => c.svcAct e x) { c0 with boom := { c0.boom with inbox := [] } }
    c1.tickFrames

/-- BOOM_SVC_REQ.GO (R418, R505). An ahead package enters no barrier (R415). -/
def Chip.boomGo (c : Chip) (e : Env) (op : Nat) : Chip :=
  if !e.part.full || c.boom.request.isSome then c
  else
    let c1 := ((c.setReg Reg.boomSvcReq (2 ^ 31 + op % 8 * 2 ^ 28)).setReg Reg.boomSvcRes 0).setReg Reg.boomSvcMiss 0
    let c2 := { c1 with boom := { c1.boom with request := some (op, none) } }
    if 4 ≤ op then c2.requestDone cstBad 0 0
    else if op = 1 then
      if c2.boom.align = 3 || (c2.svc 1).any (·.self) then c2.requestDone cstBusy 0 0 else (c2.addSvc 1 0 0).svcSelf 1 1 0
    else
      let data := if op = 0 then (List.range 4).map (fun i => BitVec.ofNat 32 (c2.reg (Reg.boomSvcData i))) else []
      c2.svcRequest e none ⟨0, op, 0, e.node, 0, 0, 0, data⟩

/-- BOOM_BROADCAST (R419). -/
def execBoomBroadcast (s : State) : Host.Outcome State Fault Refusal := onChip (fun c => c.boomGo s.env 0) s

/-- BOOM_BARRIER (R419). -/
def execBoomBarrier (s : State) : Host.Outcome State Fault Refusal := onChip (fun c => c.boomGo s.env 1) s

/-- BOOM_SNAPSHOT (R419). -/
def execBoomSnapshot (s : State) : Host.Outcome State Fault Refusal := onChip (fun c => c.boomGo s.env 2) s

/-- BOOM_SYSTEM_RESET (R419). -/
def execBoomSystemReset (s : State) : Host.Outcome State Fault Refusal := onChip (fun c => c.boomGo s.env 3) s

/-- SVC_REPORT_TIMEOUT (R421, R422): the package goes on without the child, whose last SIZE counts in COUNT_B; the port is DOWN. -/
def Chip.reportTimeout (c : Chip) (n : Nat) : Chip :=
  match c.boom.svcs.find? (fun v => v.self && v.due.contains n && decide (v.dueTick ≤ c.tick)) with
  | none => c
  | some v =>
    let size := ((c.port n).root.map (fun r => r.1.size)).getD 0
    let c1 := c.updSvc v.op (fun v => { v with
      due := v.due.filter (· != n)
      countB := v.countB + size
      timeout := v.timeout || v.op == 1 })
    let c2 := c1.tryReport v.op
    if (c2.port n).phase = .up then c2.boomDown n else c2

/-- SVC_REPORT_TIMEOUT. -/
def execSvcReportTimeout (port : Nat) (s : State) : Host.Outcome State Fault Refusal := onChip (fun c => c.reportTimeout port) s

/-- EPOCH_SIGNED (R368): the oldest epoch record is signed; the signature of a snapshot's strike ends this package's part in it (R419). -/
def execEpochSigned (s : State) : Host.Outcome State Fault Refusal :=
  onChip (fun c =>
    let c1 := c.signEpoch
    match c.sealer.signing, c.sealer.strikeSid with
    | x :: _, some _ =>
      if c1.sealer.signing.length < c.sealer.signing.length ∧ x.2.2.2 ∧ (c.svc 2).any (fun v => v.tick == x.2.2.1) then
        { c1 with sealer := { c1.sealer with strikeSid := none } }.svcSelf 2 1 0
      else c1
    | _, _ => c1) s

end Sys2Proof.Machine
end

