-- ==== Sys2Proof/Machine/Cords.lean ====
section
/-! DEFINITION. Cords, cord blocks, the life of a row group, the landing and the page map (R150-R176). -/

namespace Sys2Proof.Machine

/-! The population (R9, R11, R102). -/

/-- The channel entry of a channel. -/
def Env.chan (e : Env) (n : Nat) : NandChan := Tab.get (fun _ => e.nand.rest) e.nand.chans n

/-- A part descriptor that stands for none. -/
def NandPart.none : NandPart := ⟨[], 0, 2, 1, 0, 0, 0, 0, 0, 0, 0, 0⟩

/-- The part descriptor of an index. -/
def Env.partDesc (e : Env) (i : Nat) : NandPart := (e.nand.parts[i]?).getD NandPart.none

/-- The part index of a die. -/
def Env.diePart (e : Env) (die : Nat) : Nat := (e.chan (die / 32)).part

/-- The part descriptor of a die. -/
def Env.diePartDesc (e : Env) (die : Nat) : NandPart := e.partDesc (e.diePart die)

/-- The cluster of a die (R9, R11). -/
def dieCluster (die : Nat) : Nat := die / 128

/-- The channel is in a present region. -/
def Env.chanPresent (e : Env) (n : Nat) : Bool := decide (n < 32 * e.part.regions)

/-- The die is declared on a present channel (R89, R102). -/
def Env.dieDeclared (e : Env) (die : Nat) : Bool :=
  e.chanPresent (die / 32) && (e.chan (die / 32)).part != 255 && bitOf (e.chan (die / 32)).ceMask (die % 32 / 8) &&
    decide (die % 8 < (e.diePartDesc die).luns)

/-- A die. -/
def Chip.die (c : Chip) (d : Nat) : Die := Tab.get (fun _ => Die.fresh) c.cal.dies d

/-- Puts a die. -/
def Chip.setDie (c : Chip) (d : Nat) (x : Die) : Chip :=
  { c with cal := { c.cal with dies := Tab.set (fun _ => Die.fresh) c.cal.dies d x } }

/-- The die is fenced. -/
def Chip.dieFenced (c : Chip) (d : Nat) : Bool := (c.die d).phase == .fenced

/-! Cord formation (R151). -/

/-- The cluster key. -/
def clusterKey (c : Nat) : Nat := c % 8 * 4 + c / 8

/-- The eligible dies of a part in a cluster, rising. -/
def eligible (e : Env) (c : Chip) (part cluster : Nat) : List Nat :=
  ((List.range 128).map (cluster * 128 + ·)).filter (fun d =>
    e.dieDeclared d && e.diePart d == part && !c.dieFenced d && !(c.die d).retired)

/-- Takes cords of 16 members while 16 clusters have dies left. -/
def formLoop : Nat → List (Nat × List Nat) → List (List Nat) × List (Nat × List Nat)
  | 0, rest => ([], rest)
  | fuel + 1, rest =>
    let open_ := rest.filter (fun p => decide (p.2 ≠ []))
    if open_.length < 16 then ([], rest)
    else
      let picked := sortBy (fun p => clusterKey p.1) ((sortBy (fun p => (4096 - p.2.length) * 64 + clusterKey p.1) open_).take 16)
      let used := picked.map (fun p => p.2.headD 0)
      let rest' := rest.map (fun p => if used.contains (p.2.headD 4096) then (p.1, p.2.drop 1) else p)
      let (cs, left) := formLoop fuel rest'
      (used :: cs, left)

/-- The cords and spares of a part. -/
def formPart (e : Env) (c : Chip) (part : Nat) : List (List Nat) × List Nat :=
  let n := c.fld Reg.mapCordCfg 3 0
  let all := (List.range (8 * e.part.regions)).map (fun k => (k, eligible e c part k))
  let spares := all.flatMap (fun p => p.2.drop (p.2.length - n))
  let (cs, left) := formLoop 256 (all.map (fun p => (p.1, p.2.take (p.2.length - n))))
  (cs, spares ++ left.flatMap (·.2))

/-- Forms the cords of every part in turn (R150, R151). -/
def Chip.formCords (c : Chip) (e : Env) : Chip :=
  let put := fun (c : Chip) (part : Nat) =>
    let (cs, sp) := formPart e c part
    let base := c.map.cords.length
    let new := (cs.zipIdx.map (fun p => (⟨base + p.2, part, p.1, false, false⟩ : Cord))).filter (fun x => decide (x.id < 256))
    { c with map := { c.map with cords := c.map.cords ++ new, spares := sp.foldl (fun l d => insertNat d l) c.map.spares } }
  let c1 := (List.range e.nand.parts.length).foldl put c
  { c1 with map := { c1.map with formed := true } }

/-- A cord by number. -/
def Chip.cord (c : Chip) (i : Nat) : Option Cord := c.map.cords.find? (fun x => x.id == i)

/-- Changes a cord. -/
def Chip.updCord (c : Chip) (i : Nat) (g : Cord → Cord) : Chip :=
  { c with map := { c.map with cords := updateWhere (fun x => x.id == i) g c.map.cords } }

/-! Geometry (R153, R154, R170). -/

/-- Rows per wordline group. -/
def rpwOf (mode : Nat) : Nat := if mode = 0 then 1 else if mode = 1 then 3 else 4

/-- Rows of a cord block. -/
def NandPart.rows (p : NandPart) (mode : Nat) : Nat := if mode = 0 then p.pages / (if p.cell = 1 then 3 else 4) else p.pages

/-- Host sectors of a row. -/
def NandPart.sRow (p : NandPart) : Nat := 15 * p.planes * 4

/-- The member slot of a data slot in a row (R154). -/
def memberOf (rpw row slot : Nat) : Nat := (row / rpw % 16 + 1 + slot) % 16

/-- The data slot that a member carries in a row; none on the parity member. -/
def slotOf (rpw row member : Nat) : Option Nat :=
  let d := (member + 16 - row / rpw % 16) % 16
  if d = 0 then none else some (d - 1)

/-- The map entry of a place in flash (R173). -/
def locWord (l : Loc) : Nat :=
  2 ^ 63 + l.cord * 2 ^ 38 + l.cblk * 2 ^ 22 + l.row * 2 ^ 9 + l.slot * 2 ^ 5 + l.plane * 4 + l.sect

/-- The map entry of a sector in the landing. -/
def landWord (buf sect : Nat) : Nat := 2 ^ 63 + 2 ^ 62 + sect * 2 ^ 32 + buf

/-- The entry of an unreadable sector. -/
def unrdWord : Nat := 2 ^ 63 + 2 ^ 61

/-- The place that an entry names. -/
def wordLoc (w : Nat) : Loc := ⟨bitsOf w 45 38, bitsOf w 37 22, bitsOf w 21 9, bitsOf w 8 5, bitsOf w 4 2, bitsOf w 1 0⟩

/-- The key of a place in the flash table. -/
def locKey (l : Loc) : Nat := locWord l % 2 ^ 61

/-- A stored sector in flash. -/
def Chip.flashAt (c : Chip) (l : Loc) : Stored := Tab.get (fun _ => Stored.none) c.map.flash (locKey l)

/-- Puts a sector into flash. -/
def Chip.setFlash (c : Chip) (l : Loc) (x : Stored) : Chip :=
  { c with map := { c.map with flash := Tab.set (fun _ => Stored.none) c.map.flash (locKey l) x } }

/-- A sector of a landing buffer. -/
def Chip.landed (c : Chip) (buf sect : Nat) : Stored := Tab.get (fun _ => Stored.none) c.map.landing (buf * 4 + sect)

/-- Puts a sector into a landing buffer. -/
def Chip.setLanded (c : Chip) (buf sect : Nat) (x : Stored) : Chip :=
  { c with map := { c.map with landing := Tab.set (fun _ => Stored.none) c.map.landing (buf * 4 + sect) x } }

/-- A pad sector: 4,096 zero bytes, FLAGS bit 0 (R159). -/
def padSector (nsx fn ltag : Nat) : Stored := ⟨[], ltag, nsx, fn, 1, 0⟩

/-! Blocks (R116-R119, R152). -/

/-- A block. -/
def Chip.blk (c : Chip) (die b : Nat) : Blk := Tab.get (fun _ => Blk.fresh) c.map.blocks (die * 65536 + b)

/-- Puts a block. -/
def Chip.setBlk (c : Chip) (die b : Nat) (x : Blk) : Chip :=
  { c with map := { c.map with blocks := Tab.set (fun _ => Blk.fresh) c.map.blocks (die * 65536 + b) x } }

/-- A table marks the block bad on some plane (R152). -/
def Chip.badBlock (c : Chip) (die b : Nat) : Bool :=
  c.map.factory.contains (die * 65536 + b) || c.map.grown.any (fun g => g.die == die && g.block == b && decide (g.cause ≤ 4))

/-- The blocks of a die that stand in a table of bad blocks or in the block table, rising. -/
def Chip.knownBlocks (c : Chip) (die : Nat) : List Nat :=
  let inDie := fun (k : Nat) => decide (k / 65536 = die)
  let l1 := (c.map.blocks.filter (fun p => inDie p.1)).map (fun p => p.1 % 65536)
  let l2 := (c.map.factory.filter inDie).foldl (fun l k => insertNat (k % 65536) l) l1
  (c.map.grown.filter (fun g => g.die == die && decide (g.cause ≤ 4))).foldl (fun l g => insertNat g.block l) l2

/-- The block can be taken for a cord block (R152). -/
def Chip.usable (c : Chip) (die b : Nat) : Bool := !c.badBlock die b && (c.blk die b).erased && !(c.blk die b).inUse

/-- The number of usable blocks of a die. -/
def Chip.freeBlocks (c : Chip) (e : Env) (die : Nat) : Nat :=
  (e.diePartDesc die).blocks - ((c.knownBlocks die).filter (fun b => !c.usable die b)).length

/-- The usable erased block with the lowest erase count, ties to the lower number (R152). -/
def Chip.pickBlock (c : Chip) (e : Env) (die : Nat) : Option Nat :=
  let n := (e.diePartDesc die).blocks
  let known := c.knownBlocks die
  let unlisted := kthFree known 0 0
  let cand := known.filter (fun b => decide (b < n) && c.usable die b) ++ (if unlisted < n then [unlisted] else [])
  minBy (fun b => (c.blk die b).erases * 65536 + b) cand

/-- Free cord blocks of a cord, the reserved refuge cord block not counted (R156, R180). -/
def Chip.freeCblks (c : Chip) (e : Env) (x : Cord) : Nat :=
  if x.retired then 0 else ((x.members.map (c.freeBlocks e)).foldl Nat.min 65536) - 1

/-- The GC pressure of a cord: 0 none, 1 background, 2 below LO, 3 at FLOOR (R183). -/
def Chip.gcLevel (c : Chip) (e : Env) (x : Cord) : Nat :=
  let free := c.freeCblks e x
  if free ≤ c.fld Reg.mapGcCfg 23 16 then 3
  else if free < c.fld Reg.mapGcCfg 15 8 then 2
  else if free < c.fld Reg.mapGcCfg 7 0 then 1
  else 0

/-- The cord may open a host-data group (R183). -/
def Chip.mayOpenHost (c : Chip) (e : Env) (x : Cord) : Bool :=
  match c.gcLevel e x with
  | 3 => false
  | 2 => decide (Tab.get (fun _ => 0) c.map.ratio x.id < c.fld Reg.mapGcCfg 31 24)
  | _ => true

/-- A group of a class was opened in a cord: what R183 counts below LO. -/
def Chip.countGroup (c : Chip) (e : Env) (x : Cord) (cls : CbClass) : Chip :=
  let n := Tab.get (fun _ => 0) c.map.ratio x.id
  let n' := if cls = .gc then 0 else if cls = .host && c.gcLevel e x == 2 then n + 1 else n
  { c with map := { c.map with ratio := Tab.set (fun _ => 0) c.map.ratio x.id n' } }

/-! Cord blocks. -/

/-- A cord block. -/
def Chip.cblk (c : Chip) (cord idx : Nat) : Option CordBlk := c.map.cblks.find? (fun b => b.cord == cord && b.idx == idx)

/-- Changes a cord block. -/
def Chip.updCblk (c : Chip) (cord idx : Nat) (g : CordBlk → CordBlk) : Chip :=
  { c with map := { c.map with cblks := updateWhere (fun b => b.cord == cord && b.idx == idx) g c.map.cblks } }

/-- The part descriptor of a cord. -/
def Chip.cordPart (c : Chip) (e : Env) (i : Nat) : NandPart :=
  match c.cord i with
  | some x => e.partDesc x.part
  | none => NandPart.none

/-- Rows of a cord block. -/
def Chip.cblkRows (c : Chip) (e : Env) (b : CordBlk) : Nat := (c.cordPart e b.cord).rows b.mode

/-- The cord block has a further wordline group to open. -/
def Chip.hasGroup (c : Chip) (e : Env) (b : CordBlk) : Bool :=
  !b.stopped && decide ((b.groups + 1) * rpwOf b.mode ≤ c.cblkRows e b)

/-- What a new cord block serves. -/
structure CbUse where
  mode : Nat
  cls : CbClass
  nsx : Nat
  zone : Nat
  lane : Nat
  handle : Nat
  evid : Bool
  deriving DecidableEq, Repr

/-- Takes a block of each member (R152): the members of the new cord block, and the chip with the blocks in use. -/
def Chip.takeBlocks (c : Chip) (e : Env) : List Nat → Option (List (Nat × Nat) × Chip)
  | [] => some ([], c)
  | d :: t =>
    match c.pickBlock e d with
    | none => none
    | some b =>
      match (c.setBlk d b { c.blk d b with inUse := true, erased := false }).takeBlocks e t with
      | none => none
      | some (l, c1) => some ((d, b) :: l, c1)

/-- Opens a cord block in a cord (R152): its index, and the chip. -/
def Chip.openCblk (c : Chip) (e : Env) (x : Cord) (u : CbUse) : Option (Nat × Chip) :=
  if c.freeCblks e x = 0 then none
  else
    match c.takeBlocks e x.members with
    | none => none
    | some (ms, c1) =>
      let idx := Tab.get (fun _ => 0) c.map.nextCblk x.id
      let b : CordBlk := ⟨x.id, idx, ms, u.mode, u.cls, u.nsx, u.zone, u.lane, u.handle, u.evid, 0, 0, false, 0, 0⟩
      some (idx, { c1 with map := { c1.map with
        cblks := c1.map.cblks ++ [b]
        nextCblk := Tab.set (fun _ => 0) c1.map.nextCblk x.id ((idx + 1) % 65536) } })

/-- The cords of a program mode, SLC-mode in any (R152), with most free cord blocks first, ties to the lower number (R169, log entry 17). -/
def Chip.cordsByFree (c : Chip) (e : Env) (mode : Nat) : List Cord :=
  sortBy (fun x => 65536 - c.freeCblks e x)
    (c.map.cords.filter (fun x => !x.retired && (mode == 0 || (e.partDesc x.part).cell == mode) && decide (0 < c.freeCblks e x)))

/-- A cord block goes back to its cord's free lists: every sector in it is gone, and the erase of each of its blocks is booked (R172, R181). -/
def Chip.eraseCblk (c : Chip) (e : Env) (cord idx : Nat) : Chip :=
  match c.cblk cord idx with
  | none => c
  | some b =>
    let c0 := b.members.foldl (fun c m => c.setBlk m.1 m.2 { c.blk m.1 m.2 with erased := false, inUse := false }) c
    let req := fun (m : Nat × Nat) => (⟨.erase m.1 m.2, m.1, .erase, b.mode, 2 ^ (e.diePartDesc m.1).planes - 1, 0, false, false⟩ : StartReq)
    let c1 := { c0 with cal := { c0.cal with starts := c0.cal.starts ++ b.members.map req } }
    let gone := fun (k : Nat) => bitsOf k 45 38 == cord && bitsOf k 37 22 == idx
    { c1 with map := { c1.map with
      cblks := c1.map.cblks.filter (fun x => !(x.cord == cord && x.idx == idx))
      flash := c1.map.flash.filter (fun p => !gone p.1)
      refresh := c1.map.refresh.filter (fun r => !(r.cord == cord && r.cblk == idx)) } }

/-- Valid sectors of a cord block of conventional namespaces (R180). -/
def Chip.validCount (c : Chip) (cord idx : Nat) : Nat :=
  (c.map.entries.filter (fun p => bitOf p.2 63 && !bitOf p.2 62 && bitsOf p.2 45 38 == cord && bitsOf p.2 37 22 == idx)).length

/-- A cord block is closed when all rows that it opened are (R180). -/
def Chip.cblkQuiet (c : Chip) (cord idx : Nat) : Bool := !c.map.groups.any (fun g => g.cord == cord && g.cblk == idx)

/-! Groups. -/

/-- Data pages of a group. -/
def Group.dataPages (g : Group) : Nat := 15 * g.planes * g.rpw

/-- The place of the `i`-th data page of a group: row in the group, data slot, plane. -/
def Group.pageAt (g : Group) (i : Nat) : Nat × Nat × Nat := (i / (15 * g.planes), i % (15 * g.planes) / g.planes, i % g.planes)

/-- Row of the cord block of a row of the group. -/
def Group.rowOf (g : Group) (row : Nat) : Nat := g.g * g.rpw + row

/-- The place of a sector of a page of the group. -/
def Group.loc (g : Group) (p : GPage) (sect : Nat) : Loc := ⟨g.cord, g.cblk, g.rowOf p.row, p.slot, p.plane, sect⟩

/-- Every data page of the group is there and whole (R157). -/
def Group.full (g : Group) : Bool := g.pages.length == g.dataPages && g.pages.all (fun p => p.fill == 4)

/-- A group by id. -/
def Chip.group (c : Chip) (id : Nat) : Option Group := c.map.groups.find? (fun g => g.id == id)

/-- Changes a group. -/
def Chip.updGroup (c : Chip) (id : Nat) (f : Group → Group) : Chip :=
  { c with map := { c.map with groups := updateWhere (fun g => g.id == id) f c.map.groups } }

/-- The owner kind of the buffers of a class's data pages (R381). -/
def CbClass.bufKind : CbClass → Nat
  | .host => 0
  | .gc => 5
  | .map => 3
  | .journal => 4
  | .seal => 8
  | .refuge => 7

/-- Takes `n` landing buffers; a refusal takes none. -/
def Chip.allocN (c : Chip) (e : Env) (kind fn region : Nat) (pad : Bool) : Nat → Nat × List Nat × Chip
  | 0 => (cstOk, [], c)
  | n + 1 =>
    let (st, h, c1) := c.alloc e kind fn region true false pad
    if st ≠ cstOk then (st, [], c)
    else
      let (st2, hs, c2) := c1.allocN e kind fn region pad n
      if st2 ≠ cstOk then (st2, [], c) else (cstOk, h :: hs, c2)

/-- Opens group `g` of a cord block: status, id and chip. It holds no buffer until its first page arrives (R157). -/
def Chip.openGroup (c : Chip) (e : Env) (cord idx g : Nat) (fn nsx : Nat) (zone : Option (Nat × Nat)) : Nat × Nat × Chip :=
  match c.cblk cord idx, c.cord cord with
  | some b, some x =>
    let planes := (e.partDesc x.part).planes
    let rpw := rpwOf b.mode
    let id := c.map.nextGroup
    let grp : Group := ⟨id, cord, idx, g, b.cls, .filling, c.tick, rpw, planes, b.mode, fn, nsx, zone, b.handle, [], [], [], [], [], false, 0⟩
    let c2 := { c with map := { c.map with groups := c.map.groups ++ [grp], nextGroup := id + 1 } }
    (cstOk, id, (c2.updCblk cord idx (fun b => { b with groups := Nat.max b.groups (g + 1) })).countGroup e x b.cls)
  | _, _ => (cstBusy, 0, c)

/-- The programs of a group in DATA: one for each data slot (R157, R158). -/
def Chip.startData (c : Chip) (id : Nat) : Chip :=
  match c.group id with
  | none => c
  | some g =>
    match c.cblk g.cord g.cblk with
    | none => c
    | some b =>
      let req := fun (s : Nat) =>
        let m := b.members.getD (memberOf g.rpw (g.rowOf 0) s) (0, 0)
        (⟨.program id s, m.1, .program, g.mode, 2 ^ g.planes - 1, g.fn, true, false⟩ : StartReq)
      { c with cal := { c.cal with starts := c.cal.starts ++ (List.range 15).map req } }

/-- The parity program of a group in PARITY (R158). -/
def Chip.startParity (c : Chip) (id : Nat) : Chip :=
  match c.group id with
  | none => c
  | some g =>
    match c.cblk g.cord g.cblk with
    | none => c
    | some b =>
      let m := b.members.getD (g.g % 16) (0, 0)
      { c with cal := { c.cal with starts := c.cal.starts ++ [⟨.parity id, m.1, .program, g.mode, 2 ^ g.planes - 1, g.fn, true, false⟩] } }

/-- A group that is full leaves FILLING: its data programs are booked (R157). -/
def Chip.toData (c : Chip) (id : Nat) : Chip :=
  match c.group id with
  | none => c
  | some g => if g.phase = .filling && g.full && !g.replace then (c.updGroup id (fun g => { g with phase := .data })).startData id else c

/-- Puts one sector into a group (R157, R323): status, the buffer and sector it took, and the chip. A page holds the sectors of one namespace. The running
parity buffer of a row's plane is taken when its first page arrives (R155). -/
def Chip.putSector (c : Chip) (e : Env) (id fn region : Nat) (x : Stored) : Nat × Nat × Chip :=
  match c.group id with
  | none => (cstBusy, 0, c)
  | some g =>
    match g.pages.find? (fun p => decide (p.fill < 4) && p.nsx == x.nsx && !p.pad) with
    | some p =>
      let c1 := c.setLanded p.buf p.fill x
      (cstOk, landWord p.buf p.fill,
        (c1.updGroup id (fun g => { g with pages := updateWhere (fun q => q.buf == p.buf) (fun q => { q with fill := q.fill + 1 }) g.pages })).toData id)
    | none =>
      if g.dataPages ≤ g.pages.length then (cstBusy, 0, c)
      else
        let (r, s, pl) := g.pageAt g.pages.length
        let (st, h, c1) := c.alloc e g.cls.bufKind fn region true false false
        let (st2, hs, c2) := if st = cstOk then c1.allocN e 2 0 region false (r * g.planes + pl + 1 - g.parity.length) else (st, [], c1)
        if st2 ≠ cstOk then (st2, 0, c)
        else
          let c3 := (c2.setLanded h 0 x).updGroup id (fun g => { g with
            pages := g.pages ++ [⟨r, s, pl, h, x.nsx, 1, false, false⟩]
            parity := g.parity ++ hs })
          (cstOk, landWord h 0, c3.toData id)

/-- Sector places that a group has left for a namespace. -/
def Group.room (g : Group) (nsx : Nat) : Nat :=
  (g.dataPages - g.pages.length) * 4 + sumNat ((g.pages.filter (fun p => p.nsx == nsx && !p.pad)).map (fun p => 4 - p.fill))

/-- A filling group of a stream (class, placement handle, mode) with room for `n` sectors; the namespace's open page must be the last one when the
sectors have to be consecutive. -/
def Chip.streamGroup (c : Chip) (cls : CbClass) (handle mode nsx n : Nat) (consecutive : Bool) (only : Option Nat) : Option Group :=
  c.map.groups.find? (fun g => g.cls == cls && g.handle == handle && g.mode == mode && g.zone.isNone && g.phase == .filling && !g.replace &&
    (only.isNone || only == some g.cord) && decide (n ≤ g.room nsx) &&
    (!consecutive || (g.pages.all (fun p => p.fill == 4 || p.nsx != nsx || p.pad) || (g.pages.getLast?).any (fun p => p.nsx == nsx && decide (p.fill < 4)))))

/-- The cord may open a group of a class. -/
def Chip.mayOpen (c : Chip) (e : Env) (cls : CbClass) (x : Cord) : Bool := !x.retired && (cls != .host || c.mayOpenHost e x)

/-- Opens the next group of a stream: in a cord block that it has open, else in a new one (R181, R183). Status: 0, POOL_EMPTY for want of buffers,
or BUSY_RETRY where no cord can open a group and the work waits. -/
def Chip.openStream (c : Chip) (e : Env) (cls : CbClass) (handle mode fn nsx : Nat) (only : Option Nat) : Nat × Nat × Chip :=
  let ok := fun (i : Nat) => (only.isNone || only == some i) && (c.cord i).any (c.mayOpen e cls)
  match c.map.cblks.find? (fun b => b.cls == cls && b.handle == handle && b.mode == mode && ok b.cord && c.hasGroup e b) with
  | some b => c.openGroup e b.cord b.idx b.groups fn nsx none
  | none =>
    match (c.cordsByFree e mode).find? (fun x => ok x.id) with
    | none => (cstBusy, 0, c)
    | some x =>
      match c.openCblk e x ⟨mode, cls, 0, 0, 0, handle, false⟩ with
      | none => (cstBusy, 0, c)
      | some (idx, c1) =>
        let (st, id, c2) := c1.openGroup e x.id idx 0 fn nsx none
        if st = cstOk then (cstOk, id, c2) else (st, 0, c)

/-- The group of a stream that takes `n` sectors of a namespace. -/
def Chip.groupFor (c : Chip) (e : Env) (cls : CbClass) (handle mode fn nsx n : Nat) (consecutive : Bool) (only : Option Nat) : Nat × Nat × Chip :=
  match c.streamGroup cls handle mode nsx n consecutive only with
  | some g => (cstOk, g.id, c)
  | none => c.openStream e cls handle mode fn nsx only

/-! The page map (R173-R179). -/

/-- The key of a map entry. -/
def entKey (nsx lba : Nat) : Nat := nsx * 2 ^ 40 + lba

/-- The map page of an entry. -/
def pageKey (nsx lba : Nat) : Nat := nsx * 2 ^ 29 + lba / 2048

/-- The map page of an entry's key. -/
def entPage (k : Nat) : Nat := pageKey (k / 2 ^ 40) (k % 2 ^ 40)

/-- A map entry in force. -/
def Chip.entry (c : Chip) (nsx lba : Nat) : Nat := Tab.get (fun _ => 0) c.map.entries (entKey nsx lba)

/-- The cache slot of a map page. -/
def Chip.mslot (c : Chip) (page : Nat) : MapSlot := Tab.get (fun _ => MapSlot.free) c.map.slots page

/-- Puts a cache slot. -/
def Chip.setMslot (c : Chip) (page : Nat) (x : MapSlot) : Chip :=
  { c with map := { c.map with slots := Tab.set (fun _ => MapSlot.free) c.map.slots page x } }

/-- The page is in the cache: always so in full-table mode (R179). -/
def Chip.resident (c : Chip) (page : Nat) : Bool :=
  c.map.full || (match (c.mslot page).state with | .free => false | .fetching => false | _ => true)

/-- Cache slots that the cache has in all (R393): 65,536 in each GiB. -/
def Chip.cacheSlots (c : Chip) : Nat := c.dram.mapNow * 65536

/-- The first clean slot that may be evicted (R175). -/
def Chip.evictable (c : Chip) : Option Nat :=
  (c.map.slots.find? (fun p => p.2.state == .clean && !p.2.pin && p.2.lookups == 0)).map (·.1)

/-- A miss starts a fetch (R175): a slot is taken, an evictable one if all are in use. False where none is. -/
def Chip.startFetch (c : Chip) (page : Nat) : Bool × Chip :=
  if (c.mslot page).state ≠ .free then (true, c)
  else
    let c1 := c.bump Reg.mapMissCnt 31 0 1
    let fresh : MapSlot := { MapSlot.free with
      state := .fetching
      pin := c.map.pinned.contains (page / 2 ^ 29) }
    if c.map.slots.length < c.cacheSlots then (true, c1.setMslot page fresh)
    else
      match c.evictable with
      | none => (false, c)
      | some v => (true, (c1.setMslot v MapSlot.free).setMslot page fresh)

/-- An entry takes its new value. -/
def Chip.applyEntry (c : Chip) (k w : Nat) : Chip :=
  { c with map := { c.map with entries := Tab.set (fun _ => 0) c.map.entries k w } }

/-- The 16 KiB of a map page: its 2,048 entries. -/
def Chip.pageBytes (c : Chip) (page sect : Nat) : List Byte :=
  (List.range 512).flatMap (fun i => leBytes 8 (c.entry (page / 2 ^ 29) (page % 2 ^ 29 * 2048 + sect * 512 + i)))

/-- Writes a dirty page back (R174-R176): its copy enters a landing buffer of a map row, the slot is clean and its journal records are freed.
Where the copy finds no place the page stays dirty. -/
def Chip.writeBack (c : Chip) (e : Env) (page : Nat) : Chip :=
  let (st, id, c1) := c.groupFor e .map 0 0 0 (page / 2 ^ 29) 4 true none
  if st ≠ cstOk then c
  else
    let put := fun (a : Nat × List Nat × Chip) (s : Nat) =>
      if a.1 ≠ cstOk then a
      else
        let (st, w, c2) := a.2.2.putSector e id 0 0 ⟨c.pageBytes page s, page % 2 ^ 29, page / 2 ^ 29, 0, 4, 0⟩
        (st, a.2.1 ++ [w], c2)
    let (st2, ws, c2) := (List.range 4).foldl put (cstOk, [], c1)
    if st2 ≠ cstOk then c
    else
      let c3 := c2.setMslot page { c.mslot page with state := .clean }
      { c3 with map := { c3.map with
        journal := c3.map.journal.filter (fun r => entPage r.1 != page)
        dir := Tab.set (fun _ => 0) c3.map.dir page (ws.headD 0) } }

/-- Write-back runs while dirty slots exceed DIRTY_HI percent of the unpinned slots (R176): `n` bounds the pages. -/
def Chip.writeBackMany (c : Chip) (e : Env) : Nat → Chip
  | 0 => c
  | n + 1 =>
    let dirty := c.map.slots.filter (fun p => p.2.state == .dirty)
    let unpinned := c.cacheSlots - (c.map.slots.filter (fun p => p.2.pin)).length
    if dirty.length * 100 ≤ unpinned * c.fld Reg.mapCacheCfg 14 8 then c
    else
      match dirty with
      | [] => c
      | p :: _ => (c.writeBack e p.1).writeBackMany e n

/-- The journal is at its limit: the dirty page with the oldest record is written back (R174). -/
def Chip.journalRoom (c : Chip) (e : Env) : Chip :=
  if c.map.journal.length < c.fld Reg.mapJrnl 6 0 * 65536 then c
  else
    match c.map.journal with
    | [] => c
    | r :: _ => c.writeBack e (entPage r.1)

/-- An entry change (R174, R175): its journal record, then the change itself, or the change held while the page is fetched. -/
def Chip.setEntry (c : Chip) (e : Env) (nsx lba w : Nat) : Chip :=
  let k := entKey nsx lba
  let page := pageKey nsx lba
  let c1 := c.journalRoom e
  let c2 := { c1 with map := { c1.map with journal := c1.map.journal ++ [(k, w)] } }
  if c2.map.full then c2.applyEntry k w
  else
    match (c2.mslot page).state with
    | .free =>
      let (_, c3) := c2.startFetch page
      c3.setMslot page { c3.mslot page with state := .fetching, held := (c3.mslot page).held ++ [(k, w)] }
    | .fetching => c2.setMslot page { c2.mslot page with held := (c2.mslot page).held ++ [(k, w)] }
    | _ => ((c2.applyEntry k w).setMslot page { c2.mslot page with state := .dirty }).writeBackMany e 8

/-- The entry that a change in the pipeline leaves: the newest held change, else the entry in force. -/
def Chip.entryNow (c : Chip) (nsx lba : Nat) : Nat :=
  match ((c.mslot (pageKey nsx lba)).held.reverse.find? (fun h => h.1 == entKey nsx lba)) with
  | some h => h.2
  | none => c.entry nsx lba

/-- A fetch ends: held changes are applied in journal order (R175). -/
def Chip.fetchDone (c : Chip) (page : Nat) : Chip :=
  let x := c.mslot page
  if x.state ≠ .fetching then c
  else
    let c1 := x.held.foldl (fun c h => c.applyEntry h.1 h.2) c
    c1.setMslot page { x with state := if x.held = [] then .clean else .dirty, held := [], read := false }

/-! The packed-extent index (R262). -/

/-- The record of the packed extent that sector `lba` belongs to: an entry that points to the record's first stored sector. -/
def Chip.packedOf (c : Chip) (nsx lba : Nat) : Option (Nat × Nat × Nat × Nat × Nat) :=
  let w := c.entryNow nsx lba
  match (c.map.packed.filter (fun p => p.1 / 2 ^ 40 == nsx)).find? (fun p =>
      p.2.2.1 == w && decide (p.1 % 2 ^ 40 ≤ lba) && decide (lba < p.1 % 2 ^ 40 + p.2.1)) with
  | some p => some (p.1 % 2 ^ 40, p.2.1, p.2.2.1, p.2.2.2.1, p.2.2.2.2)
  | none => none

/-! The end of a group. -/

/-- Every sector of a page that points to its landing buffer points to its place in flash from now on (R160). -/
def Chip.switchSector (c : Chip) (e : Env) (g : Group) (p : GPage) (sect : Nat) : Chip :=
  let x := c.landed p.buf sect
  let old := landWord p.buf sect
  let new := locWord (g.loc p sect)
  let c1 := c.setFlash (g.loc p sect) { x with ptick := g.prog }
  if g.zone.isSome then c1
  else
    let c2 :=
      match c1.map.packed.find? (fun q => q.2.2.1 == old) with
      | some q =>
        let c2 := { c1 with map := { c1.map with
          packed := updateWhere (fun r => r.2.2.1 == old) (fun r => (r.1, r.2.1, new, r.2.2.2.1, r.2.2.2.2)) c1.map.packed } }
        (List.range q.2.1).foldl (fun c i =>
          if c.entryNow (q.1 / 2 ^ 40) (q.1 % 2 ^ 40 + i) = old then c.setEntry e (q.1 / 2 ^ 40) (q.1 % 2 ^ 40 + i) new else c) c2
      | none => c1
    let page := x.nsx * 2 ^ 29 + x.ltag
    if bitOf x.flags 0 then c2
    else if bitOf x.flags 2 then
      if Tab.get (fun _ => 0) c2.map.dir page = old then { c2 with map := { c2.map with dir := Tab.set (fun _ => 0) c2.map.dir page new } } else c2
    else if c2.entryNow x.nsx x.ltag = old then c2.setEntry e x.nsx x.ltag new
    else c2

/-- The landing contents of a buffer are gone. -/
def Chip.dropLanded (c : Chip) (buf : Nat) : Chip :=
  (List.range 4).foldl (fun c s => c.setLanded buf s Stored.none) c

/-- A reference of a landing buffer is released; its contents go when no reader holds it (R160, R384). -/
def Chip.releaseLanding (c : Chip) (e : Env) (buf : Nat) : Chip :=
  let c1 := (c.releaseRef e buf).2
  if (c1.buffer buf).refs = 0 then c1.dropLanded buf else c1

/-- The group's rows close (R157, R160): sectors are in flash, the map switches, the buffers are released. -/
def Chip.closeGroup (c : Chip) (e : Env) (id : Nat) : Chip :=
  match c.group id with
  | none => c
  | some g =>
    let c1 := g.pages.foldl (fun c p => (List.range 4).foldl (fun c s => c.switchSector e g p s) c) c
    let c2 := (g.pages.map (·.buf)).foldl (fun c h => (c.cleanBuf h).releaseLanding e h) c1
    let c3 := g.parity.foldl (fun c h => (c.cleanBuf h).releaseLanding e h) c2
    let c4 := c3.updCblk g.cord g.cblk (fun b => { b with
      closed := b.closed + g.rpw
      progTick := g.prog
      closeTick := c.tick })
    { c4 with map := { c4.map with groups := c4.map.groups.filter (fun x => x.id != id) } }

/-- Pads a group whose fill time has passed (R159): each empty data page takes a buffer of its own; a refused allocation changes nothing. -/
def Chip.padGroup (c : Chip) (e : Env) (id : Nat) : Bool × Chip :=
  match c.group id with
  | none => (false, c)
  | some g =>
    if g.phase ≠ .filling || g.replace then (false, c)
    else
      let need := g.dataPages - g.pages.length
      let (st0, hs, c0) := c.allocN e g.cls.bufKind g.fn 0 true need
      let (st, ps, c1) := if st0 = cstOk then c0.allocN e 2 0 0 false (g.rpw * g.planes - g.parity.length) else (st0, [], c0)
      if st ≠ cstOk then (false, c)
      else
        let news := hs.zipIdx.map (fun p =>
          let (r, s, pl) := g.pageAt (g.pages.length + p.2)
          (⟨r, s, pl, p.1, g.nsx, 4, false, true⟩ : GPage))
        let fillUp := fun (c : Chip) (p : GPage) =>
          (List.range (4 - p.fill)).foldl (fun c i => c.setLanded p.buf (p.fill + i) (padSector p.nsx g.fn 0)) c
        let c2 := g.pages.foldl fillUp c1
        let c3 := hs.foldl (fun c h => (List.range 4).foldl (fun c s => c.setLanded h s (padSector g.nsx g.fn 0)) c) c2
        let c4 := c3.updGroup id (fun g => { g with
          pages := g.pages.map (fun p => { p with fill := 4 }) ++ news
          parity := g.parity ++ ps })
        (true, c4.toData id)

/-! Replacement of a group (R161, R171). -/

/-- The splices of a lane. -/
def Zone.lane (y : Zone) (l : Nat) : List (Nat × Nat × Nat) := y.lanes.getD l []

/-- The splice of a lane that carries a group: the last one that starts at or before it. -/
def Zone.splice (y : Zone) (l gl : Nat) : Option (Nat × Nat × Nat) :=
  ((y.lane l).filter (fun (s : Nat × Nat × Nat) => decide (s.2.2 ≤ gl))).getLast?

/-- The cords of the other lanes. -/
def Zone.otherCords (y : Zone) (l : Nat) : List Nat :=
  (y.lanes.zipIdx.filter (fun (p : List (Nat × Nat × Nat) × Nat) => p.2 != l)).flatMap
    (fun (p : List (Nat × Nat × Nat) × Nat) => p.1.map (fun (q : Nat × Nat × Nat) => q.1))

/-- The group that a program is of. -/
def JobOwner.group : JobOwner → Option Nat
  | .program i _ => some i
  | .parity i => some i
  | _ => none

/-- The group's buffers are dirty again: nothing of it has passed at its new place. -/
def Chip.redirty (c : Chip) (g : Group) : Chip :=
  (g.pages.map (·.buf) ++ g.parity).foldl (fun c h =>
    let b := c.buffer h
    if b.refs = 0 then c else c.setBuffer h { b with dirty := true }) c

/-- Queues a cord block for refresh or relocation once, keeping the higher priority (R184). -/
def Chip.queueRefresh (c : Chip) (prio cord idx : Nat) (urgent : Bool) (retire : List (Nat × Nat × Nat)) : Chip :=
  if c.map.refresh.any (fun r => r.cord == cord && r.cblk == idx) then
    let up := fun (r : Refresh) => { r with prio := Nat.max r.prio prio, urgent := r.urgent || urgent, retire := r.retire ++ retire }
    { c with map := { c.map with refresh := updateWhere (fun r => r.cord == cord && r.cblk == idx) up c.map.refresh } }
  else { c with map := { c.map with refresh := c.map.refresh ++ [⟨prio, cord, idx, urgent, retire⟩] } }

/-- Priority codes of queued cord blocks (R184). -/
def prioReloc : Nat := 4
/-- Reasons UNCORR and TAG. -/
def prioUncorr : Nat := 4
/-- Reason STEP. -/
def prioStep : Nat := 3
/-- Reason CORR. -/
def prioCorr : Nat := 2
/-- Age. -/
def prioAge : Nat := 1

/-- The group is placed again whole in a fresh cord block of its class (R161); a zone's lane gets a splice, and a ninth one queues the lane for
relocation (R171). Without a cord block the group waits. -/
def Chip.replaceGroup (c : Chip) (e : Env) (id : Nat) : Chip :=
  match c.group id with
  | none => c
  | some g =>
    match c.cblk g.cord g.cblk with
    | none => c
    | some b =>
      let c0 := (c.updCblk g.cord g.cblk (fun b => { b with stopped := true })).updGroup id (fun g => { g with replace := true })
      let lanes := match g.zone with
        | none => []
        | some (z, l) => (c.zone g.nsx z).lane l
      let taken := match g.zone with
        | none => []
        | some (z, l) => (c.zone g.nsx z).otherCords l
      if 9 ≤ lanes.length then
        lanes.foldl (fun c s => c.queueRefresh prioReloc s.1 s.2.1 false []) c0
      else
        match (c0.cordsByFree e g.mode).find? (fun x => c0.mayOpen e g.cls x && !taken.contains x.id) with
        | none => c0
        | some x =>
          match c0.openCblk e x ⟨g.mode, g.cls, b.nsx, b.zone, b.lane, b.handle, b.evid⟩ with
          | none => c0
          | some (idx, c1) =>
            let gi := if g.zone.isSome then g.g else 0
            let c2 := c1.updGroup id (fun g => { g with
              cord := x.id
              cblk := idx
              g := gi
              passed := []
              replace := false
              phase := if g.full then .data else .filling
              pages := g.pages.map (fun p => { p with passed := false }) })
            let c3 := c2.updCblk x.id idx (fun b => { b with groups := gi + 1 })
            let c4 := match g.zone with
              | none => c3
              | some (z, l) => c3.updZone g.nsx z (fun y => { y with lanes := updateAt y.lanes l (fun s => s ++ [(x.id, idx, gi)]) })
            let c5 := { c4 with cal := { c4.cal with
              starts := c4.cal.starts.filter (fun r => !(r.owner.group == some id)) } }
            if g.full then (c5.redirty g).startData id else c5.redirty g

/-- A data program of a group passed (R158): its pages are clean; with the last one the group moves to PARITY. -/
def Chip.dataPassed (c : Chip) (id slot : Nat) : Chip :=
  match c.group id with
  | none => c
  | some g =>
    if g.phase ≠ .data || g.replace then c
    else
      let mine := g.pages.filter (fun p => p.slot == slot)
      let c1 := mine.foldl (fun c p => c.cleanBuf p.buf) c
      let passed := insertNat slot g.passed
      let done := passed.length == 15
      let c2 := c1.updGroup id (fun g => { g with
        passed := passed
        phase := if done then .parity else .data
        pages := updateWhere (fun p => p.slot == slot) (fun p => { p with passed := true }) g.pages })
      if done then c2.startParity id else c2

/-- The parity program passed: the rows close (R157). -/
def Chip.parityPassed (c : Chip) (e : Env) (id : Nat) : Chip :=
  match c.group id with
  | none => c
  | some g => if g.phase = .parity && !g.replace then c.closeGroup e id else c

/-! Losses in an open row (R162-R164). -/

/-- The page is lost now: none of its copies serves (R164). -/
def Group.pageLost (g : Group) (row : Nat) (slot : Option Nat) (plane : Nat) : Bool := g.lost.contains (row, slot, plane)

/-- The sectors of a lost page are marked unreadable, and pads take their places (R163). -/
def Chip.losePage (c : Chip) (e : Env) (g : Group) (p : GPage) : Chip :=
  (List.range p.fill).foldl (fun c s =>
    let x := c.landed p.buf s
    if bitOf x.flags 0 || bitOf x.flags 2 then c
    else
      let c1 := c.setLanded p.buf s { padSector x.nsx x.fn x.ltag with flags := 1 }
      match g.zone with
      | none => if c1.entryNow x.nsx x.ltag = landWord p.buf s then c1.setEntry e x.nsx x.ltag unrdWord else c1
      | some (z, _) =>
        c1.updZone g.nsx z (fun y =>
          let n := (c.ns g.nsx).map (fun n => x.ltag - z * n.zsze) |>.getD 0
          if y.lost.length < 64 then { y with lost := insertNat n y.lost }
          else { y with lostFrom := some (match y.lostFrom with | some m => Nat.min m n | none => n) })) c

/-- A row takes PARITY_LOST (R163, R303, R304). -/
def Chip.parityLost (c : Chip) (e : Env) (id row : Nat) : Chip :=
  match c.group id with
  | none => c
  | some g =>
    let lostPages := g.pages.filter (fun p => p.row == row && g.pageLost row (some p.slot) p.plane)
    let first := (lostPages.head?).map (fun p => c.landed p.buf 0)
    let n := sumNat (lostPages.map (·.fill))
    let c1 := lostPages.foldl (fun c p => c.losePage e g p) c
    let c2 := c1.updGroup id (fun g => { g with lost := g.lost.filter (fun l => l.1 != row), plRows := insertNat row g.plRows })
    let c3 := match g.zone with
      | some (z, _) => c2.updZone g.nsx z (fun y => { y with parityLost := some (y.parityLost.getD c.tick) })
      | none => c2.updNs g.nsx (fun x => { x with parityLost := some (x.parityLost.getD c.tick) })
    let c4 := c3.bump Reg.mapPlCnt 15 0 1
    let c5 := c4.raise 297 cstParity 0xFFFF (g.cord + 2 ^ 8 * g.cblk + 2 ^ 24 * g.rowOf row) 0
    match c5.ns g.nsx with
    | none => c5
    | some x =>
      match x.owner with
      | none => c5
      | some f =>
        let zs := match g.zone with | some (z, _) => z * x.zsze | none => 2 ^ 64 - 1
        c5.updFn f (fun y => { y with
          logC1 := ((g.nsx + 1, n, zs, (first.map (·.ltag)).getD 0, c5.stamp) :: y.logC1).take 64
          events := y.events ++ [(7, 0)] })

/-- A page of an open row is lost (R162-R164): the first loss of a row is rebuilt, a second one before that takes PARITY_LOST. A page whose program
has passed is not lost. -/
def Chip.losePageOf (c : Chip) (e : Env) (id row : Nat) (slot : Option Nat) (plane : Nat) : Chip :=
  match c.group id with
  | none => c
  | some g =>
    let there := match slot with
      | none => decide (plane < g.planes) && decide (row * g.planes + plane < g.parity.length)
      | some s => g.pages.any (fun p => p.row == row && p.slot == s && p.plane == plane && !p.passed)
    if !there || g.pageLost row slot plane || g.plRows.contains row then c
    else
      let c1 := c.updGroup id (fun g => { g with lost := g.lost ++ [(row, slot, plane)] })
      if g.lost.any (fun l => l.1 == row) then c1.parityLost e id row else c1

/-- A rebuild ends: the row has lost nothing (R162). -/
def Chip.rebuilt (c : Chip) (id row : Nat) : Chip := c.updGroup id (fun g => { g with lost := g.lost.filter (fun l => l.1 != row) })

/-! Zones (R169-R172). -/

/-- The geometry of a zone: rows per wordline group, sectors of a row, lanes. -/
structure ZGeo where
  rpw : Nat
  sRow : Nat
  planes : Nat
  w : Nat
  deriving DecidableEq, Repr

/-- The geometry of a zoned namespace: its part is the first descriptor of its mode (R169). -/
def Env.geo (e : Env) (n : Ns) : ZGeo :=
  let p := ((e.nand.parts.find? (fun p => p.cell == n.mode)).getD NandPart.none)
  ⟨rpwOf n.mode, p.sRow, p.planes, n.w⟩

/-- Where sector `z` of a zone lies (R170): lane, group of the lane, page of the group, sector of the page. -/
def ZGeo.locate (g : ZGeo) (z : Nat) : Nat × Nat × Nat × Nat :=
  let rowz := z / g.sRow
  let group := rowz / g.rpw
  let within := z % g.sRow
  (group % g.w, group / g.w, rowz % g.rpw * (15 * g.planes) + within / 4, within % 4)

/-- The place in flash of a closed sector of a zone (R170): the lane's last splice that starts at or before the group. -/
def Zone.place (x : Zone) (g : ZGeo) (z : Nat) : Option Loc :=
  let (lane, gl, page, sect) := g.locate z
  match x.splice lane gl with
  | none => none
  | some s =>
    some ⟨s.1, s.2.1, gl * g.rpw + page / (15 * g.planes), page % (15 * g.planes) / g.planes, page % g.planes, sect⟩

/-- The open group that holds a sector of a zone. -/
def Chip.zoneGroup (c : Chip) (e : Env) (nsx z sector : Nat) : Option Group :=
  match c.ns nsx with
  | none => none
  | some n =>
    let (lane, gl, _, _) := (e.geo n).locate sector
    c.map.groups.find? (fun g => g.nsx == nsx && g.zone == some (z, lane) && g.g == gl)

/-- Opens the W lanes of a zone at its first write (R169): in the cords with most free cord blocks that may open a host-data group. -/
def Chip.openLanes (c : Chip) (e : Env) (nsx z : Nat) (evid : Bool) : Option Chip :=
  match c.ns nsx with
  | none => none
  | some n =>
    let xs := ((c.cordsByFree e n.mode).filter (c.mayOpenHost e)).take n.w
    if xs.length < n.w then none
    else
      let open1 := fun (a : Option (List (List (Nat × Nat × Nat)) × Chip)) (p : Cord × Nat) =>
        match a with
        | none => none
        | some (l, c) =>
          match c.openCblk e p.1 ⟨n.mode, .host, nsx, z, p.2, 0xFFFF, evid⟩ with
          | none => none
          | some (idx, c1) => some (l ++ [[(p.1.id, idx, 0)]], c1)
      match xs.zipIdx.foldl open1 (some ([], c)) with
      | none => none
      | some (l, c1) => some (c1.updZone nsx z (fun y => { y with lanes := l, evid := evid }))

/-- The cord blocks of a zone are erased and its contents are gone (R172). Groups of the zone that are still open are dropped with their buffers. -/
def Chip.freeZone (c : Chip) (e : Env) (nsx z : Nat) : Chip :=
  let mine := fun (g : Group) => g.nsx == nsx && (match g.zone with | some (y, _) => y == z | none => false)
  let bufs := (c.map.groups.filter mine).flatMap (fun g => g.pages.map (·.buf) ++ g.parity)
  let c1 := bufs.foldl (fun c h => c.releaseLanding e h) c
  let ids := (c.map.groups.filter mine).map (·.id)
  let c2 := { c1 with
    map := { c1.map with groups := c1.map.groups.filter (fun g => !mine g) }
    cal := { c1.cal with starts := c1.cal.starts.filter (fun r =>
      !(r.owner.group.any ids.contains)) } }
  (c.zone nsx z).lanes.foldl (fun c l => l.foldl (fun c s => c.eraseCblk e s.1 s.2.1) c) c2

/-- A zone sector enters the landing at the write pointer (R170, R288): status and chip. -/
def Chip.putZone (c : Chip) (e : Env) (nsx z fn region : Nat) (x : Stored) : Nat × Chip :=
  match c.ns nsx with
  | none => (cstBad, c)
  | some n =>
    let y := n.zone z
    let (lane, gl, _, _) := (e.geo n).locate y.wp
    let (st, id, c1) := match c.zoneGroup e nsx z y.wp with
      | some g => (cstOk, g.id, c)
      | none =>
        match y.splice lane gl with
        | none => (cstBusy, 0, c)
        | some s =>
          if (c.cord s.1).any (c.mayOpenHost e) then c.openGroup e s.1 s.2.1 gl fn nsx (some (z, lane)) else (cstBusy, 0, c)
    if st ≠ cstOk then (st, c)
    else
      let (st2, _, c2) := c1.putSector e id fn region x
      if st2 ≠ cstOk then (st2, c)
      else (cstOk, c2.updZone nsx z (fun y => { y with wp := y.wp + 1, lastWrite := c.tick }))

end Sys2Proof.Machine
end

