-- ==== Sys2Proof/Machine/Calendar.lean ====
section
/-! DEFINITION. The tick's plan and the die calendars: figures, die states, booking, suspends, resumes, energy and the latency arithmetic
(R48-R87, R95-R109, R504). -/

namespace Sys2Proof.Machine

/-! Figures of the standing rules (R51, CAL_MODE_A and CAL_MODE_B). -/

/-- The figures of a program mode. -/
structure ModeFig where
  tr : Nat
  tsus : Nat
  tres : Nat
  lmin : Nat
  smax : Nat
  tprog : Nat
  tbers : Nat
  eallow : Nat
  inuse : Bool
  deriving DecidableEq, Repr

/-- Figures as two words spell them. -/
def figOf (a b : Nat) : ModeFig :=
  ⟨bitsOf a 7 0, bitsOf a 11 8, bitsOf a 15 12, bitsOf a 27 16, bitsOf a 30 28, bitsOf b 11 0, bitsOf b 23 12, bitsOf b 27 24, bitOf b 28⟩

/-- The committed figures of a program mode. -/
def Chip.fig (c : Chip) (m : Nat) : ModeFig := figOf (c.reg (Reg.calModeA m)) (c.reg (Reg.calModeB m))

/-- The staged figures. -/
def Chip.stgFig (c : Chip) (m : Nat) : ModeFig := figOf (c.stgReg (Reg.calModeA m)) (c.stgReg (Reg.calModeB m))

/-- The program modes in use. -/
def inUseModes (fig : Nat → ModeFig) : List Nat := [0, 1, 2].filter (fun m => (fig m).inuse)

/-- Core cycles of a tick at a DVFS point (R73, R84). -/
def coreCycles (pt : Nat) : Nat := if pt = 0 then 16000 else if pt = 1 then 12000 else if pt = 2 then 8000 else 4000

/-- k at a DVFS floor (R73). -/
def kOf (pt : Nat) : Nat := 3 - pt

/-! Energy (R105-R109). -/

/-- (E_ISSUE, E_RUN) of a mode and kind in a register word. -/
def nrgOf (w : Nat) : Nat × Nat := (bitsOf w 31 16, bitsOf w 15 0)

/-- The committed energy figures. -/
def Chip.nrg (c : Chip) (m k : Nat) : Nat × Nat := nrgOf (c.reg (Reg.calNrg (m * 4 + k)))

/-- The staged energy figures. -/
def Chip.stgNrg (c : Chip) (m k : Nat) : Nat × Nat := nrgOf (c.stgReg (Reg.calNrg (m * 4 + k)))

/-- The reserve of R106. -/
def reserveOf (fig : Nat → ModeFig) (nrg : Nat → Nat → Nat × Nat) : Nat :=
  let ms := inUseModes fig
  15 * 14 * maxNat (ms.map (fun m => (nrg m 0).1 + (nrg m 0).2)) + 14 * maxNat (ms.map (fun m => (nrg m 3).1))

/-- The floor of the budget (R109). -/
def budgetFloor (fig : Nat → ModeFig) (nrg : Nat → Nat → Nat × Nat) : Nat :=
  reserveOf fig nrg + maxNat ((inUseModes fig).flatMap (fun m => [(nrg m 1).1 + (nrg m 1).2, (nrg m 2).1 + (nrg m 2).2]))

/-- The reserve in force. -/
def Chip.reserve (c : Chip) : Nat := reserveOf c.fig c.nrg

/-- Energy booked by stages 3-6 in a tick. -/
def Chip.booked (c : Chip) (t : Nat) : Nat := Tab.get (fun _ => 0) c.cal.energy t

/-- The budget that the calendar books within: the smaller of CAL_NRG_BUDGET and the thermal budget (R450). -/
def Chip.budget (c : Chip) : Nat := c.fld Reg.calNrgBudget 23 0 - c.thm.cut

/-- The NAND node of a channel, in 1/65,536 degC (R446). -/
def Chip.nandNode (c : Chip) (chan : Nat) : Int := Tab.get (fun _ => 0) c.thm.nodes (chan / 32 * 40 + 8 + chan % 32)

/-- The channel's node is at or above NAND_CRIT, in whole degrees, and the limits act (R450). -/
def Chip.nandStopped (c : Chip) (chan : Nat) : Bool := c.bit Reg.thmCtrl 0 && decide ((c.fld Reg.thmLimit 15 8 : Int) ≤ c.nandNode chan / 65536)

/-- The check of R107 for an operation of `dur` ticks from `t`: `issue` in its first tick, `run` in every tick. -/
def Chip.energyOk (c : Chip) (t dur issue run : Nat) : Bool :=
  (List.range dur).all (fun i => decide (c.booked (t + i) + c.reserve + run + (if i = 0 then issue else 0) ≤ c.budget))

/-- Books energy, and shows the highest planned total (R108). -/
def Chip.bookEnergy (c : Chip) (t dur issue run : Nat) : Chip :=
  let tab := (List.range dur).foldl
    (fun tab i => Tab.set (fun _ => 0) tab (t + i) (Tab.get (fun _ => 0) tab (t + i) + run + (if i = 0 then issue else 0))) c.cal.energy
  let peak := maxNat ((List.range dur).map (fun i => Tab.get (fun _ => 0) tab (t + i) + c.reserve))
  { c with cal := { c.cal with energy := tab } }.raiseTo Reg.calNrgPeak 23 0 peak

/-! Die states (R55-R58). -/

/-- Lock: RUN_LOCK, RUN_SPENT and RESUMING (R55). -/
def Die.locked (d : Die) : Bool := d.phase == .runLock || d.phase == .runSpent || d.phase == .resuming

/-- Suspends used by the running operation. -/
def Die.suspN (d : Die) : Nat := match d.op with | some o => o.suspN | none => 0

/-- The running operation has ended and its completion has not been taken (R58). -/
def Die.opEnded (d : Die) : Bool := match d.op with | some o => o.ended | none => false

/-- The program mode of the running operation. -/
def Die.opMode (d : Die) : Nat := match d.op with | some o => o.mode | none => 0

/-- A timed state is over at tick `t`: what follows it (R56). -/
def Die.timed (fig : Nat → ModeFig) (t : Nat) (d : Die) : Die :=
  if t < d.till then d
  else
    match d.phase with
    | .reading => { d with phase := if d.op.isSome then .runOpen else .idle, reading := none }
    | .suspReading => { d with phase := .suspended, reading := none }
    | .suspending => { d with phase := .suspended }
    | .resuming =>
      if d.suspN < (fig d.opMode).smax then { d with phase := .runLock, till := t + (fig d.opMode).lmin } else { d with phase := .runSpent }
    | .runLock => { d with phase := .runOpen }
    | _ => d

/-- A running operation reaches its booked end: what a plan expects (R57). -/
def Die.expectEnd (t : Nat) (d : Die) : Die :=
  match d.op with
  | none => d
  | some o =>
    if o.ends ≤ t && (d.phase == .runOpen || d.phase == .runLock || d.phase == .runSpent) then { d with phase := .idle, op := none } else d

/-- The die can take a read now: idle, suspended, or running an operation that has ended (R56, R58). -/
def Die.readable (d : Die) : Bool :=
  d.phase == .idle || d.phase == .suspended || (d.opEnded && (d.phase == .runOpen || d.phase == .runLock || d.phase == .runSpent))

/-- An entry issues in tick `t` (R56, R57); none where the die cannot take it. -/
def Die.issue (fig : Nat → ModeFig) (t : Nat) (x : CalEntry) (d : Die) : Option Die :=
  let tr := match x.figures with | some f => f.1 | none => (fig x.mode).tr
  match x.kind with
  | .read | .maint =>
    if !d.readable then none
    else some { d with phase := if d.phase == .suspended then .suspReading else .reading, till := t + tr, reading := some x }
  | .program | .erase =>
    if d.phase == .idle && d.op.isNone then
      some { d with phase := .runOpen, op := some ⟨x.kind, x.mode, x.job, x.owner, x.planes, t, t + x.dur, 0, 0, false, x.fn⟩ }
    else none
  | .suspend =>
    match d.op with
    | none => none
    | some o =>
      if d.phase == .runOpen && !o.ended then
        some { d with phase := .suspending, till := t + (fig o.mode).tsus, op := some { o with suspN := o.suspN + 1, span := t } }
      else none
  | .resume =>
    match d.op with
    | none => none
    | some o =>
      if d.phase == .suspended then
        some { d with phase := .resuming, till := t + (fig o.mode).tres, op := some { o with ends := o.ends + (t - o.span) + (fig o.mode).tres } }
      else none

/-- One tick of a die as a plan expects it: timed changes, the booked end, then the entry of the tick. -/
def Die.expect1 (fig : Nat → ModeFig) (t : Nat) (d : Die) : Die :=
  let d1 := ((d.timed fig t).timed fig t).expectEnd t
  match d1.entries.find? (fun x => x.tick == t) with
  | none => d1
  | some x =>
    match d1.issue fig t x with
    | some d2 => d2
    | none => d1

/-- The die as the calendar books it for the start of tick `t0 + n`, entries of that tick not yet issued. -/
def Die.expect (fig : Nat → ModeFig) (t0 : Nat) : Nat → Die → Die
  | 0, d => ((d.timed fig t0).timed fig t0).expectEnd t0
  | n + 1, d => Die.expect fig (t0 + 1) n (d.expect1 fig t0)

/-- The die that a plan expects at tick `t`. -/
def Chip.dieAt (c : Chip) (die t : Nat) : Die :=
  let d := c.die die
  if d.phase = .fenced then d else Die.expect c.fig c.tick (t - c.tick) d

/-- The first tick in which a die in lock is out of it, as booked (R65, LOCK_LEFT). -/
def Die.lockEnd (fig : Nat → ModeFig) (d : Die) : Nat :=
  match d.op with
  | none => 0
  | some o =>
    match d.phase with
    | .runLock => Nat.min d.till o.ends
    | .resuming => if o.suspN < (fig o.mode).smax then Nat.min (d.till + (fig o.mode).lmin) o.ends else o.ends
    | .runSpent => o.ends
    | _ => 0

/-! Entries and slots (R52, R53, R95-R97). -/

/-- The first tick that a plan can still reach: two ahead, or three once the plan of this tick has ended (R49). -/
def Chip.reach (c : Chip) : Nat := c.tick + (if c.cal.planDone then 3 else 2)

/-- The entry belongs to entries 0-15 (R52). -/
def CalEntry.reserved (x : CalEntry) : Bool := x.kind == .suspend || x.kind == .resume || x.peer || decide (x.cls ≤ 4)

/-- The die's calendar has a free entry of the half that `x` belongs to. -/
def Die.hasEntry (d : Die) (reserved : Bool) : Bool := decide ((d.entries.filter (fun x => x.reserved == reserved)).length < 16)

/-- Puts an entry into a calendar, rising by tick. -/
def Die.addEntry (d : Die) (x : CalEntry) : Die := { d with entries := insertBy (fun y => y.tick) x d.entries }

/-- The tick in which the array read of an entry has ended. -/
def CalEntry.readEnd (fig : Nat → ModeFig) (x : CalEntry) : Nat :=
  x.tick + (match x.figures with | some f => f.1 | none => (fig x.mode).tr)

/-- Unreserved transfer time of a channel in a tick, in 1/100 us, by rate code (R95, R99). -/
def unreserved (rate : Nat) : Nat :=
  match rate with
  | 7 => 316 | 6 => 281 | 5 => 239 | 4 => 188 | 3 => 124 | _ => 750

/-- MT/s of a rate code (R90). -/
def rateMts (rate : Nat) : Nat :=
  match rate with
  | 0 => 800 | 1 => 1600 | 2 => 2400 | 3 => 3200 | 4 => 3600 | 5 => 4000 | 6 => 4400 | _ => 4800

/-- The rate code of a rate of R90. -/
def rateCode (mts : Nat) : Option Nat := (List.range 8).find? (fun r => rateMts r == mts)

/-- A channel engine. -/
def Chip.chan (c : Chip) (n : Nat) : Chan := Tab.get (fun _ => Chan.off) c.flash.chans n

/-- A job by id. -/
def Chip.job (c : Chip) (id : Nat) : Option CalJob := c.cal.jobs.find? (fun j => j.id == id)

/-- Codewords that the transfer of a read moves: those of its job, or the four of the page that the buffer of a request of CAL_MAINT holds. -/
def Chip.entryCws (c : Chip) (x : CalEntry) : Nat :=
  match c.job x.job with
  | some j => j.sects.length
  | none => if x.kind == .read then 4 else 0

/-- The reads booked or running on a channel whose array reads end, and whose transfers run, in a tick. -/
def Chip.transfers (c : Chip) (chan t : Nat) : List CalEntry :=
  (c.cal.dies.filter (fun p => p.1 / 32 == chan)).flatMap (fun p =>
    (p.2.entries ++ p.2.reading.toList).filter (fun x => (x.kind == .read || x.kind == .maint) && x.readEnd c.fig == t))

/-- The read uses a reserved window (R96). -/
def CalEntry.windowed (x : CalEntry) : Bool := x.kind == .read && (x.peer || decide (x.cls ≤ 4))

/-- Contracted and peer page transfers booked on a channel in a tick (R95, R96). -/
def Chip.windows (c : Chip) (chan t : Nat) : Nat := ((c.transfers chan t).filter CalEntry.windowed).length

/-- Completions that a channel may book in a tick (R84). -/
def Chip.endsMax (c : Chip) : Nat := Nat.min 32 (coreCycles c.pmu.point / 256)

/-- Completions booked on a channel in a tick. -/
def Chip.endsAt (c : Chip) (chan t : Nat) : Nat :=
  (c.cal.dies.filter (fun p => p.1 / 32 == chan && (p.2.op.any (fun o => o.ends == t) ||
    p.2.entries.any (fun x => (x.kind == .program || x.kind == .erase) && x.tick + x.dur == t)))).length + (c.transfers chan t).length

/-- Hard slots of a cluster in a tick: 10 for each unfenced hard lane (R129, R132). -/
def Chip.hardSlots (c : Chip) (k : Nat) : Nat := 10 * ((List.range 4).filter (fun l => !c.bit (Reg.decCtrl k) (l + 1))).length

/-- Hard slots booked in a cluster in a tick (R130). -/
def Chip.hardBooked (c : Chip) (k t : Nat) : Nat :=
  sumNat ((List.range 4).flatMap (fun i => (c.transfers (4 * k + i) t).map c.entryCws))

/-- Bytes of a codeword on a channel: half of what a reserved window moves (R95). -/
def cwBytes : Nat := 4608

/-- Bytes that the unreserved time of a tick moves on a channel (R95, R99). -/
def Chip.busBytes (c : Chip) (chan : Nat) : Nat :=
  let r := (c.chan chan).rateNow
  unreserved r * rateMts r / 100

/-- Bytes of unreserved time that program data and other reads have taken in a tick. -/
def Chip.busUsed (c : Chip) (chan t : Nat) : Nat :=
  Tab.get (fun _ => 0) c.cal.xfer (t * 128 + chan) + cwBytes * sumNat (((c.transfers chan t).filter (fun x => !x.windowed)).map c.entryCws)

/-- The transfer of a read fits into a tick: a completion record (R84), its hard slots (R130), and a reserved window, or else unreserved time with the windows
that nothing claims (R96). Below 3,200 MT/s a tick has no windows, and a transfer that alone takes longer than a tick has one for itself (log entry 49). -/
def Chip.transferFits (c : Chip) (die t : Nat) (reserved : Bool) (cws : Nat) : Bool :=
  let ch := die / 32
  let fast := decide (3 ≤ (c.chan ch).rateNow)
  decide (c.endsAt ch t < c.endsMax) && decide (c.hardBooked (die / 128) t + cws ≤ c.hardSlots (die / 128)) &&
    (if reserved then !fast || decide (c.windows ch t < 2)
     else (!fast && c.busUsed ch t == 0) ||
      decide (c.busUsed ch t + cwBytes * cws ≤ c.busBytes ch + (if fast then (2 - c.windows ch t) * 2 * cwBytes else 0)))

/-- No entry of a die issues while an operation of `dur` ticks from `t` would hold it (R53). -/
def Die.freeFor (d : Die) (t dur : Nat) : Bool := !d.entries.any (fun x => decide (t ≤ x.tick) && decide (x.tick < t + Nat.max 1 dur))

/-- The earliest tick from `t` on in which a read can issue on a die: readable, free until the array read ends (R53), and its transfer fits. `n` bounds the
search by the horizon. -/
def Chip.readSlot (c : Chip) (die tr : Nat) (reserved : Bool) (cws : Nat) : Nat → Nat → Die → Option Nat
  | 0, _, _ => none
  | n + 1, t, d =>
    let d1 := ((d.timed c.fig t).timed c.fig t).expectEnd t
    if d1.readable && d1.freeFor t tr && c.transferFits die (t + tr) reserved cws then some t
    else c.readSlot die tr reserved cws n (t + 1) (d.expect1 c.fig t)

/-- The first tick in which a booked program or erase starts on a die. -/
def Die.startBooked (d : Die) : Option Nat := (d.entries.find? (fun x => x.kind == .program || x.kind == .erase)).map (fun x => x.tick)

/-- The earliest tick from `t` on in which a suspend can issue, with the die then: RUN_OPEN, before the booked end, nothing else issued (R66). -/
def Chip.suspendSlot (c : Chip) : Nat → Nat → Die → Option (Nat × Die)
  | 0, _, _ => none
  | n + 1, t, d =>
    let d1 := ((d.timed c.fig t).timed c.fig t).expectEnd t
    if d1.phase == .runOpen && !d1.entries.any (fun x => x.tick == t) then some (t, d1)
    else if d1.phase == .idle && !d1.startBooked.any (fun p => decide (t ≤ p)) then none
    else c.suspendSlot n (t + 1) (d.expect1 c.fig t)

/-- The calendar's horizon (R52). -/
def horizon : Nat := 4096

/-! Jobs. -/

/-- Changes a job. -/
def Chip.updJob (c : Chip) (id : Nat) (f : CalJob → CalJob) : Chip :=
  { c with cal := { c.cal with jobs := updateWhere (fun j => j.id == id) f c.cal.jobs } }

/-- Removes a job. -/
def Chip.dropJob (c : Chip) (id : Nat) : Chip := { c with cal := { c.cal with jobs := c.cal.jobs.filter (fun j => j.id != id) } }

/-- A guarded contracted read (R62). -/
def CalJob.guarded (j : CalJob) : Bool := j.contracted && !j.nowait

/-- A job whose reads follow the contracted columns: contracted, or a peer of such a read. -/
def CalJob.reserved (j : CalJob) : Bool := j.contracted || (match j.owner with | .peer _ => true | _ => false)

/-- The entry of a job's read. -/
def CalJob.entry (j : CalJob) (t : Nat) : CalEntry :=
  ⟨t, .read, if j.contracted then j.cls else 7, j.nowait, (match j.owner with | .peer _ => true | _ => false), 0, j.fn, 0,
    if j.contracted then satTo 255 (j.deadline - t) else 0, j.buf, j.id, j.owner, 2 ^ j.plane, j.mode, none⟩

/-- What the booking of a read came to. -/
inductive Booking where
  /-- Booked. -/
  | booked
  /-- Waits for a later plan. -/
  | wait
  /-- Die Busy, Retry, with the first tick of the hint (R65). -/
  | busy (until_ : Nat)
  /-- The read has to be reconstructed. -/
  | recon
  deriving DecidableEq, Repr

/-- Enters a read of a job at a tick, with its energy if it is no contracted or peer read (R107). -/
def Chip.putRead (c : Chip) (j : CalJob) (t : Nat) : Chip :=
  let (i, r) := c.nrg j.mode 0
  let c1 := (c.setDie j.die ((c.die j.die).addEntry (j.entry t))).updJob j.id (fun j => { j with waiting := false })
  if j.reserved then c1 else c1.bookEnergy t (c.fig j.mode).tr i r

/-- A slot for a read of a job from `t` on: a free entry, the die, and energy (R52, R62, R107). -/
def Chip.slotFor (c : Chip) (j : CalJob) (t : Nat) : Option Nat :=
  let tr := (c.fig j.mode).tr
  let (i, r) := c.nrg j.mode 0
  if !(c.die j.die).hasEntry j.reserved then none
  else
    match c.readSlot j.die tr j.reserved j.sects.length (c.tick + horizon - t) t (c.dieAt j.die t) with
    | none => none
    | some s => if j.reserved || c.energyOk s tr i r then some s else none

/-- Books a read of a job at the earliest slot from `t` on; the two reads of SOFT3 are booked together, the second after the first one's transfer
(R62, R133). -/
def Chip.bookAt (c : Chip) (j : CalJob) (t : Nat) : Booking × Chip :=
  match c.slotFor j t with
  | none => (.wait, c)
  | some s =>
    let c1 := c.putRead j s
    if j.extraReads ≤ 1 then (.booked, c1)
    else
      match c1.slotFor j (s + (c.fig j.mode).tr + 1) with
      | none => (.booked, c1)
      | some s2 => (.booked, c1.putRead j s2)

/-- Books a suspend and the read TSUS ticks later (R62, R66). -/
def Chip.bookSuspend (c : Chip) (j : CalJob) (t : Nat) : Booking × Chip :=
  let d := c.die j.die
  if 16 ≤ (d.entries.filter CalEntry.reserved).length + 1 then (.wait, c)
  else
    match c.suspendSlot (c.tick + horizon - t) t (c.dieAt j.die t) with
    | none => c.bookAt j t
    | some (s, y) =>
      let m := y.opMode
      let sus : CalEntry := ⟨s, .suspend, if j.contracted then j.cls else 7, false, false, y.suspN, j.fn, 0, 0, 0, j.id, j.owner, 0, m, none⟩
      let c1 := c.setDie j.die (d.addEntry sus)
      c1.bookAt j (s + (c.fig m).tsus)

/-- Books a read by the state of its die at the earliest tick the plan can reach (R62). A contracted or peer read that no slot before a booked start can take
suspends the operation once it has started. `peersFree`: a reconstruct is available (R63, R64). -/
def Chip.bookRead (c : Chip) (j : CalJob) (peersFree : Bool) : Booking × Chip :=
  let t := c.reach
  let d := c.dieAt j.die t
  match d.phase with
  | .fenced => if peersFree then (.recon, c) else (.wait, c)
  | .runOpen =>
    if d.opEnded then c.bookAt j t
    else if j.reserved then c.bookSuspend j t
    else if j.nowait then (.busy ((d.op.map (·.ends)).getD 0), c)
    else c.bookAt j ((d.op.map (·.ends)).getD t)
  | .runLock | .runSpent | .resuming =>
    if j.guarded then
      if peersFree then (.recon, c) else (if (c.die j.die).phase = .fenced then (.wait, c) else c.bookSuspend j t)
    else if j.reserved && !j.contracted then c.bookSuspend j t
    else if j.nowait then (.busy (d.lockEnd c.fig), c)
    else c.bookAt j ((d.op.map (·.ends)).getD t)
  | _ =>
    match (if j.reserved then d.startBooked else none) with
    | none => c.bookAt j t
    | some p => if (c.slotFor j t).any (fun s => decide (s < p)) then c.bookAt j t else c.bookSuspend j t

/-! Reconstruct (R63, R64, R165, R166). -/

/-- The 15 other members of a job's cord block, as (member slot, die). -/
def Chip.peersOf (c : Chip) (j : CalJob) : List (Nat × Nat) :=
  match c.cblk j.cord j.cblk with
  | none => []
  | some b => (b.members.zipIdx.map (fun p => (p.2, p.1.1))).filter (fun p => p.1 != j.member)

/-- Every peer is out of lock and not fenced at the first reachable tick, and the row is closed (R64, R165). -/
def Chip.peersFree (c : Chip) (j : CalJob) : Bool :=
  decide ((c.peersOf j).length = 15) &&
  (c.peersOf j).all (fun p => let d := c.dieAt p.2 c.reach; d.phase != .fenced && !(d.locked && !d.opEnded))

/-- A new job for a page read. -/
def Chip.newJob (c : Chip) (j : CalJob) : Nat × Chip :=
  (c.cal.nextJob, { c with cal := { c.cal with jobs := c.cal.jobs ++ [{ j with id := c.cal.nextJob }], nextJob := (c.cal.nextJob + 1) % 2 ^ 24 } })

/-- Peer reads of the same sector range on the 15 other members (R63, R166). -/
def Chip.addPeers (c : Chip) (j : CalJob) : Chip :=
  let add := fun (c : Chip) (p : Nat × Nat) =>
    let peer : CalJob := ⟨0, .peer j.id, p.2, j.cord, j.cblk, j.row, p.1, j.plane, j.mode, j.cls, j.contracted, false, j.fn, j.accept, j.deadline,
      j.sects.map (fun s => ⟨s.sect, 0, false, none, 0, 0⟩), false, true, [], false, 0, j.buf⟩
    let (id, c1) := c.newJob peer
    let c2 := c1.updJob j.id (fun j => { j with peers := j.peers ++ [id] })
    match c2.job id with
    | none => c2
    | some q => (c2.bookRead q false).2
  (c.peersOf j).foldl add (c.updJob j.id (fun j => { j with recon := true, waiting := false, peers := [] }))

/-- The read item on whose behalf a job runs is excused (R74). -/
def Chip.excuseJob (c : Chip) (j : CalJob) : Chip :=
  match j.owner with
  | .item id => { c with host := { c.host with items := updateWhere (fun x => x.id == id) (fun x => { x with excused := true }) c.host.items } }
  | _ => c

/-- Books a job, by reconstruct where that is what R62 gives; the wait of R64 excuses its read (R74). -/
def Chip.bookJob (c : Chip) (id : Nat) : Booking × Chip :=
  match c.job id with
  | none => (.wait, c)
  | some j =>
    let free := c.peersFree j
    let d := c.dieAt j.die c.reach
    let c0 := if j.contracted && !free && (d.phase == .fenced || (j.guarded && d.locked && !d.opEnded)) then c.excuseJob j else c
    match c0.bookRead j free with
    | (.recon, c1) => (.booked, c1.addPeers j)
    | r => r

/-! Resumes (R67-R69). -/

/-- Bound contracts: namespace index and contract. -/
def Chip.contracts (c : Chip) : List (Nat × Contract) := c.cal.contracts.filterMap (fun p => p.2.map (fun x => (p.1, x)))

/-- The cord is guarded: a bound guarded contract names SLC-mode or its native mode (R68). -/
def Chip.cordGuarded (c : Chip) (e : Env) (x : Cord) : Bool :=
  c.contracts.any (fun p => !p.2.nowait && (bitOf p.2.modes 0 || bitOf p.2.modes (e.partDesc x.part).cell))

/-- The ticks of the lock that a resume at `t` starts: up to and not including the result. -/
def Chip.lockTill (c : Chip) (d : Die) (t : Nat) : Nat :=
  match d.op with
  | none => t
  | some o =>
    let f := c.fig o.mode
    let ends := o.ends + (t - o.span) + f.tres
    if o.suspN < f.smax then Nat.min (t + f.tres + f.lmin) ends else ends

/-- A resume at `t` on a die keeps the stagger rule and the rule for failed members (R68, R69). -/
def Chip.staggerOk (c : Chip) (e : Env) (die t : Nat) (d : Die) : Bool :=
  (c.map.cords.filter (fun x => x.members.contains die && c.cordGuarded e x)).all (fun x =>
    (x.members.filter (· != die)).all (fun m =>
      let y := c.dieAt m t
      y.phase != .fenced &&
      !(y.locked && decide (t < y.lockEnd c.fig)) &&
      !(c.die m).entries.any (fun q => q.kind == .resume && decide (q.tick < c.lockTill d t))) && !x.degraded)

/-- The plan for tick `t` books a resume on a die if it may (R60, R67). -/
def Chip.bookResume (c : Chip) (e : Env) (t die : Nat) : Chip :=
  let d := c.dieAt die t
  match d.op with
  | none => c
  | some o =>
    if d.phase ≠ .suspended || d.entries.any (fun x => x.tick == t || (decide (t ≤ x.tick) && (x.reserved || x.kind == .read))) then c
    else
      let f := c.fig o.mode
      let left := o.ends - o.span + f.tres
      let k := if o.kind = .program then 1 else 2
      let run := (c.nrg o.mode k).2 - (c.nrg o.mode 3).2
      let iss := (c.nrg o.mode 3).1
      if c.staggerOk e die t d && c.energyOk t left iss run && (c.die die).hasEntry true then
        let x : CalEntry := ⟨t, .resume, 7, false, false, o.suspN, o.fn, f.tres, 0, 0, o.job, o.owner, o.planes, o.mode, none⟩
        (c.setDie die ((c.die die).addEntry x)).bookEnergy t left iss run
      else c

/-! Starts of programs and erases (R59, R99). -/

/-- The first tick, from `t` on, by which the unreserved time left from tick `x` on covers `need` bytes (R99). The first number bounds the search. -/
def Chip.busReady (c : Chip) (ch need t : Nat) : Nat → Nat → Nat → Option Nat
  | 0, _, _ => none
  | n + 1, acc, x => if t ≤ x && need ≤ acc then some x else c.busReady ch need t n (acc + (c.busBytes ch - c.busUsed ch x)) (x + 1)

/-- Program data takes the unreserved time left of `n` ticks from tick `x` on. -/
def Chip.busTake (c : Chip) (ch : Nat) : Nat → Nat → Nat → Chip
  | 0, _, _ => c
  | n + 1, x, need =>
    let use := Nat.min need (c.busBytes ch - c.busUsed ch x)
    let k := x * 128 + ch
    { c with cal := { c.cal with xfer := Tab.set (fun _ => 0) c.cal.xfer k (Tab.get (fun _ => 0) c.cal.xfer k + use) } }.busTake ch n (x + 1) (need - use)

/-- The plan for tick `t` books a start if it may, in the first tick by which its data has moved (R99): true where it did. A program issues below the tick
mark only (R469). -/
def Chip.bookStart (c : Chip) (t : Nat) (r : StartReq) : Bool × Chip :=
  let f := c.fig r.mode
  let dur := if r.kind = .erase then f.tbers else f.tprog
  let k := if r.kind = .erase then 2 else 1
  let (i, run) := c.nrg r.mode k
  let ch := r.die / 32
  let need := if r.kind = .erase || r.moved then 0 else rpwOf r.mode * ((List.range 6).filter (bitOf r.planes)).length * 4 * cwBytes
  match c.busReady ch need t 1024 0 (c.tick + 1) with
  | none => (false, c)
  | some s =>
    let d := c.dieAt r.die s
    if (r.kind == .program && decide (c.map.mark ≤ s)) || c.nandStopped ch || d.phase ≠ .idle || d.op.isSome ||
        (c.die r.die).entries.any (fun x => decide (t ≤ x.tick)) || !d.hasEntry false || decide (c.endsMax ≤ c.endsAt ch (s + dur)) ||
        !c.energyOk s dur i run then (false, c)
    else
      let x : CalEntry := ⟨s, r.kind, 7, false, false, 0, r.fn, dur, 0, 0, c.cal.nextJob, r.owner, r.planes, r.mode, none⟩
      let c1 := ((c.setDie r.die ((c.die r.die).addEntry x)).bookEnergy s dur i run).busTake ch (s - (c.tick + 1)) (c.tick + 1) need
      (true, { c1 with cal := { c1.cal with nextJob := (c.cal.nextJob + 1) % 2 ^ 24 } })

/-- Stage 4: programs of rows in the landing first, then the other starts; while shedding only the former (R59, R79). -/
def Chip.bookStarts (c : Chip) (t : Nat) (shed : Bool) : Chip :=
  let one := fun (a : List StartReq × Chip) (r : StartReq) =>
    let (ok, c1) := a.2.bookStart t r
    (if ok then a.1 else a.1 ++ [r], c1)
  let (left1, c1) := (c.cal.starts.filter (·.landing)).foldl one ([], c)
  let rest := c.cal.starts.filter (fun r => !r.landing)
  let (left2, c2) := if shed then (rest, c1) else rest.foldl one ([], c1)
  { c2 with cal := { c2.cal with starts := left1 ++ left2 } }

/-! The plan of a boundary (R49, R59). -/

/-- Contracted work that waits, earliest deadline first, ties to the lower function and the earlier acceptance (R59). -/
def Chip.waitingContracted (c : Chip) : List Nat :=
  (sortBy (fun j => (j.deadline * 256 + j.fn) * 2 ^ 64 + j.accept) (c.cal.jobs.filter (fun j => j.waiting && !j.read && j.reserved))).map (·.id)

/-- Other reads that wait, in order of acceptance, maintenance reads last (R59). -/
def Chip.waitingReads (c : Chip) : List Nat :=
  let js := c.cal.jobs.filter (fun j => j.waiting && !j.read && !j.reserved)
  (js.filter (fun j => j.owner != .maint) ++ js.filter (fun j => j.owner == .maint)).map (·.id)

/-- The map page reads of fetches that have none yet (R175): best-effort reads of the pages that the directory places in flash. -/
def Chip.newFetches (c : Chip) : Chip :=
  let due := c.map.slots.filter (fun p => p.2.state == .fetching && !p.2.read && !c.cal.jobs.any (fun j => j.owner == .mapFetch p.1))
  due.foldl (fun c p =>
    let w := Tab.get (fun _ => 0) c.map.dir p.1
    if !bitOf w 63 || bitOf w 62 then c.setMslot p.1 { p.2 with read := true }
    else
      let l := wordLoc w
      match c.cblk l.cord l.cblk with
      | none => c.setMslot p.1 { p.2 with read := true }
      | some b =>
        let m := memberOf (rpwOf b.mode) l.row l.slot
        (c.newJob ⟨0, .mapFetch p.1, (b.members.getD m (0, 0)).1, l.cord, l.cblk, l.row, m, l.plane, b.mode, 7, false, false, 0, c.tick, 0,
          (List.range 4).map (fun k => ⟨k, 0, false, none, 0, 0⟩), false, true, [], false, 0, 0⟩).2) c

/-- The plan for tick `n + 2` in the order of R59. Work of stages 5 and 6 waits while the master sheds load (R79). A read that a plan would refuse with
Die Busy has been accepted before and waits for its die. -/
def Chip.plan (c : Chip) (e : Env) : Chip :=
  let t := c.tick + 2
  let c0 := c.newFetches
  let c1 := c0.waitingContracted.foldl (fun c id => (c.bookJob id).2) c0
  let c2 := (c1.cal.dies.map (·.1)).foldl (fun c d => c.bookResume e t d) c1
  let c3 := c2.bookStarts t c.cal.shedding
  if c.cal.shedding then c3 else c3.waitingReads.foldl (fun c id => (c.bookJob id).2) c3

/-- Planning begins, or begins again, at the next boundary: no plan is due for the two ticks before the first one that it plans (R49). -/
def Chip.calStart (c : Chip) : Chip := { c with cal := { c.cal with
  committed := [c.tick + 1, c.tick + 2]
  planDone := true } }

/-- Records a completion of an operation at its channel's queue (R81). -/
def Chip.enqueueCpl (c : Chip) (r : CplRec) : Chip :=
  let ch := r.die / 32
  let q := Tab.get (fun _ => []) c.cal.queues ch
  let c1 := if q.length < 96 then { c with cal := { c.cal with
    queues := Tab.set (fun _ => []) c.cal.queues ch (q ++ [r])
    deepest := Nat.max c.cal.deepest (q.length + 1) } } else c
  c1.raiseTo Reg.calCollStat 14 8 (Nat.min 96 (q.length + 1))

/-- The entry of a die that is due in this tick issues if the die can take it; a suspend whose operation has ended is discarded and its read goes on
(R56, R58). -/
def Chip.issueDue (c : Chip) (die : Nat) : Chip :=
  if c.cal.hold || c.held then c
  else
    let d := c.die die
    if d.phase = .fenced || (c.chan (die / 32)).phase != .running then c
    else
      match d.entries.find? (fun x => decide (x.tick ≤ c.tick)) with
      | none => c
      | some x =>
        let d0 := { d with entries := d.entries.erase x }
        match d0.issue c.fig c.tick x with
        | some d1 =>
          let d2 := if x.kind = .program || x.kind = .erase then { d1 with nextPoll := c.tick + c.fld (Reg.chPoll (die / 32)) 3 0 } else d1
          let c1 := c.setDie die d2
          match x.owner with
          | .program g _ => if x.kind = .program then c1.updGroup g (fun y => { y with prog := if y.prog = 0 then c.tick else y.prog }) else c1
          | _ => c1
        | none =>
          if x.kind = .suspend && (d.opEnded || d.op.isNone) then
            (c.setDie die d0).enqueueCpl ⟨die, .suspend, cstOk, x.job, c.stamp, true⟩
          else c

/-- Takes booked energy back from the ticks that have not passed. -/
def Chip.unbookEnergy (c : Chip) (t dur issue run : Nat) : Chip :=
  let tab := (List.range dur).foldl
    (fun tab i => Tab.set (fun _ => 0) tab (t + i) (Tab.get (fun _ => 0) tab (t + i) - (run + (if i = 0 then issue else 0)))) c.cal.energy
  { c with cal := { c.cal with energy := tab } }

/-- Removes entries of a die's calendar. -/
def Chip.dropEntries (c : Chip) (die : Nat) (p : CalEntry → Bool) : Chip :=
  let d := c.die die
  c.setDie die { d with entries := d.entries.filter (fun x => !p x) }

/-- A read that has a job goes back to the reads that wait, with what it booked; a suspend and the read behind it go together (R76). -/
def Chip.slipRead (c : Chip) (die : Nat) (j : CalJob) : Chip :=
  let mine := (c.die die).entries.filter (fun x => x.job == j.id && x.kind == .read)
  let (i, r) := c.nrg j.mode 0
  let c1 := if j.reserved then c else mine.foldl (fun c x => c.unbookEnergy x.tick (c.fig j.mode).tr i r) c
  (c1.dropEntries die (fun x => x.job == j.id && (x.kind == .read || x.kind == .suspend))).updJob j.id (fun j => { j with waiting := true })

/-- The entry of a read that has a job, or of a program or erase, slips (R76). -/
def Chip.slipWork (c : Chip) (die : Nat) (x : CalEntry) : Chip :=
  match c.job x.job with
  | some j => c.slipRead die j
  | none =>
    if x.kind = .program ∨ x.kind = .erase then
      let (i, r) := c.nrg x.mode (if x.kind = .program then 1 else 2)
      let c1 := (c.dropEntries die (· == x)).unbookEnergy x.tick x.dur i r
      { c1 with cal := { c1.cal with
        starts := c1.cal.starts ++ ([⟨x.owner, die, x.kind, x.mode, x.planes, x.fn, x.kind == .program, true⟩] : List StartReq) } }
    else c.dropEntries die (· == x)

/-- An entry that was booked to issue in a hold tick slips: the next committed plan books it again (R76). A request of CAL_MAINT with EXACT completes with
HOLD_TICK (R77), one without goes on by two ticks, the first that the next plan reaches. -/
def Chip.slipEntry (c : Chip) (die : Nat) (x : CalEntry) : Chip :=
  let f := c.fig x.mode
  match x.kind, c.cal.maint with
  | .resume, _ =>
    match (c.die die).op with
    | none => c.dropEntries die (· == x)
    | some o =>
      let k := if o.kind = .program then 1 else 2
      (c.dropEntries die (· == x)).unbookEnergy x.tick (o.ends - o.span + f.tres) (c.nrg o.mode 3).1 ((c.nrg o.mode k).2 - (c.nrg o.mode 3).2)
  | _, some (job, _, exact) =>
    if x.job = job ∧ (x.owner = .maint ∨ x.owner = .maintErase) then
      if exact then { (c.dropEntries die (· == x)) with cal := { (c.dropEntries die (· == x)).cal with maint := none } }.setFld Reg.calMaintStat 8 0 cstHoldTick
      else (c.dropEntries die (· == x)).setDie die (((c.dropEntries die (· == x)).die die).addEntry { x with tick := x.tick + 2 })
    else c.slipWork die x
  | _, none => c.slipWork die x

/-- Every entry of a die that is due slips. -/
def Chip.slip (c : Chip) (die : Nat) : Chip :=
  ((c.die die).entries.filter (fun x => decide (x.tick ≤ c.tick))).foldl (fun c x => if (c.die die).entries.contains x then c.slipEntry die x else c) c

/-! Latency contracts (R70-R74, R85-R87). -/

/-- What the term T of R72 needs of one contract. -/
structure Bound where
  nsx : Nat
  cls : Nat
  q : Nat
  nowait : Bool
  modes : Nat
  deriving DecidableEq, Repr

/-- The class in ticks (R54). -/
def classTicks (cls : Nat) : Nat :=
  match cls with
  | 0 => 12 | 1 => 16 | 2 => 24 | 3 => 48 | 4 => 96 | _ => 0

/-- The program modes of a mask. -/
def modesOf (mask : Nat) : List Nat := [0, 1, 2].filter (bitOf mask)

/-- The sum s of R72. -/
def termS (fig : Nat → ModeFig) (bs : List Bound) : Nat := sumNat (bs.map (fun b => b.q * maxNat ((modesOf b.modes).map (fun m => (fig m).tr))))

/-- The depth N. -/
def termN (bs : List Bound) : Nat := sumNat (bs.map (·.q))

/-- T of a contract among all of them (R72). -/
def termT (fig : Nat → ModeFig) (k : Nat) (bs : List Bound) (b : Bound) : Nat :=
  let ms := inUseModes fig
  let n := termN bs
  2 + maxNat (ms.map (fun m => (fig m).tsus)) + (if b.nowait then 0 else 1) + termS fig bs + maxNat (ms.map (fun m => (fig m).tr)) +
    n / 2 + (ceilDiv n k - 1) + 2 + maxNat ((modesOf b.modes).map (fun m => (fig m).eallow)) + 4

/-- The contracts that fail T <= L. -/
def failing (fig : Nat → ModeFig) (k : Nat) (bs : List Bound) : List Bound := bs.filter (fun b => decide (classTicks b.cls < termT fig k bs b))

/-- The bound contracts. -/
def Chip.bounds (c : Chip) : List Bound := c.contracts.map (fun p => ⟨p.1, p.2.cls, p.2.q, p.2.nowait, p.2.modes⟩)

/-- Bytes that one XTS lane moves in a tick at a KEY_SCA setting and a floor (R244, R355), in eightieths of a byte per cycle. -/
def xtsRate80 (dummy : Nat) (shuffle : Bool) : Nat :=
  match dummy, shuffle with
  | 0, false => 1280 | 0, true => 1200 | 1, false => 1120 | 1, true => 1050 | 2, false => 896 | 2, true => 840 | _, false => 640 | _, true => 600

/-- Bytes per tick of one XTS lane: the figures of R355, kept in eightieths of a byte per cycle. -/
def xtsPerTick (sca pt : Nat) : Nat := coreCycles pt * xtsRate80 (bitsOf sca 1 0) (bitOf sca 4) / 80

/-- The setting of KEY_SCA passes the test of R356 at a floor. -/
def scaOk (sca pt : Nat) : Bool := decide (114688 ≤ xtsPerTick sca pt)

/-- Some channel that carries NAND runs or is declared below 3,200 MT/s (R98). -/
def Chip.slowChannel (c : Chip) (e : Env) : Bool :=
  (List.range (32 * e.part.regions)).any (fun n =>
    (e.chan n).part != 255 && (decide ((e.chan n).rate < 3200) || ((c.chan n).phase == .running && decide (rateMts (c.chan n).rateNow < 3200))))

/-- The bound of R424: no contract holds at a floor below the lowest admissible, and none while no mode is in use. -/
def floorAdmits (pt : Nat) : Bool := decide (pt < 3)

/-- The ceiling point of a power state (R423). -/
def psCeiling (ps : Nat) : Nat := Nat.min ps 3

/-- The ceiling in force, as a point: the slowest of the state's, the requested and the thermal one (R435, R450). -/
def Chip.ceiling (c : Chip) : Nat := Nat.max (psCeiling c.pmu.ps) (Nat.max c.pmu.ceiling c.pmu.thermal)

/-- A write of CAL_FLOOR.PT passes R85, R356 and R424: every bound contract keeps T <= L at the new k, and the point lies within the ceiling. -/
def Chip.floorOk (c : Chip) (fig : Nat → ModeFig) (pt : Nat) : Bool :=
  decide (c.ceiling ≤ pt) &&
    (c.bounds == [] || (floorAdmits pt && failing fig (kOf pt) c.bounds == [] && scaOk (c.reg Reg.keySca) pt))

/-- The answer of an admission: the namespace that CAL_ADMIT_RES names, T and the status. -/
def Chip.admitCheck (c : Chip) (e : Env) (b : Bound) : Nat × Nat × Nat :=
  let others := c.bounds.filter (fun x => x.nsx != b.nsx)
  let bs := others ++ [b]
  let k := kOf (c.fld Reg.calFloor 1 0)
  let bad := failing c.fig k bs
  let t := fun (x : Bound) => satTo 255 (termT c.fig k bs x)
  let st := firstFail [
    (decide (5 ≤ b.cls) || (modesOf b.modes).any (fun m => !(c.fig m).inuse), cstBad),
    (b.q == 0 || b.modes == 0, cstZero),
    (decide (15 ≤ b.q), cstLimit),
    (decide (14 < termN bs) || !floorAdmits (c.fld Reg.calFloor 1 0) || bad != [] || c.slowChannel e ||
      decide (c.fld Reg.calFloor 1 0 < psCeiling c.pmu.ps), cstContract)]
  match bad with
  | x :: _ => (x.nsx, t x, st)
  | [] => (b.nsx, if b.q = 0 then 0 else t b, st)

/-- Ends an admission operation: CAL_ADMIT_RES, and GO reads 0. -/
def Chip.admitResult (c : Chip) (nsx t st : Nat) : Chip :=
  (c.setReg Reg.calAdmitRes (2 ^ 31 + nsx % 1024 * 65536 + satTo 255 t * 256 + st)).setBit Reg.calAdmitReq 31 false

/-- An admission operation (R72, R86): OP 0 tests, 1 binds, 2 releases; 3 completes with BAD_DESCRIPTOR. -/
def Chip.admissionOp (c : Chip) (e : Env) (op : Nat) (b : Bound) : Nat × Chip :=
  if op = 2 then
    if (c.contract b.nsx).isNone then (cstBad, c.admitResult b.nsx 0 cstBad)
    else (cstOk, (c.setContract b.nsx none).admitResult b.nsx 0 cstOk)
  else if op = 3 then (cstBad, c.admitResult b.nsx 0 cstBad)
  else
    let (ns, t, st) := c.admitCheck e b
    if op = 1 && st == cstOk then
      (st, (c.setContract b.nsx (some ⟨b.cls, b.q, b.nowait, b.modes, t, c.stamp, 0, 0, 0⟩)).admitResult ns t st)
    else (st, c.admitResult ns t st)

/-- A contracted read of a namespace is completed in the current tick: it is counted, and a miss is excused by R74 or logged. -/
def Chip.countContracted (c : Chip) (nsx deadline : Nat) (excused : Bool) : Chip :=
  let c1 := c.updContract nsx (fun x => { x with reads := satTo (2 ^ 64 - 1) (x.reads + 1) })
  if c.tick < deadline then c1
  else if excused then
    (c1.updContract nsx (fun x => { x with excused := satTo (2 ^ 32 - 1) (x.excused + 1) })).bump Reg.calMiss 15 0 1
  else
    ((c1.updContract nsx (fun x => { x with missed := satTo (2 ^ 32 - 1) (x.missed + 1) })).bump
      Reg.calMiss 31 16 1).raise 290 0 (((c.ns nsx).bind (·.owner)).getD 0xFFFF) 0 0

end Sys2Proof.Machine
end

