-- ==== Sys2Proof/Machine/Transforms.lean ====
section
/-! DEFINITION. What the transform lanes do to bytes: chain codes, reshaping, DEFLATE, packed extents and the data path's XTS (R204, R249-R263). -/

namespace Sys2Proof.Machine

/-! Chain codes (R204). -/

/-- HASH of a chain code. -/
def chHash (c : Nat) : Bool := bitOf c 16
/-- KEY of a chain code. -/
def chKey (c : Nat) : Nat := bitsOf c 15 12
/-- XTS of a chain code. -/
def chXts (c : Nat) : Bool := bitOf c 11
/-- SQZL of a chain code. -/
def chLevel (c : Nat) : Nat := bitsOf c 10 9
/-- SQZ of a chain code. -/
def chSqz (c : Nat) : Bool := bitOf c 8
/-- The reshaping bits of a chain code. -/
def chShuf (c : Nat) : Nat := bitsOf c 7 0
/-- A chain code reshapes. -/
def chHasShuf (c : Nat) : Bool := bitsOf c 7 6 != 0

/-- The chain code of what an item's effects recorded (R203, R205). -/
def chainOf (f : ItemFx) : Nat :=
  f.shuf.getD 0 + (match f.sqz with | some l => 256 + l * 512 | none => 0) + (match f.xts with | some k => 2048 + k * 4096 | none => 0) +
    (if f.hash then 65536 else 0)

/-! Reshaping (R253-R255). -/

/-- The whole elements of an input, and its tail. -/
def elements (esz : Nat) (bs : List Byte) : List (List Byte) × List Byte :=
  (pieces esz (bs.length / esz) bs, bs.drop (bs.length / esz * esz))

/-- Element `i` of the result takes element `i` of every list in turn: `n` elements. -/
def weavePlanes : Nat → List (List Byte) → List Byte
  | 0, _ => []
  | n + 1, ps => ps.map (fun p => p.headD 0) ++ weavePlanes n (ps.map (fun p => p.drop 1))

/-- Takes elements from streams in turn: `n` elements. -/
def weaveStreams : Nat → List (List (List Byte)) → List (List Byte)
  | 0, _ => []
  | _ + 1, [] => []
  | _ + 1, [] :: _ => []
  | n + 1, (e :: s) :: t => e :: weaveStreams n (t ++ [s])

/-- Stream `j` of `w` ways: elements whose position is j modulo w. -/
def streamOf (w j : Nat) (es : List (List Byte)) : List (List Byte) := (es.zipIdx.filter (fun p => p.2 % w == j)).map (·.1)

/-- Cuts a list into lists of the given lengths. -/
def cutAt {α : Type} : List Nat → List α → List (List α)
  | [], _ => []
  | n :: t, xs => xs.take n :: cutAt t (xs.drop n)

/-- Reshapes an input by chain bits [7:0]. -/
def reshape (bits : Nat) (bs : List Byte) : List Byte :=
  let esz := 2 ^ (bitsOf bits 5 4 + 1)
  let w := bitsOf bits 3 0 + 1
  let (es, tail) := elements esz bs
  match bitsOf bits 7 6 with
  | 1 => (List.range esz).flatMap (fun b => es.map (fun e => e.getD b 0)) ++ tail
  | 2 => (List.range w).flatMap (fun j => (streamOf w j es).flatten) ++ tail
  | _ => bs

/-- Restores the input of a reshaping (R255). -/
def unreshape (bits : Nat) (bs : List Byte) : List Byte :=
  let esz := 2 ^ (bitsOf bits 5 4 + 1)
  let w := bitsOf bits 3 0 + 1
  let n := bs.length / esz
  let tail := bs.drop (n * esz)
  match bitsOf bits 7 6 with
  | 1 => weavePlanes n (pieces n esz bs) ++ tail
  | 2 =>
    let (es, _) := elements esz bs
    (weaveStreams n (cutAt ((List.range w).map (fun j => (n + w - 1 - j) / w)) es)).flatten ++ tail
  | _ => bs

/-! DEFLATE (RFC 1951): the expander. -/

/-- The bits of bytes, least significant first. -/
def bitStream (bs : List Byte) : List Bool := bs.flatMap (fun b => (List.range 8).map (fun i => b.getLsbD i))

/-- A number of `n` bits, least significant first, and the bits after it. -/
def takeBits : Nat → List Bool → Option (Nat × List Bool)
  | 0, bs => some (0, bs)
  | _ + 1, [] => none
  | n + 1, b :: bs =>
    match takeBits n bs with
    | none => none
    | some (v, r) => some (b2n b + 2 * v, r)

/-- A Huffman code by the lengths of its symbols' codes: how many codes have each length, and the symbols in order of code. -/
structure Huff where
  counts : List Nat
  syms : List Nat
  deriving DecidableEq, Repr

/-- The code of a list of lengths. -/
def Huff.make (lens : List Nat) : Huff :=
  ⟨(List.range 16).map (fun l => (lens.filter (· == l)).length),
   (List.range 15).flatMap (fun l => (lens.zipIdx.filter (fun p => p.1 == l + 1)).map (·.2))⟩

/-- Codes that are left free after all lengths; none if more codes are used than there are. -/
def Huff.left (h : Huff) : Option Nat :=
  ((h.counts.drop 1).foldl (fun (a : Option Nat) n => a.bind (fun l => if n ≤ 2 * l then some (2 * l - n) else none)) (some 1))

/-- Complete, or a single code of one bit, or no code at all (RFC 1951, 3.2.7). -/
def Huff.ok (h : Huff) : Bool :=
  match h.left with
  | none => false
  | some l => l == 0 || decide (sumNat (h.counts.drop 1) ≤ (h.counts.getD 1 0)) && decide (h.counts.getD 1 0 ≤ 1)

/-- Reads a symbol: code read so far, first code of the length, index of its first symbol, and the counts of the lengths left. -/
def Huff.read (syms : List Nat) : List Nat → Nat → Nat → Nat → List Bool → Option (Nat × List Bool)
  | [], _, _, _, _ => none
  | _ :: _, _, _, _, [] => none
  | n :: cs, code, first, idx, b :: bs =>
    let code := code + b2n b
    if code < first + n then (syms[idx + (code - first)]?).map (fun s => (s, bs))
    else Huff.read syms cs (2 * code) (2 * (first + n)) (idx + n) bs

/-- The next symbol of a code. -/
def Huff.next (h : Huff) (bs : List Bool) : Option (Nat × List Bool) := Huff.read h.syms (h.counts.drop 1) 0 0 0 bs

/-- Base lengths and extra bits of the length symbols 257-285. -/
def lenBase : List (Nat × Nat) :=
  [(3, 0), (4, 0), (5, 0), (6, 0), (7, 0), (8, 0), (9, 0), (10, 0), (11, 1), (13, 1), (15, 1), (17, 1), (19, 2), (23, 2), (27, 2), (31, 2),
   (35, 3), (43, 3), (51, 3), (59, 3), (67, 4), (83, 4), (99, 4), (115, 4), (131, 5), (163, 5), (195, 5), (227, 5), (258, 0)]

/-- Base and extra bits of a distance symbol 0-29. -/
def distBase (s : Nat) : Nat × Nat := if s < 4 then (s + 1, 0) else ((2 + s % 2) * 2 ^ (s / 2 - 1) + 1, s / 2 - 1)

/-- Copies `n` bytes from `d` back; output stands newest first. -/
def copyBack (d : Nat) : Nat → List Byte → List Byte
  | 0, out => out
  | n + 1, out => copyBack d n (out.getD (d - 1) 0 :: out)

/-- What an expansion came to. `out` stands newest first over the history. -/
inductive Inflated where
  | ok (out : List Byte) (rest : List Bool) (final : Bool)
  | format
  | outMax
  deriving DecidableEq, Repr

/-- The coded data of a block: `fuel` bounds its symbols, `lim` the length of output and history together. -/
def inflateCodes (ll dd : Huff) (lim : Nat) : Nat → List Byte → List Bool → Inflated
  | 0, _, _ => .format
  | fuel + 1, out, bs =>
    match ll.next bs with
    | none => .format
    | some (s, bs1) =>
      if s < 256 then
        if lim ≤ out.length then .outMax else inflateCodes ll dd lim fuel (BitVec.ofNat 8 s :: out) bs1
      else if s = 256 then .ok out bs1 false
      else
        match lenBase[s - 257]? with
        | none => .format
        | some (lb, lx) =>
          match takeBits lx bs1 with
          | none => .format
          | some (le, bs2) =>
            match dd.next bs2 with
            | none => .format
            | some (ds, bs3) =>
              if 30 ≤ ds then .format
              else
                match takeBits (distBase ds).2 bs3 with
                | none => .format
                | some (de, bs4) =>
                  let d := (distBase ds).1 + de
                  if out.length < d then .format
                  else if lim < out.length + lb + le then .outMax
                  else inflateCodes ll dd lim fuel (copyBack d (lb + le) out) bs4

/-- The lengths of the fixed codes. -/
def fixedLens : List Nat :=
  List.replicate 144 8 ++ List.replicate 112 9 ++ List.replicate 24 7 ++ List.replicate 8 8

/-- The order of the code length codes. -/
def clOrder : List Nat := [16, 17, 18, 0, 8, 7, 9, 6, 10, 5, 11, 4, 12, 3, 13, 2, 14, 1, 15]

/-- `n` code lengths of 3 bits. -/
def readClens : Nat → List Bool → Option (List Nat × List Bool)
  | 0, bs => some ([], bs)
  | n + 1, bs =>
    match takeBits 3 bs with
    | none => none
    | some (v, r) => (readClens n r).map (fun p => (v :: p.1, p.2))

/-- The lengths of a dynamic block's codes, newest first, up to `n` of them. -/
def readLens (h : Huff) (n : Nat) : Nat → List Nat → List Bool → Option (List Nat × List Bool)
  | 0, _, _ => none
  | fuel + 1, acc, bs =>
    if n ≤ acc.length then (if acc.length = n then some (acc, bs) else none)
    else
      match h.next bs with
      | none => none
      | some (s, r) =>
        if s < 16 then readLens h n fuel (s :: acc) r
        else
          let (x, lo) := if s = 16 then (2, 3) else if s = 17 then (3, 3) else (7, 11)
          match takeBits x r with
          | none => none
          | some (k, r2) =>
            if s = 16 ∧ acc = [] then none
            else readLens h n fuel (List.replicate (lo + k) (if s = 16 then acc.headD 0 else 0) ++ acc) r2

/-- The codes of a dynamic block. -/
def readCodes (bs : List Bool) : Option (Huff × Huff × List Bool) :=
  match takeBits 14 bs with
  | none => none
  | some (v, r) =>
    let hlit := v % 32 + 257
    let hdist := v / 32 % 32 + 1
    match readClens (v / 1024 + 4) r with
    | none => none
    | some (cl, r1) =>
      let h := Huff.make ((List.range 19).map (fun s => ((firstIdx (· == s) clOrder).bind (fun i => cl[i]?)).getD 0))
      if decide (286 < hlit) || !(h.left == some 0) then none
      else
        match readLens h (hlit + hdist) (hlit + hdist + 1) [] r1 with
        | none => none
        | some (ls, r2) =>
          let lens := ls.reverse
          let ll := Huff.make (lens.take hlit)
          let dd := Huff.make (lens.drop hlit)
          if ll.ok && dd.ok && decide (lens.getD 256 0 ≠ 0) then some (ll, dd, r2) else none

/-- One block: `pos` is the number of bits before it, for the byte boundary of a stored block. -/
def inflateBlock (lim total : Nat) (out : List Byte) (bs : List Bool) : Inflated :=
  match takeBits 3 bs with
  | none => .format
  | some (hd, r) =>
    let fin := hd % 2 == 1
    let mark := fun (x : Inflated) => match x with | .ok o rest _ => .ok o rest fin | y => y
    match hd / 2 with
    | 0 =>
      let skip := (8 - (total - r.length) % 8) % 8
      match takeBits 32 (r.drop skip) with
      | none => .format
      | some (v, r1) =>
        let len := v % 65536
        if v / 65536 + len ≠ 65535 ∨ r1.length < 8 * len then .format
        else if lim < out.length + len then .outMax
        else
          let bytes := (List.range len).map (fun i => BitVec.ofNat 8 (((takeBits 8 (r1.drop (8 * i))).map (·.1)).getD 0))
          .ok (bytes.reverse ++ out) (r1.drop (8 * len)) fin
    | 1 => mark (inflateCodes (Huff.make fixedLens) (Huff.make (List.replicate 30 5)) lim (r.length + 1) out r)
    | 2 =>
      match readCodes r with
      | none => .format
      | some (ll, dd, r1) => mark (inflateCodes ll dd lim (r1.length + 1) out r1)
    | _ => .format

/-- Blocks until a final one, or until less than a byte of the input is left at the end of a block; `fuel` bounds the blocks. -/
def inflateBlocks (lim total : Nat) : Nat → List Byte → List Bool → Inflated
  | 0, _, _ => .format
  | fuel + 1, out, bs =>
    match inflateBlock lim total out bs with
    | .ok o r true => .ok o r true
    | .ok o r false => if r.length < 8 then .ok o r false else inflateBlocks lim total fuel o r
    | x => x

/-- Expands an input after a history, oldest byte first, to at most `max` bytes: output, input bytes used, and whether the stream ended. -/
def inflate (hist input : List Byte) (max : Nat) : Except Nat (List Byte × Nat × Bool) :=
  let bits := bitStream input
  let h := hist.reverse
  match inflateBlocks (h.length + max) bits.length (bits.length + 1) h bits with
  | .ok o r fin => .ok ((o.take (o.length - h.length)).reverse, input.length - r.length / 8, fin)
  | .format => .error 0x80
  | .outMax => .error 0x81

/-! The compressor (R256): its output is a DEFLATE stream that expands to the input; which one it is, the manual does not give (log entry 7). -/

/-- Stored blocks: what stands in where the uninterpreted compressor gives no stream that expands to the input. `n` bounds the blocks. -/
def storedBlocks (fin : Bool) : Nat → List Byte → List Byte
  | 0, _ => []
  | n + 1, d =>
    if d.length ≤ 65535 then (if fin then 1 else 0) :: leBytes 2 d.length ++ leBytes 2 (65535 - d.length) ++ d
    else 0 :: leBytes 2 65535 ++ leBytes 2 0 ++ d.take 65535 ++ storedBlocks fin n (d.drop 65535)

/-- The empty stored block that a flush appends (R257). -/
def flushMark : List Byte := [0, 0, 0, 0xFF, 0xFF]

/-- The bytes of a stream that ends at a finish (BFINAL = 1) or at a flush, whose empty stored block ends on a byte boundary (R257). -/
def deflate (level : Nat) (fin : Bool) (hist input : List Byte) : List Byte :=
  let z := Config.deflate (level * 2 + b2n fin) hist input
  let good :=
    match inflate hist z input.length with
    | .ok (o, used, f) => decide (o = input) && used == z.length && f == fin && (fin || decide (z.drop (z.length - 4) = flushMark.drop 1))
    | .error _ => false
  if good then z else storedBlocks fin (input.length / 65535 + 1) input ++ (if fin then [] else flushMark)

/-! Packed extents (R261, R262). -/

/-- The output limit of the guard (R259). -/
def guardLimit (nsect : Nat) : Nat := (nsect - 1) * 4096 - 64

/-- Bytes 0x00-0x1B of the header of a packed extent. -/
def packHead (nsect chain ltag clen stored : Nat) : List Byte :=
  leBytes 2 0x5158 ++ leBytes 1 1 ++ leBytes 1 nsect ++ leBytes 4 chain ++ leBytes 8 ltag ++ leBytes 4 clen ++ leBytes 1 stored ++ leBytes 7 0

/-- The stored sectors of a packed extent before XTS. -/
def packExtent (nsect chain ltag : Nat) (z : List Byte) : List Sector :=
  let stored := ceilDiv (64 + z.length) 4096
  let h := packHead nsect chain ltag z.length stored
  pieces 4096 stored (sliceBytes (h ++ leBytes 4 (crc32c h) ++ leBytes 32 0 ++ z) 0 (stored * 4096))

/-- The compressed bytes of a packed extent after XTS is undone: CLEN of them after the header; none where the header is wrong. -/
def unpackExtent (ss : List Sector) : Option (Nat × List Byte) :=
  let bs := ss.flatMap fullSector
  let h := bs.take 0x1C
  if leNat (h.take 2) == 0x5158 && leNat (sliceBytes h 2 1) == 1 && leNat (sliceBytes h 0x15 7) == 0 &&
      leNat (sliceBytes bs 0x1C 4) == crc32c h && (sliceBytes bs 0x20 32).all (fun b => b.toNat == 0) then
    some (leNat (sliceBytes h 3 1), sliceBytes bs 64 (leNat (sliceBytes h 0x10 4)))
  else none

/-! The data path's stages on an item's sectors. -/

/-- A list of bytes as sectors. -/
def toSectors (bs : List Byte) : List Sector := pieces 4096 (bs.length / 4096) bs

/-- XTS of the stored sectors of an item (R263). `packed`: the first 64 bytes of the first sector stay in clear. -/
def xtsStored (enc : Bool) (key : List Byte) (ltag : Nat) (packed : Bool) (ss : List Sector) : List Sector :=
  ss.zipIdx.map (fun p =>
    let d := fullSector p.1
    if packed && p.2 == 0 then d.take 64 ++ xts enc key ltag (d.drop 64) else xts enc key (ltag + p.2) d)

/-- SHUF of an item (R249, R250). -/
def shufItem (bits : Nat) (whole : Bool) (ss : List Sector) : List Sector :=
  if whole then toSectors (reshape bits (ss.flatMap fullSector)) else ss.map (fun s => reshape bits (fullSector s))

/-- SHUF of an item undone. -/
def unshufItem (bits : Nat) (whole : Bool) (ss : List Sector) : List Sector :=
  if whole then toSectors (unreshape bits (ss.flatMap fullSector)) else ss.map (fun s => unreshape bits (fullSector s))

/-- SQZ of an item: its packed extent, or none where the guard trips (R259). -/
def sqzItem (nsect chain ltag : Nat) (ss : List Sector) : Option (List Sector) :=
  let z := deflate (chLevel chain) true [] (ss.flatMap fullSector)
  if guardLimit nsect < z.length then none else some (packExtent nsect chain ltag z)

/-- SQZ of a packed extent undone (R258, R262): exactly NSECT sectors, else SQZ_FORMAT. -/
def unsqzItem (ss : List Sector) : Option (List Sector) :=
  match unpackExtent ss with
  | none => none
  | some (n, z) =>
    match inflate [] z (n * 4096) with
    | .error _ => none
    | .ok (o, _, fin) => if o.length = n * 4096 && fin then some (toSectors o) else none

end Sys2Proof.Machine
end

