-- ==== Sys2Proof/Machine/Items.lean ====
section
/-! DEFINITION. Items on their way between host and landing: bindings, the commit of R206, the transform lanes' portions, placement in the landing,
and the completion of commands (R192, R205-R210, R215, R219, R244-R262, R288-R291). -/

namespace Sys2Proof.Machine

/-! Ends of items. -/

/-- The mark of an item that meets Die Busy, Retry (R65). -/
def itBusy : Nat := 0x100
/-- The mark of an item whose place in a zone a failed item took away: Zone Invalid Write (log entry 18). -/
def itInvalid : Nat := 0x101
/-- The mark of an item whose host DMA failed (R282). -/
def itDma : Nat := 0x102

/-- The NVMe status and DW0 of an item that failed (R65, R290, R291). -/
def Item.nstat (x : Item) : NStat × Nat :=
  if x.status = itBusy then (⟨7, 0xC2, false⟩, satTo 65535 x.hint)
  else if x.status = itInvalid then (⟨1, 0xBC, false⟩, 0)
  else if x.status = itDma then (stDma, cstBus)
  else if x.block = 0 then (nvmeOf .other x.status, x.status)
  else (nvmeDetail x.block x.status, x.status + x.reason * 256 + x.block * 65536)

/-- An item by id. -/
def Chip.item (c : Chip) (id : Nat) : Option Item := c.host.items.find? (fun x => x.id == id)

/-- Changes an item. -/
def Chip.updItem (c : Chip) (id : Nat) (g : Item → Item) : Chip :=
  { c with host := { c.host with items := updateWhere (fun x => x.id == id) g c.host.items } }

/-- A reset of the zone, accepted before the item, is still to come (R297). -/
def Chip.resetAhead (c : Chip) (x : Item) (z : Nat) : Bool :=
  c.host.zoneOps.any (fun o => o.op == 4 && o.nsx == x.nsx && o.zones.contains z && decide (o.seq ≤ x.id))

/-- The zone that a write item of a zoned namespace is for, and its first sector in it. -/
def Chip.itemZone (c : Chip) (x : Item) : Nat × Nat :=
  match c.ns x.nsx with
  | some n => (x.ltag / Nat.max 1 n.zsze, x.ltag % Nat.max 1 n.zsze)
  | none => (0, 0)

/-- The buffers that an item holds are released. -/
def Chip.releaseItem (c : Chip) (e : Env) (id : Nat) : Chip :=
  match c.item id with
  | none => c
  | some x => (x.buffers.foldl (fun c h => (c.releaseRef e h).2) c).updItem id (fun x => { x with buffers := [] })

/-- A write item of a zone failed: placement stops, the command's later items are discarded, the write pointer stands at its first sector (R288).
Items of other commands that were accepted behind it have no place left (log entry 18). -/
def Chip.stopZone (c : Chip) (e : Env) (x : Item) : Chip :=
  let (z, off) := c.itemZone x
  let hit := fun (y : Item) => y.write && y.nsx == x.nsx && (c.itemZone y).1 == z && decide (x.ltag < y.ltag) && y.stage != .done && !c.resetAhead y z
  let ids := (c.host.items.filter hit).map (·.id)
  let c1 := ids.foldl (fun c i => c.releaseItem e i) c
  let stop := fun (y : Item) => { y with stage := .done, status := if y.cmd = x.cmd then 0 else itInvalid }
  let c2 := { c1 with host := { c1.host with items := updateWhere hit stop c1.host.items } }
  c2.updZone x.nsx z (fun y => { y with
    assigned := if c.host.zoneOps.any (fun o => o.op == 4 && o.nsx == x.nsx && o.zones.contains z) then y.assigned else off
    firstBusy := if x.first then false else y.firstBusy
    state := if off = 0 && y.lanes == [] && y.state == .impOpen then .empty else y.state })

/-- An item ends, with success or with a status (R288, R289). -/
def Chip.endItem (c : Chip) (e : Env) (id st block reason : Nat) : Chip :=
  match c.item id with
  | none => c
  | some x =>
    if x.stage = .done then c
    else
      let c1 := (c.releaseItem e id).updItem id (fun x => { x with stage := .done, status := st, block := block, reason := reason })
      if st ≠ 0 && x.write && x.zoned then c1.stopZone e x else c1

/-- A fault excuses the deadline of every contracted read in flight (R74). -/
def Chip.excuseAll (c : Chip) : Chip :=
  { c with host := { c.host with items := updateWhere (fun x => x.contracted && x.stage != .waiting) (fun x => { x with excused := true }) c.host.items } }

/-! Bindings (R215). -/

/-- The index of the binding in force under a key. -/
def Chip.bindIdx (c : Chip) (nsx ph : Nat) : Option Nat :=
  (c.kerf.binds.find? (fun p => match p.2 with | some b => b.nsx == nsx && b.ph == ph && !b.draining | none => false)).map (·.1)

/-- The binding that serves a key: the exact one, else that of every handle. -/
def Chip.bindFor (c : Chip) (nsx ph : Nat) : Option Nat :=
  match c.bindIdx nsx ph with
  | some i => some i
  | none => c.bindIdx nsx 0xFFFF

/-- A binding. -/
def Chip.binding (c : Chip) (i : Nat) : Option Binding := Tab.get (fun _ => none) c.kerf.binds i

/-- The program of a slot. -/
def Chip.slotProg (c : Chip) (slot : Nat) : Option Program := Tab.get (fun _ => none) c.kerf.slots slot

/-- The program that serves a key. -/
def Chip.progFor (c : Chip) (nsx ph : Nat) : Option Program := ((c.bindFor nsx ph).bind c.binding).bind (fun b => c.slotProg b.slot)

/-- The program has an entry. -/
def Program.has (p : Program) (entry : Nat) : Bool := p.entries.getD entry 0xFFFF != 0xFFFF

/-- A bound program serves an entry of an item; the built-in entry does otherwise. -/
def Chip.hasEntry (c : Chip) (x : Item) (entry : Nat) : Bool := (c.progFor x.nsx x.ph).any (fun p => p.has entry)

/-- SCHAIN of the program that serves a key, 0 without a binding. -/
def Chip.schain (c : Chip) (nsx ph : Nat) : Nat := ((c.progFor nsx ph).map (·.schain)).getD 0

/-- The emit ring of a function: records, read index and drops (R210, R308). -/
def Chip.ring (c : Chip) (fn : Nat) : List (List Byte) × Nat × Nat := Tab.get (fun _ => ([], 0, 0)) c.host.emit fn

/-- Puts an emit ring. -/
def Chip.setRing (c : Chip) (fn : Nat) (r : List (List Byte) × Nat × Nat) : Chip :=
  { c with host := { c.host with emit := Tab.set (fun _ => ([], 0, 0)) c.host.emit fn r } }

/-- Appends a record to a function's emit ring, or drops it when the ring is full (R210). -/
def Chip.emitTo (c : Chip) (fn : Nat) (r : List Byte) : Chip :=
  let (rs, i, d) := c.ring fn
  if rs.length < 4096 then c.setRing fn (rs ++ [r], i, d)
  else ((c.setRing fn (rs, i, satTo 0xFFFFFFFF (d + 1))).bump Reg.krfEmitDrop 31 0 1).raise (768 + fn) 0 fn 0 0

/-! Tags (R209). -/

/-- A tag enters a zone's set; a 17th distinct one is dropped. -/
def Zone.addTag (z : Zone) (t : Nat) : Zone :=
  if z.tags.contains t then z else if z.tags.length < 16 then { z with tags := z.tags ++ [t] } else { z with tagOvf := true }

/-! Lanes (R244-R247). -/

/-- The first bit and the number of lanes of a kind in TF_FENCE: 0 mover, 1 squeeze, 2 XTS, 3 hash, 4 GCM. -/
def laneBits (k : Nat) : Nat × Nat :=
  match k with
  | 0 => (0, 8) | 1 => (11, 4) | 2 => (8, 2) | 3 => (15, 1) | _ => (10, 1)

/-- A lane is there and not fenced. -/
def Chip.laneOk (c : Chip) (e : Env) (g k l : Nat) : Bool :=
  decide (g < e.part.regions) && (k != 1 || e.part.full) && !c.bit (Reg.tfFence g) ((laneBits k).1 + l) && c.bit (Reg.tfCtrl g) 0

/-- The lanes of a kind that a region has in service. -/
def Chip.lanesOf (c : Chip) (e : Env) (g k : Nat) : List Nat := (List.range (laneBits k).2).filter (c.laneOk e g k)

/-- Bytes per cycle of a lane kind, in eightieths (R244, R355). `write`: a squeeze lane compresses. -/
def laneRate (c : Chip) (k : Nat) (write : Bool) : Nat :=
  let sca := c.reg Reg.keySca
  let x := xtsRate80 (bitsOf sca 1 0) (bitOf sca 4)
  match k with
  | 0 => 320
  | 1 => if write then 320 else 480
  | 2 => x
  | 3 => 1280
  | _ => x / 2

/-- The stages of a chain on the way in (R204). -/
def writeStages (chain : Nat) : List Nat :=
  (if chHasShuf chain then [0] else []) ++ (if chSqz chain then [1] else []) ++ (if chXts chain then [2] else []) ++ (if chHash chain then [3] else [])

/-- The stages of a chain on the way out. -/
def readStages (chain : Nat) : List Nat :=
  (if chXts chain then [2] else []) ++ (if chSqz chain then [1] else []) ++ (if chHasShuf chain then [0] else [])

/-- Bytes that a stage of an item moves: its input, or for an expansion its output. -/
def stageBytes (x : Item) (k : Nat) : Nat :=
  if k = 1 && !x.write then ((x.pack.map (·.2)).getD x.nsect) * 4096 else x.data.length * 4096

/-- Bytes booked on a kind of lane in a region and not yet moved. -/
def Chip.laneLoad (c : Chip) (g k : Nat) : Nat :=
  sumNat ((c.host.items.filter (fun x => x.stage == .lanes && x.region == g)).map (fun x =>
    match x.laneLeft with | (k', n) :: _ => if k' = k then n else 0 | [] => 0))

/-- The region with the most unbooked capacity for a kind of lane, the lowest of equals (R247). -/
def Chip.pickRegion (c : Chip) (e : Env) (k : Nat) : Nat :=
  (minBy (fun g => c.laneLoad g k) ((List.range e.part.regions).filter (fun g => c.lanesOf e g k != []))).getD 0

/-- An item enters the lanes with its stages; the first one runs in the next tick. -/
def Chip.toLanes (c : Chip) (e : Env) (id : Nat) (ks : List Nat) : Chip :=
  match c.item id, ks with
  | some x, k :: _ =>
    let g := if x.write then c.pickRegion e k else x.cluster / 8
    c.updItem id (fun x => { x with
      stage := .lanes
      region := g
      lane := none
      laneFrom := c.tick + 1
      laneLeft := ks.zipIdx.map (fun p => (p.1, if p.2 = 0 then stageBytes x p.1 else 0)) })
  | _, _ => c

/-! Placement in the landing (R169, R170, R288). -/

/-- Puts the sectors of an item of a conventional namespace into a stream's group and points the map to them. -/
def Chip.placeConv (c : Chip) (e : Env) (x : Item) (n : Ns) : Nat × Chip :=
  let handle := n.handles.getD x.ph 0
  let many := x.data.length
  let (st, g, c1) := c.groupFor e .host handle n.mode x.cmd.fn x.nsx many x.pack.isSome none
  if st ≠ cstOk then (st, c)
  else
    let put := fun (a : Nat × List Nat × Chip) (p : Sector × Nat) =>
      if a.1 ≠ cstOk then a
      else
        let tag := if x.pack.isSome then x.ltag else x.ltag + p.2
        let (st, w, c2) := a.2.2.putSector e g x.cmd.fn x.region ⟨p.1, tag, x.nsx, x.cmd.fn, 0, 0⟩
        (st, a.2.1 ++ [w], c2)
    let (st2, ws, c2) := x.data.zipIdx.foldl put (cstOk, [], c1)
    if st2 ≠ cstOk then (st2, c)
    else
      let first := ws.headD 0
      let c3 := if x.pack.isSome then
          { c2 with map := { c2.map with
            packed := c2.map.packed.filter (fun p => p.2.2.1 != first) ++ [(entKey x.nsx x.ltag, x.nsect, first, many, x.chain)] } }
        else c2
      (cstOk, (List.range x.nsect).foldl (fun c i => c.setEntry e x.nsx (x.ltag + i) (if x.pack.isSome then first else ws.getD i 0)) c3)

/-- A zone whose write pointer has reached its capacity is Full (R295). -/
def Chip.fillZone (c : Chip) (nsx z : Nat) : Chip :=
  match c.ns nsx with
  | none => c
  | some n =>
    let y := n.zone z
    if n.zcap ≤ y.wp && y.state != .full then c.updZone nsx z (fun y => { y with state := .full, sealDue := y.evid }) else c

/-- Puts the sectors of a zone's item at the write pointer; their leaf digests go to the seal engine (R251, R288). -/
def Chip.placeZone (c : Chip) (e : Env) (x : Item) (z : Nat) : Nat × Chip :=
  let put := fun (a : Nat × Chip) (p : Sector × Nat) =>
    if a.1 ≠ cstOk then a else a.2.putZone e x.nsx z x.cmd.fn x.region ⟨p.1, x.ltag + p.2, x.nsx, x.cmd.fn, 0, 0⟩
  let off := (c.zone x.nsx z).wp
  let (st, c1) := x.data.zipIdx.foldl put (cstOk, c)
  if st ≠ cstOk then (st, c)
  else
    let give := fun (c : Chip) (p : List Byte × Nat) => c.updZone x.nsx z (fun y => y.deliver (off + p.2) p.1)
    let c2 := if (c.zone x.nsx z).evid then x.leaves.zipIdx.foldl give c1 else c1
    (cstOk, c2.fillZone x.nsx z)

/-- An item whose transforms are done takes its place, or waits for the items before it and for a cord that may open a group; a refused buffer fails
it (R183, R288, R382). -/
def Chip.placeItem (c : Chip) (e : Env) (id : Nat) : Chip :=
  match c.item id with
  | none => c
  | some x =>
    match x.stage, c.ns x.nsx with
    | .placing, some n =>
      if x.zoned then
        let (z, off) := c.itemZone x
        let y := n.zone z
        if y.wp < off then c
        else if off < y.wp || y.state == .full then c.endItem e id itInvalid 0 0
        else
          let (st, c1) := c.placeZone e x z
          if st = cstOk then c1.endItem e id 0 0 0 else if st = cstBusy then c else c.endItem e id st 0 0
      else
        let (st, c1) := c.placeConv e x n
        if st = cstOk then c1.endItem e id 0 0 0 else if st = cstBusy then c else c.endItem e id st 0 0
    | _, _ => c

/-- Every item that waits for its place, in order of address; none while the mapping engine restarts (R45). -/
def Chip.placeAll (c : Chip) (e : Env) : Chip :=
  if c.restartRuns .map then c
  else ((sortBy (fun x => x.ltag) (c.host.items.filter (fun x => x.stage == .placing))).map (·.id)).foldl (fun c i => c.placeItem e i) c

/-! Commit (R206). -/

/-- A write item commits with the effects recorded (R206, R219, R250): its checks, the zone's chain, tags, then its lanes. -/
def Chip.commitWrite (c : Chip) (e : Env) (id : Nat) (fx : ItemFx) (builtin : Bool) : Chip :=
  match c.item id with
  | none => c
  | some x =>
    let (z, _) := c.itemZone x
    let y := c.zone x.nsx z
    let sch := c.schain x.nsx x.ph
    let chain := if builtin && !x.zoned then sch else chainOf fx
    let first := x.zoned && x.first
    let st :=
      if fx.fail.isSome then some (0x86, 4, fx.fail.getD 0)
      else if !x.zoned && fx.evid then some (cstBad, 0, 0)
      else if !x.zoned && !chSqz chain && chain != sch then some (cstBad, 0, 0)
      else if x.zoned && !first && (y.chain != some chain || y.evid != fx.evid) then some (cstBad, 0, 0)
      else if fx.evid && !chHash chain then some (0x85, 4, 0)
      else none
    match st with
    | some (s, b, r) => c.endItem e id s b r
    | none =>
      let opened := if first && y.lanes == [] then c.openLanes e x.nsx z fx.evid else some c
      match opened with
      | none => c.endItem e id cstBusy 0 0
      | some c1 =>
        let c2 := if first then c1.updZone x.nsx z (fun y => { y with
            chain := some chain
            evid := fx.evid
            firstBusy := false
            firstTick := c.tick }) else c1
        let c3 := if x.zoned then c2.updZone x.nsx z (fun y => fx.tags.foldl Zone.addTag y) else c2
        let kept := if chSqz chain && x.nsect == 1 then sch else chain
        let c4 := c3.updItem id (fun x => { x with chain := kept, evid := fx.evid, fx := fx })
        match writeStages kept with
        | [] => (c4.updItem id (fun x => { x with stage := .placing })).placeItem e id
        | ks => c4.toLanes e id ks

/-- The data of a read goes to its host. -/
def Chip.finishRead (c : Chip) (e : Env) (id : Nat) : Chip := c.endItem e id 0 0 0

/-- The reverse transforms are done: the sectors asked for, zeros where the chain does not count; then the completion entry (R191). -/
def Chip.restored (c : Chip) (e : Env) (id : Nat) : Chip :=
  match c.item id with
  | none => c
  | some x =>
    let ss := match x.pack with
      | some (first, _) => if x.fx.undo && chSqz x.chain then (x.data.drop (x.ltag - first)).take x.nsect else x.data
      | none => x.data
    let c1 := c.updItem id (fun x => { x with data := ss.zipIdx.map (fun p => if x.pads.contains p.2 then [] else p.1) })
    if c1.hasEntry x 2 then c1.updItem id (fun x => { x with stage := .kerf 2 }) else c1.finishRead e id

/-- A read item commits at the end of its read entry (R206). Sectors without data read as zeros and need no lane (R173). -/
def Chip.commitRead (c : Chip) (e : Env) (id : Nat) (fx : ItemFx) : Chip :=
  match c.item id with
  | none => c
  | some x =>
    if fx.fail.isSome then c.endItem e id 0x86 4 (fx.fail.getD 0)
    else if x.chain != 0 && !fx.undo then c.endItem e id 0x85 4 0
    else
      let c1 := c.updItem id (fun x => { x with fx := fx })
      match (if fx.undo && !(x.pack.isNone && x.pads.length == x.nsect) then readStages x.chain else []) with
      | [] => c1.restored e id
      | ks => c1.toLanes e id ks

/-- A read item commits at the end of its completion entry. -/
def Chip.commitCompletion (c : Chip) (e : Env) (id : Nat) (fx : ItemFx) : Chip :=
  if fx.fail.isSome then c.endItem e id 0x86 4 (fx.fail.getD 0) else c.finishRead e id

/-- Every sector of a read item has been read: a failed one ends the item with the lowest-addressed failure (R289); else its read entry is next. -/
def Chip.readDone (c : Chip) (e : Env) (id : Nat) : Chip :=
  match c.item id with
  | none => c
  | some x =>
    match minBy (fun (f : Nat × Nat × Nat) => f.1) x.fails with
    | some (_, b, s) => c.endItem e id s b 0
    | none =>
      if c.hasEntry x 1 then c.updItem id (fun x => { x with stage := .kerf 1 })
      else (c.updItem id (fun x => { x with stage := .kerf 1 })).commitRead e id { ItemFx.none with undo := true }

/-! The lanes' portions (R245, R246). -/

/-- The key that a stage of an item uses, or its status (R252, R346). -/
def Chip.laneKey (c : Chip) (fn chain : Nat) : Except Nat (List Byte) :=
  match c.pageSlot fn (chKey chain) with
  | none => .error cstKey
  | some i =>
    let x := c.slot i
    if x.state ≠ .valid then .error cstKey else if x.type ≠ 1 then .error cstBad else .ok x.key

/-- The next stage of an item, in the tick after; the last one hands it on. -/
def Chip.nextStage (c : Chip) (e : Env) (id : Nat) : Chip :=
  match c.item id with
  | none => c
  | some x =>
    match x.laneLeft.drop 1 with
    | [] =>
      if x.write then (c.updItem id (fun x => { x with stage := .placing, laneLeft := [], lane := none })).placeItem e id
      else (c.updItem id (fun x => { x with laneLeft := [], lane := none })).restored e id
    | (k, _) :: t => c.updItem id (fun x => { x with laneLeft := (k, stageBytes x k) :: t, lane := none, laneFrom := c.tick + 1 })

/-- A stage of an item ends: what it makes of the item's sectors (R249-R251, R258, R259). -/
def Chip.endStage (c : Chip) (e : Env) (x : Item) (k : Nat) (key : List Byte) : Chip :=
  let whole := chSqz x.chain
  let tag := (x.pack.map (·.1)).getD x.ltag
  if x.write then
    match k with
    | 0 => (c.updItem x.id (fun x => { x with data := shufItem (chShuf x.chain) whole x.data })).nextStage e x.id
    | 1 =>
      match sqzItem x.nsect x.chain x.ltag x.data with
      | some ss => (c.updItem x.id (fun x => { x with data := ss, pack := some (x.ltag, x.nsect) })).nextStage e x.id
      | none =>
        let sch := c.schain x.nsx x.ph
        let c1 := (c.bump (Reg.tfGuardCnt x.region) 31 0 1).updItem x.id (fun x => { x with
          data := unshufItem (chShuf x.chain) whole x.data
          chain := sch })
        match writeStages sch with
        | [] => (c1.updItem x.id (fun x => { x with stage := .placing, laneLeft := [], lane := none })).placeItem e x.id
        | ks => c1.toLanes e x.id ks
    | 2 => (c.updItem x.id (fun x => { x with data := xtsStored true key x.ltag x.pack.isSome x.data })).nextStage e x.id
    | _ => (c.updItem x.id (fun x => { x with leaves := x.data.map sectorDigest })).nextStage e x.id
  else
    match k with
    | 2 => (c.updItem x.id (fun x => { x with data := xtsStored false key tag x.pack.isSome x.data })).nextStage e x.id
    | 1 =>
      match unsqzItem x.data with
      | some ss => if ss.length = (x.pack.map (·.2)).getD x.nsect then (c.updItem x.id (fun x => { x with data := ss })).nextStage e x.id
        else c.endItem e x.id 0x80 5 0
      | none => c.endItem e x.id 0x80 5 0
    | _ => (c.updItem x.id (fun x => { x with data := unshufItem (chShuf x.chain) whole x.data })).nextStage e x.id

/-- The KiB counter of a lane kind. -/
def kibReg (g k : Nat) : Nat :=
  match k with
  | 0 => Reg.tfMovKib g | 1 => Reg.tfSqzKib g | 2 => Reg.tfXtsKib g | 3 => Reg.tfHashKib g | _ => Reg.tfGcmKib g

/-- Input bytes are counted, KiB by KiB. -/
def Chip.countLane (c : Chip) (g k n : Nat) : Chip :=
  let r := Tab.get (fun _ => 0) c.tf.residue (g * 8 + k) + n
  ({ c with tf := { c.tf with residue := Tab.set (fun _ => 0) c.tf.residue (g * 8 + k) (r % 1024) } }).bump (kibReg g k) 31 0 (r / 1024)

/-- A ring of the region has a descriptor for a lane kind in hand (R246). -/
def Chip.ringWaits (c : Chip) (g k : Nat) : Bool :=
  (List.range 4).any (fun q =>
    match (Tab.get (fun _ => Ring.idle) c.tf.rings (g * 4 + q)).running with
    | none => false
    | some d =>
      let op := bitsOf d.ctrl 3 0
      (if op ≤ 4 then 0 else if op ≤ 6 then 1 else if op ≤ 8 then 2 else if op ≤ 10 then 4 else 3) == k)

/-- The lane with the fewest cycles used of those in service, in the item's region or, where its lanes are all fenced, in the neighbouring one (R45). -/
def Chip.pickLane (c : Chip) (e : Env) (used : Tab Nat) (x : Item) (k : Nat) : Option (Nat × Nat) :=
  let best := fun (g : Nat) => minBy (fun l => Tab.get (fun _ => 0) used (g * 64 + k * 8 + l)) (c.lanesOf e g k)
  match x.lane with
  | some l => if c.laneOk e x.region k l then some (x.region, l) else (best x.region).map (fun l => (x.region, l))
  | none =>
    match best x.region with
    | some l => some (x.region, l)
    | none => (best (if x.region % 2 = 0 then x.region + 1 else x.region - 1)).map (fun l => (if x.region % 2 = 0 then x.region + 1 else x.region - 1, l))

/-- No hash portion is booked for a sector 64 or more beyond the lowest unfolded one (R361). -/
def Chip.hashReady (c : Chip) (x : Item) (k : Nat) : Bool :=
  let (z, off) := c.itemZone x
  k != 3 || decide (off + x.nsect ≤ (c.zone x.nsx z).folded + 64)

/-- Core cycles of the current tick: of the lower point while a change of point runs (R435), and of the tick's own length (R414). -/
def Chip.tickCycles (c : Chip) : Nat :=
  coreCycles (match c.pmu.dvfs with | some d => Nat.max c.pmu.point d.point | none => c.pmu.point) * c.time.len / 200

/-- One item's portion in the tick that ends: cycles used by lane, and the chip. -/
def lanePortion (e : Env) (a : Tab Nat × Chip) (id : Nat) : Tab Nat × Chip :=
  let (used, c) := a
  match c.item id with
  | none => a
  | some x =>
    match x.stage, x.laneLeft with
    | .lanes, (k, left) :: t =>
      if c.tick < x.laneFrom || !c.hashReady x k then a
      else
        match c.pickLane e used x k, (if k = 2 then c.laneKey x.cmd.fn x.chain else .ok []) with
        | none, _ => a
        | some _, .error st => (used, c.endItem e id st 0 0)
        | some (g, l), .ok key =>
          let cyc := c.tickCycles
          let lim := if !x.contracted && c.ringWaits g k then cyc * (100 - c.fld (Reg.tfCtrl g) 12 8) / 100 else cyc
          let u := Tab.get (fun _ => 0) used (g * 64 + k * 8 + l)
          let rate := Nat.max 1 (laneRate c k x.write)
          let n := Nat.min left ((lim - u) * rate / 80)
          if n = 0 then a
          else
            let used1 := Tab.set (fun _ => 0) used (g * 64 + k * 8 + l) (u + ceilDiv (n * 80) rate)
            let c1 := c.countLane g k n
            if n = left then (used1, c1.endStage e x k key)
            else (used1, c1.updItem id (fun x => { x with laneLeft := (k, left - n) :: t, lane := some l, region := g }))
    | _, _ => a

/-- The portions of the tick that ends: contracted reads by deadline, then the other items in order of acceptance (R246). -/
def Chip.lanePortions (c : Chip) (e : Env) : Chip :=
  let mine := c.host.items.filter (fun x => x.stage == .lanes)
  let ids := (sortBy (fun x => x.deadline) (mine.filter (·.contracted))).map (·.id) ++ (mine.filter (fun x => !x.contracted)).map (·.id)
  (ids.foldl (lanePortion e) ([], c)).2

/-! Starting write items, and ending commands. -/

/-- A write item leaves the host engine: its program's write entry is next, or the built-in one commits it at once (R191, R215). -/
def Chip.startWrite (c : Chip) (e : Env) (id : Nat) : Chip :=
  match c.item id with
  | none => c
  | some x =>
    let c1 := c.updItem id (fun x => { x with stage := .kerf 0 })
    if c1.hasEntry x 0 then c1 else c1.commitWrite e id ItemFx.none true

/-- The first write item, in order of acceptance, that can leave the host engine starts (R219, R297, R337): `n` bounds the items. -/
def Chip.startWrites (c : Chip) (e : Env) : Nat → Chip
  | 0 => c
  | n + 1 =>
    let can := fun (x : Item) =>
      let (z, _) := c.itemZone x
      let y := c.zone x.nsx z
      x.write && x.stage == .waiting && !c.ftuWaits x.cmd && !(x.zoned && c.resetAhead x z) && (!x.zoned || y.chain.isSome || !y.firstBusy)
    match c.host.items.find? can with
    | none => c
    | some x =>
      let (z, _) := c.itemZone x
      let first := x.zoned && (c.zone x.nsx z).chain.isNone
      let c1 := if first then (c.updZone x.nsx z (fun y => { y with firstBusy := true })).updItem x.id (fun x => { x with first := true }) else c
      (c1.startWrite e x.id).startWrites e n

/-- A contracted read was posted: counted, and its times go to Tally (R74, R309, R479). -/
def Chip.postTimes (c : Chip) (x : Item) : Chip :=
  if x.contracted then
    let late := decide (x.deadline ≤ c.tick)
    let exc := x.excused || decide (4 < x.slips)
    let k := ((c.contract x.nsx).map (·.cls)).getD 4
    let c1 := (c.countContracted x.nsx x.deadline exc).tally k (c.tick - x.accept)
    if late && exc then c1.tally 7 (c.tick - x.deadline) else c1
  else c.tally 5 (c.tick - x.accept)

/-- A command all of whose items have ended completes (R288-R290). -/
def Chip.finishCmd (c : Chip) (p : Pend) : Chip :=
  let its := sortBy (fun (x : Item) => x.ltag) (p.items.filterMap c.item)
  let gone := fun (c : Chip) =>
    { c with host := { c.host with items := c.host.items.filter (fun x => !p.items.contains x.id), cmds := c.host.cmds.filter (fun q => q.cmd != p.cmd) } }
  let busy := maxNat ((its.filter (fun x => x.status == itBusy)).map (·.hint))
  match (its.find? (fun x => x.status == itBusy)), (its.find? (fun x => x.status != 0)) with
  | some x, _ => let (st, d) := { x with hint := busy }.nstat; (gone c).complete p.cmd st d 0
  | none, some x => let (st, d) := x.nstat; (gone c).complete p.cmd st d 0
  | none, none =>
    if p.write then
      match p.assigned with
      | some a => (gone c).complete p.cmd stOk (a % 2 ^ 32) (a / 2 ^ 32)
      | none => (gone c).complete p.cmd stOk 0 0
    else
      let c1 := its.foldl (fun c x => c.postTimes x) c
      ((gone c1).answerDma p.cmd.fn (its.flatMap (fun x => x.data.flatMap fullSector))).complete p.cmd stOk 0 0

/-- Every command all of whose items have ended completes; a zone's write stopped at a failed item too. -/
def Chip.finishCmds (c : Chip) : Chip :=
  (c.host.cmds.filter (fun p => p.items.all (fun i => match c.item i with | some x => x.stage == .done | none => true))).foldl (fun c p => c.finishCmd p) c

/-- The host engine goes on after an item has moved: waiting writes start, ended commands complete. -/
def Chip.settleItems (c : Chip) (e : Env) : Chip := (c.startWrites e (c.host.items.length + 1)).finishCmds

/-! Reads (R61, R160-R166, R175, R262). -/

/-- Where a sector is read from. -/
inductive Src where
  | zeros
  | unreadable
  /-- In the landing. -/
  | landed (x : Stored)
  /-- In the landing, and its page is being rebuilt (R162). -/
  | rebuild
  | flash (l : Loc)
  deriving DecidableEq, Repr

/-- The group and page of a landing buffer. -/
def Chip.bufPage (c : Chip) (buf : Nat) : Option (Group × GPage) :=
  c.map.groups.findSome? (fun g => (g.pages.find? (fun p => p.buf == buf)).map (fun p => (g, p)))

/-- A sector of a landing buffer as a read finds it. -/
def Chip.landSrc (c : Chip) (buf sect : Nat) : Src :=
  match c.bufPage buf with
  | some (g, p) => if g.pageLost p.row (some p.slot) p.plane then .rebuild else .landed (c.landed buf sect)
  | none => .landed (c.landed buf sect)

/-- The place that a map entry names. -/
def Chip.wordSrc (c : Chip) (w : Nat) : Src :=
  if !bitOf w 63 then .zeros
  else if bitOf w 61 then .unreadable
  else if bitOf w 62 then c.landSrc (bitsOf w 31 0) (bitsOf w 33 32)
  else .flash (wordLoc w)

/-- The place of sector `off` of a zone (R163, R170, R295). -/
def Chip.zoneSrc (c : Chip) (e : Env) (nsx z off : Nat) (n : Ns) : Src :=
  let y := n.zone z
  if y.wp ≤ off then .zeros
  else if y.lost.contains off || (match y.lostFrom with | some m => decide (m ≤ off) | none => false) then .unreadable
  else
    match c.zoneGroup e nsx z off with
    | some g =>
      let (_, _, page, sect) := (e.geo n).locate off
      match g.pages[page]? with
      | some p => c.landSrc p.buf sect
      | none => .zeros
    | none =>
      match y.place (e.geo n) off with
      | some l => .flash l
      | none => .zeros

/-- The place of a logical sector of a namespace. -/
def Chip.sectorSrc (c : Chip) (e : Env) (nsx lba : Nat) (n : Ns) : Src :=
  if n.zoned then c.zoneSrc e nsx (lba / Nat.max 1 n.zsze) (lba % Nat.max 1 n.zsze) n else c.wordSrc (c.entryNow nsx lba)

/-- The place in flash `k` sectors after a place of the same group, in the order in which a group's pages are filled. -/
def Chip.locAfter (c : Chip) (e : Env) (l : Loc) (k : Nat) : Loc :=
  let p := c.cordPart e l.cord
  let rpw := rpwOf (((c.cblk l.cord l.cblk).map (·.mode)).getD 0)
  let n := Nat.max 1 (15 * p.planes)
  let i := (l.row % rpw * n + l.slot * p.planes + l.plane) * 4 + l.sect + k
  ⟨l.cord, l.cblk, l.row / rpw * rpw + i / 4 / n, i / 4 % n / Nat.max 1 p.planes, i / 4 % Nat.max 1 p.planes, i % 4⟩

/-- The place of stored sector `k` of a packed extent whose first one has a map entry: consecutive sectors of consecutive pages. -/
def Chip.packedSrc (c : Chip) (e : Env) (w k : Nat) : Src :=
  if !bitOf w 63 then .zeros
  else if bitOf w 61 then .unreadable
  else if bitOf w 62 then
    match c.bufPage (bitsOf w 31 0) with
    | none => .unreadable
    | some (g, p) =>
      let i := ((firstIdx (fun (q : GPage) => q.buf == p.buf) g.pages).getD 0) * 4 + bitsOf w 33 32 + k
      match g.pages[i / 4]? with
      | some q => c.landSrc q.buf (i % 4)
      | none => .unreadable
  else .flash (c.locAfter e (wordLoc w) k)

end Sys2Proof.Machine
end

