-- ==== Sys2Proof/Machine/Zones.lean ====
section
/-! DEFINITION. Zones: their states, the limits on open and active zones, padding, finish, close and reset, and asynchronous events
(R159, R292-R298, R361, R362). -/

namespace Sys2Proof.Machine

/-! Statuses that the NVMe Zoned Namespace command set gives (log entry 19). -/

/-- Zone Boundary Error. -/
def stZoneBoundary : NStat := ⟨1, 0xB8, true⟩
/-- Zone Is Full. -/
def stZoneFull : NStat := ⟨1, 0xB9, true⟩
/-- Zone Invalid Write (R296). -/
def stZoneWrite : NStat := ⟨1, 0xBC, false⟩
/-- Zone Invalid State Transition. -/
def stZoneState : NStat := ⟨1, 0xBF, true⟩

/-! Asynchronous events. -/

/-- An asynchronous event of a function waits to be reported: type and information (log entry 20). -/
def Chip.asyncEvent (c : Chip) (fn ty info : Nat) : Chip := c.updFn fn (fun x => { x with events := x.events ++ [(ty, info)] })

/-- Reports a function's oldest event through its oldest outstanding request: `n` bounds the events. The information of a vendor-specific event is open
(log entry 20). -/
def Chip.aerPump (c : Chip) (fn : Nat) : Nat → Chip
  | 0 => c
  | n + 1 =>
    let x := c.func fn
    match x.aers, x.events with
    | cmd :: as, (ty, info) :: es =>
      let info' := if ty = 7 then Config.open_ c.free % 256 else info
      let c1 := if ty = 7 then { c with free := c.free + 1 } else c
      ((c1.updFn fn (fun x => { x with aers := as, events := es })).complete cmd stOk (ty + info' * 256) 0).aerPump fn n
    | _, _ => c

/-- Every function's events. -/
def Chip.aerAll (c : Chip) : Chip := (c.fn.fns.map (·.1)).foldl (fun c f => c.aerPump f ((c.func f).events.length)) c

/-! States and limits. -/

/-- The state that commands accepted from now on find: a reset that is still to come leaves the zone Empty, or opened by what follows it (R297). -/
def Chip.zoneState (c : Chip) (nsx z : Nat) (y : Zone) : ZState :=
  if c.host.zoneOps.any (fun o => o.op == 4 && o.nsx == nsx && o.zones.contains z) then (if y.assigned = 0 then .empty else .impOpen) else y.state

/-- An open state. -/
def ZState.isOpen (s : ZState) : Bool := s == .impOpen || s == .expOpen

/-- An active state: open or Closed (R293). -/
def ZState.active (s : ZState) : Bool := s.isOpen || s == .closed

/-- The zones that a function owns: namespace, zone, state and last write. -/
def Chip.fnZones (c : Chip) (fn : Nat) : List (Nat × Nat × ZState × Nat) :=
  c.host.nss.flatMap (fun p =>
    match p.2 with
    | none => []
    | some n => if n.owner == some fn then n.zones.map (fun z => (p.1, z.1, c.zoneState p.1 z.1 z.2, z.2.lastWrite)) else [])

/-- A zone that was open is Closed; one without a sector written or on its way is Empty again (log entry 19). -/
def Zone.closed (y : Zone) : Zone := { y with state := if y.assigned = 0 && y.wp = 0 then .empty else .closed }

/-- A zone moves into an open state, by the checks of R294: the context of the refusal, or the chip. -/
def Chip.openZone (c : Chip) (nsx z : Nat) (st_ : ZState) : Except Ctx Chip :=
  match c.ns nsx with
  | none => .error .other
  | some n =>
    let y := n.zone z
    let st := c.zoneState nsx z y
    let f := n.owner.getD 0
    let mine := c.fnZones f
    let enter := fun (c : Chip) => c.updZone nsx z (fun y => { y with
      state := if y.state = .expOpen then .expOpen else st_
      lastWrite := c.tick })
    if st.isOpen then .ok (enter c)
    else if st = .empty && decide (c.fn.shares.az ≤ (mine.filter (fun p => p.2.2.1.active)).length) then .error .zoneActive
    else if (mine.filter (fun p => p.2.2.1.isOpen)).length < c.fn.shares.oz then .ok (enter c)
    else
      match minBy (fun (p : Nat × Nat × ZState × Nat) => p.2.2.2) (mine.filter (fun p => p.2.2.1 == .impOpen)) with
      | none => .error .zoneOpen
      | some p => .ok (enter (c.updZone p.1 p.2.1 Zone.closed))

/-! Padding (R159, R295, R296). -/

/-- The digest of a pad sector's DATA. -/
def padDigest : List Byte := sha256 (List.replicate 4096 0)

/-- Pads a group that is FILLING (R159). In a zone the write pointer moves to the next group boundary, an evidence zone's leaves cover the pads, the zone is
listed as changed and its owner is told (R296, R360). False where a buffer was refused: nothing changes. -/
def Chip.padNow (c : Chip) (e : Env) (id : Nat) (tell : Bool) : Bool × Chip :=
  match c.group id with
  | none => (false, c)
  | some g =>
    let (ok, c1) := c.padGroup e id
    if !ok then (false, c)
    else
      match g.zone, c.ns g.nsx with
      | some (z, lane), some n =>
        let geo := e.geo n
        let y := n.zone z
        let bound := (g.g * geo.w + lane + 1) * (geo.rpw * geo.sRow)
        let leaf := fun (y : Zone) (i : Nat) => y.deliver (y.wp + i) padDigest
        let c2 := c1.updZone g.nsx z (fun y =>
          let y1 := if y.evid then (List.range (bound - y.wp)).foldl leaf y else y
          { y1 with
            wp := bound
            assigned := Nat.max y.assigned bound })
        let c3 := if tell then
            (c2.updNs g.nsx (fun n => { n with changed := insertNat z n.changed })).asyncEvent (n.owner.getD 0) 2 0xEF
          else c2
        (true, if y.state = .full then c3 else c3.fillZone g.nsx z)
      | _, _ => (true, c1)

/-- A group that has been FILLING for PAD_AFTER ticks is due (R159). -/
def Chip.padDue (c : Chip) (g : Group) : Bool :=
  g.phase == .filling && !g.replace && decide (g.since + c.fld Reg.mapRowCfg 16 0 ≤ c.tick)

/-- The FILLING group of a zone. -/
def Chip.zoneFilling (c : Chip) (nsx z : Nat) : Option Group :=
  c.map.groups.find? (fun g => g.nsx == nsx && g.phase == .filling && (match g.zone with | some (y, _) => y == z | none => false))

/-! Close, finish and reset. -/

/-- A status with the controller status that DW0 carries. -/
structure ZRes where
  st : NStat
  dw0 : Nat
  deriving DecidableEq, Repr

/-- Success. -/
def ZRes.ok : ZRes := ⟨stOk, 0⟩

/-- A zone is finished (R295); none while its padding waits for buffers. -/
def Chip.finishZone (c : Chip) (e : Env) (nsx z : Nat) : Option Chip :=
  let y := c.zone nsx z
  if y.state = .full then some c
  else
    let full := fun (c : Chip) => c.updZone nsx z (fun y => { y with state := .full, assigned := y.wp, sealDue := y.evid })
    match c.zoneFilling nsx z with
    | none => some (full c)
    | some g =>
      let (ok, c1) := c.padNow e g.id false
      if ok then some (full c1) else none

/-- A sealed evidence zone whose reset is refused (R297): Full, with no release accepted. -/
def Zone.protected (y : Zone) : Bool := y.evid && y.state == .full && !y.released

/-- A zone is reset (R172): its cord blocks are freed, and the items that were accepted after the reset find it empty. -/
def Chip.resetZone (c : Chip) (e : Env) (nsx z seq : Nat) : Chip :=
  let waits := c.host.items.any (fun x => x.write && x.nsx == nsx && decide (seq ≤ x.id) && (c.itemZone x).1 == z && x.stage != .done)
  (c.freeZone e nsx z).updZone nsx z (fun y => { Zone.fresh with
    assigned := y.assigned
    state := if waits then .impOpen else .empty
    lastWrite := y.lastWrite })

/-- The items that were accepted behind a reset that is refused have no place (log entry 18). -/
def Chip.failBehind (c : Chip) (e : Env) (nsx z seq : Nat) : Chip :=
  let hit := c.host.items.filter (fun x => x.write && x.nsx == nsx && decide (seq ≤ x.id) && (c.itemZone x).1 == z && x.stage == .waiting)
  (hit.foldl (fun c x => (c.releaseItem e x.id).updItem x.id (fun y => { y with stage := .done, status := itInvalid })) c).updZone nsx z
    (fun y => { y with assigned := y.wp })

/-- A zone management operation on one zone: none while it has to wait. -/
def Chip.zoneAct (c : Chip) (e : Env) (o : ZoneOp) (z : Nat) : Option (ZRes × Chip) :=
  let y := c.zone o.nsx z
  match o.op with
  | 1 =>
    if y.state = .full then some (⟨stZoneState, 0⟩, c)
    else
      match c.openZone o.nsx z .expOpen with
      | .ok c1 => some (ZRes.ok, c1.updZone o.nsx z (fun y => { y with state := .expOpen }))
      | .error x => some (⟨nvmeOf x cstLimit, cstLimit⟩, c)
  | 2 =>
    if y.state.isOpen then some (ZRes.ok, c.updZone o.nsx z Zone.closed)
    else if y.state = .closed then some (ZRes.ok, c)
    else some (⟨stZoneState, 0⟩, c)
  | 3 =>
    match c.finishZone e o.nsx z with
    | some c1 => some (ZRes.ok, c1)
    | none => none
  | _ =>
    if y.protected then some (⟨nvmeOf .zoneReset cstSealed, cstSealed⟩, c.failBehind e o.nsx z o.seq)
    else some (ZRes.ok, c.resetZone e o.nsx z o.seq)

/-- All zones of an operation: the first refusal stands; the zones after it go on in a reset with Select All only (R297). -/
def Chip.zoneActs (c : Chip) (e : Env) (o : ZoneOp) : Option (ZRes × Chip) :=
  let one := fun (a : Option (ZRes × Chip)) (z : Nat) =>
    match a with
    | none => none
    | some (r, c) =>
      if r.st != stOk && o.op != 4 then a
      else
        match c.zoneAct e o z with
        | none => none
        | some (r1, c1) => some (if r.st = stOk then r1 else r, c1)
  match o.zones.foldl one (some (ZRes.ok, c)) with
  | some (r, c1) => some (r, if r.st != stOk && o.op == 1 then c else c1)
  | none => none

/-- The operation need not wait: earlier operations on its zones are done, and, but for an open, earlier writes too (R297, R361). -/
def Chip.zoneOpReady (c : Chip) (before : List ZoneOp) (o : ZoneOp) : Bool :=
  !before.any (fun p => p.nsx == o.nsx && p.zones.any o.zones.contains) &&
  (o.op == 1 || !c.host.items.any (fun x => x.write && x.zoned && x.nsx == o.nsx && decide (x.id < o.seq) && x.stage != .done &&
    o.zones.contains (c.itemZone x).1))

/-- One pass over the operations that wait, oldest first. -/
def Chip.zonePass (c : Chip) (e : Env) : Chip :=
  let one := fun (a : List ZoneOp × Chip) (o : ZoneOp) =>
    let (left, c) := a
    if !c.zoneOpReady left o then (left ++ [o], c)
    else
      let gone := { c with host := { c.host with zoneOps := c.host.zoneOps.filter (fun p => p.cmd != o.cmd) } }
      match gone.zoneActs e o with
      | none => (left ++ [o], c)
      | some (r, c1) => (left, c1.complete o.cmd r.st r.dw0 0)
  (c.host.zoneOps.foldl one ([], c)).2

/-- Zones that became Full in hand are sealed (R362). -/
def Chip.sealAll (c : Chip) (e : Env) : Chip :=
  let due := c.host.nss.flatMap (fun p =>
    match p.2 with
    | none => []
    | some n => (n.zones.filter (fun z => z.2.sealDue)).map (fun z => (p.1, z.1)))
  due.foldl (fun c p => c.sealZone e p.1 p.2) c

/-- Items, zone operations and events go on as far as they can: `n` bounds the rounds. -/
def Chip.settleN (c : Chip) (e : Env) : Nat → Chip
  | 0 => (c.settleItems e).aerAll
  | n + 1 => if c.host.zoneOps = [] then (c.settleItems e).aerAll else ((c.settleItems e).zonePass e).settleN e n

/-- The host engine goes on after a command has moved something. -/
def Chip.settle (c : Chip) (e : Env) : Chip := ((c.settleN e (c.host.zoneOps.length + 1)).sealAll e)

/-- A command whose effect may let items, commands and zone operations of the host engine go on. -/
def onItems (f : Chip → Chip) (s : State) : Host.Outcome State Fault Refusal := onHost (fun c => (f c).settle s.env) s

/-- GROUP_PAD (R159): it pads a group that is due. -/
def execGroupPad (grp : Nat) (s : State) : Host.Outcome State Fault Refusal :=
  onItems (fun c =>
    match c.group grp with
    | none => c
    | some g => if c.padDue g then (c.padNow s.env grp true).2 else c) s

end Sys2Proof.Machine
end

