-- ==== Sys2Proof/Machine/Fences.lean ====
section
/-! DEFINITION. Fences of dies, chip enables and channels, the grown table, member replacement and cord retirement
(R45, R57, R117-R122, R161, R167, R168). -/

namespace Sys2Proof.Machine

/-! The grown table. -/

/-- An entry of the grown table (R117), in the DRAM copy from now on (R118). -/
def Chip.addGrown (c : Chip) (die planes cause block : Nat) : Chip :=
  { c with map := { c.map with grown := c.map.grown ++ ([⟨die, planes, cause, block, c.stamp, false⟩] : List Grown) } }.pass

/-- Entries of the DRAM copy enter both flash copies (R118): it happens at each boundary (log entry 21). -/
def Chip.grownToFlash (c : Chip) : Chip :=
  { c with map := { c.map with grown := c.map.grown.map (fun g => { g with inFlash := true }) } }

/-- A channel fault (R120): its bit, the event of the channel, and the detail code. -/
def Chip.chFault (c : Chip) (n bit code : Nat) : Chip :=
  let x := c.chan n
  let c1 := { c with flash := { c.flash with chans := Tab.set (fun _ => Chan.off) c.flash.chans n { x with detail := code } } }
  (c1.orReg (Reg.chFault n) (2 ^ bit)).raise n code 0xFFFF 0 0

/-- Changes a channel engine. -/
def Chip.updChan (c : Chip) (n : Nat) (g : Chan → Chan) : Chip :=
  { c with flash := { c.flash with chans := Tab.set (fun _ => Chan.off) c.flash.chans n (g (c.chan n)) } }

/-! Jobs that lose their die. -/

/-- Removes a job with its calendar entries. -/
def Chip.cancelJob (c : Chip) (id : Nat) : Chip :=
  let drop := fun (c : Chip) (d : Nat) =>
    let x := c.die d
    if x.entries.any (fun y => y.job == id && (y.kind == .read || y.kind == .suspend)) then
      c.setDie d { x with entries := x.entries.filter (fun y => !(y.job == id && (y.kind == .read || y.kind == .suspend))) }
    else c
  ((c.cal.dies.map (·.1)).foldl drop c).dropJob id

/-- The reconstruct of a job ends without a result: its peer reads go, and the job waits to be booked on its own die (R135). -/
def Chip.endRecon (c : Chip) (id : Nat) : Chip :=
  match c.job id with
  | none => c
  | some j => (j.peers.foldl (fun c p => c.cancelJob p) c).updJob id (fun j => { j with
      peers := []
      recon := false
      waiting := true })

/-- A request of CAL_MAINT ends (R504). -/
def Chip.maintEnd (c : Chip) (st : Nat) : Chip :=
  match c.cal.maint with
  | none => c
  | some (job, die, _) =>
    let x := c.die die
    let c1 := c.setDie die { x with entries := x.entries.filter (fun y => y.job != job || (y.owner != .maint && y.owner != .maintErase)) }
    { c1 with cal := { c1.cal with maint := none } }.setFld Reg.calMaintStat 8 0 st

/-- The die loses every operation: reads wait to be booked again by R62, a reconstruct that read it ends, a CAL_MAINT request ends with FENCED (R122). -/
def Chip.loseOps (c : Chip) (die : Nat) : Chip :=
  let d := c.die die
  let hit := c.cal.jobs.filter (fun j => j.die == die && !j.read)
  let again := fun (c : Chip) (j : CalJob) =>
    match j.owner with
    | .peer p => c.endRecon p
    | _ => c.updJob j.id (fun j => { j with waiting := if j.recon then j.waiting else true })
  let c1 := c.setDie die { d with
    phase := .fenced
    till := 0
    op := none
    reading := none
    entries := [] }
  let c2 := { c1 with cal := { c1.cal with starts := c1.cal.starts.filter (fun r => r.die != die) } }
  let c3 := hit.foldl again c2
  match c3.cal.maint with
  | some (_, m, _) => if m = die then c3.maintEnd 0x87 else c3
  | none => c3

/-! Members (R167, R168). -/

/-- The spare that takes a member's place (R167): in its cluster, else in the lowest-keyed cluster that holds no member. -/
def Chip.spareFor (c : Chip) (e : Env) (x : Cord) (die : Nat) : Option Nat :=
  let ok := fun (d : Nat) => e.diePart d == x.part && !c.dieFenced d && !(c.die d).retired
  match c.map.spares.find? (fun d => ok d && dieCluster d == dieCluster die) with
  | some d => some d
  | none =>
    let used := x.members.map dieCluster
    minBy (fun d => clusterKey (dieCluster d) * 4096 + d) (c.map.spares.filter (fun d => ok d && !used.contains (dieCluster d)))

/-- Queues the cord blocks of a cord that hold `die`, or all of them, for relocation (R167, R168, R184). -/
def Chip.relocate (c : Chip) (cord : Nat) (die : Option Nat) : Chip :=
  let hit := c.map.cblks.filter (fun b => b.cord == cord && (match die with | some d => b.members.any (fun m => m.1 == d) | none => true))
  hit.foldl (fun c b => c.queueRefresh prioReloc b.cord b.idx false []) c

/-- A member that failed is replaced, or its cord retires (R167, R168). -/
def Chip.replaceMember (c : Chip) (e : Env) (die : Nat) : Chip :=
  let c0 := { c with map := { c.map with spares := c.map.spares.filter (· != die) } }
  match c0.map.cords.find? (fun x => x.members.contains die) with
  | none => c0
  | some x =>
    match c0.spareFor e x die with
    | some d =>
      let c1 := c0.updCord x.id (fun y => { y with
        members := y.members.map (fun m => if m = die then d else m)
        degraded := true })
      { c1 with map := { c1.map with spares := c1.map.spares.filter (· != d) } }.relocate x.id (some die)
    | none => (c0.updCord x.id (fun y => { y with retired := true })).relocate x.id none

/-- A group loses a program on a die: one of its members there, and the program has not passed (R161). -/
def Chip.groupHit (c : Chip) (g : Group) (die : Nat) : Bool :=
  match c.cblk g.cord g.cblk with
  | none => false
  | some b =>
    match firstIdx (fun (m : Nat × Nat) => m.1 == die) b.members with
    | none => false
    | some m =>
      match slotOf g.rpw (g.rowOf 0) m with
      | none => true
      | some s => g.phase != .parity && !g.passed.contains s

/-- The groups that a fenced die takes a program from, and those of a cord that retires, are placed again (R161, R168). -/
def Chip.replaceHit (c : Chip) (e : Env) (die : Nat) : Chip :=
  let retired := fun (g : Group) => (c.cord g.cord).any (·.retired)
  ((c.map.groups.filter (fun g => c.groupHit g die || retired g)).map (·.id)).foldl (fun c i => c.replaceGroup e i) c

/-- Fences a die: its operations are lost, its member is replaced, and its open groups are placed again. Contracted reads in flight are excused (R74). -/
def Chip.fenceDie (c : Chip) (e : Env) (die : Nat) : Chip :=
  if c.dieFenced die then c
  else (((c.loseOps die).replaceMember e die).replaceHit e die).excuseAll

/-- A die fence of R57, R113 or R119: the grown table takes CAUSE 5, and the event names the die. -/
def Chip.failDie (c : Chip) (e : Env) (die : Nat) : Chip :=
  if c.dieFenced die then c
  else
    let c1 := (c.addGrown die 0 5 0).raise 291 0 0xFFFF die 0
    (c1.setDie die { c1.die die with retired := true }).fenceDie e die

/-- A die whose entries of CAUSE 1-4 reach GROWN_LIMIT is retired (R119). -/
def Chip.retireCheck (c : Chip) (e : Env) (die : Nat) : Chip :=
  let n := (c.map.grown.filter (fun g => g.die == die && decide (1 ≤ g.cause) && decide (g.cause ≤ 4))).length
  if e.nand.grownLimit ≤ n && 0 < e.nand.grownLimit && !c.map.grown.any (fun g => g.die == die && g.cause == 5) then c.failDie e die else c

/-- Fences a chip enable: its dies, and an entry of CAUSE 6 (R120). -/
def Chip.fenceCe (c : Chip) (e : Env) (n ce : Nat) : Chip :=
  let c1 := (c.updChan n (fun x => { x with ceFenced := x.ceFenced ||| 2 ^ ce })).addGrown (n * 32 + ce * 8) 0 6 0
  (((List.range 8).map (fun k => n * 32 + ce * 8 + k)).filter e.dieDeclared).foldl (fun c d => c.fenceDie e d) c1

/-- Fences a channel (R88, R120, R121): all its dies; `grown`: an entry of CAUSE 7. -/
def Chip.fenceChan (c : Chip) (e : Env) (n : Nat) (grown : Bool) : Chip :=
  if (c.chan n).phase = .fenced then c
  else
    let c1 := (c.updChan n (fun x => { x with phase := .fenced })).setBit (Reg.chCtrl n) 1 true
    let c2 := if grown then c1.addGrown (n * 32) 0 7 0 else c1
    ((List.range 32).map (fun k => n * 32 + k)).foldl (fun c d => c.fenceDie e d) c2

/-- Fences a cluster: the complex and its channels are lost to service (R45, R120). -/
def Chip.fenceCluster (c : Chip) (e : Env) (k : Nat) : Chip :=
  ((List.range 4).map (fun i => k * 4 + i)).foldl (fun c n => c.fenceChan e n false) c

end Sys2Proof.Machine
end

