-- ==== Sys2Proof/Machine/Planning.lean ====
section
/-! DEFINITION. Commands of the calendar master, the die calendars, the status polls and the completion collector (R50-R58, R79, R82, R85, R86, R109-R114,
R504). -/

namespace Sys2Proof.Machine

/-! Timed changes of a die (R56). -/

/-- A die in a given state whose time is over goes on: what follows it, the completion record of what ended, and the entry that is due. -/
def Chip.dieStep (c : Chip) (die : Nat) (on : DiePhase → Bool) (done : Die → List CplRec) : Chip :=
  let d := c.die die
  if on d.phase && decide (d.till ≤ c.tick) then
    ((done d).foldl (fun c r => c.enqueueCpl r) (c.setDie die (d.timed c.fig c.tick))).pass.issueDue die
  else c

/-- Marks the page of a read as read, its data in its buffer; a step that still owes a read waits for it (R133). -/
def Chip.pageRead (c : Chip) (die : Nat) : Chip :=
  match (c.die die).reading with
  | none => c
  | some x =>
    let more := (c.die die).entries.any (fun y => y.job == x.job && y.kind == .read)
    c.updJob x.job (fun j =>
      if j.extraReads ≤ 1 then { j with read := true, extraReads := 0 } else { j with extraReads := j.extraReads - 1, waiting := !more })

/-- An array read ends (R56): the page is there, and the read's completion record is placed (R81). The transfer of a contracted or peer read has used
a reserved window of its channel (R96). -/
def Chip.arrayReadEnd (c : Chip) (die : Nat) : Chip :=
  let on := fun (p : DiePhase) => p == .reading || p == .suspReading
  let d := c.die die
  if on d.phase && decide (d.till ≤ c.tick) then
    let used := d.reading.any (fun x => x.kind == .read && (x.peer || decide (x.cls ≤ 4)))
    let c1 := if used then c.bump (Reg.chXfer (die / 32)) 31 16 1 else c
    (c1.pageRead die).dieStep die on (fun d => d.reading.toList.map (fun x => (⟨die, x.kind, cstOk, x.job, c.stamp, false⟩ : CplRec)))
  else c

/-- ARRAY_READ_END (R56). -/
def execArrayReadEnd (die : Nat) (s : State) : Host.Outcome State Fault Refusal := onChip (fun c => c.arrayReadEnd die) s

/-- SUSPEND_DONE (R56): the suspend's completion record is placed (R81). -/
def execSuspendDone (die : Nat) (s : State) : Host.Outcome State Fault Refusal :=
  onChip (fun c => c.dieStep die (fun p => p == .suspending) (fun d => d.op.toList.map (fun o => (⟨die, .suspend, cstOk, o.job, c.stamp, false⟩ : CplRec)))) s

/-- RESUME_DONE (R56). -/
def execResumeDone (die : Nat) (s : State) : Host.Outcome State Fault Refusal :=
  onChip (fun c => c.dieStep die (fun p => p == .resuming) (fun d => d.op.toList.map (fun o => (⟨die, .resume, cstOk, o.job, c.stamp, false⟩ : CplRec)))) s

/-- LOCK_END (R56). -/
def execLockEnd (die : Nat) (s : State) : Host.Outcome State Fault Refusal := onChip (fun c => c.dieStep die (fun p => p == .runLock) (fun _ => [])) s

/-! Status polls (R110-R114). -/

/-- Ready and array idle: the operation has ended (R111). -/
def statusEnded (st : Byte) : Bool := st.getLsbD 6 && st.getLsbD 5

/-- The operation that ended failed: FAIL, or for a program FAILC (R111). -/
def statusFailed (program : Bool) (st : Byte) : Bool := st.getLsbD 0 || (program && st.getLsbD 1)

/-- A program or erase has ended: its completion record, and the channel's failure counts (R111, R118). A die whose suspend came too late keeps running
state, with the suspend uncounted (R58, R114). -/
def Chip.opEnd (c : Chip) (die : Nat) (o : RunningOp) (st : Byte) : Chip :=
  let n := die / 32
  let d := c.die die
  let late := d.phase == .suspending
  let prog := o.kind == .program
  let bad := statusFailed prog st
  let code := if !bad then cstOk else if prog then 0x80 else 0x81
  let c1 := c.setDie die { d with
    phase := if late then .runOpen else d.phase
    op := some { o with
      ended := true
      suspN := if late then o.suspN - 1 else o.suspN } }
  let c2 := c1.enqueueCpl ⟨die, o.kind, code, o.job, c.stamp, false⟩
  let c3 := if late then c2.enqueueCpl ⟨die, .suspend, cstOk, o.job, c.stamp, true⟩ else c2
  if bad then (if prog then c3.bump (Reg.chFailCnt n) 15 0 1 else c3.bump (Reg.chFailCnt n) 31 16 1).updChan n (fun x => { x with detail := code })
  else c3

/-- A job whose page waits for its data-out on a die. -/
def Chip.dataOut (c : Chip) (die : Nat) : Option CalJob :=
  c.cal.jobs.find? (fun j => j.die == die && j.read && j.sects.any (fun s => s.done.isNone && s.step == 0 && s.corrected == 0))

/-- The data-out of a read is refused because the LUN is not ready (R112, R113): the read is booked again; the third time in 4,096 ticks fails the die. -/
def Chip.notReady (c : Chip) (e : Env) (die : Nat) (j : CalJob) : Chip :=
  let n := die / 32
  let d := c.die die
  let recent := (d.notReady.filter (fun t => decide (c.tick < t + 4096))) ++ [c.tick]
  let q := (Tab.get (fun _ => []) c.cal.queues n).filter (fun r => !(r.job == j.id && r.die == die && r.kind == .read))
  let c1 := { c with cal := { c.cal with queues := Tab.set (fun _ => []) c.cal.queues n q } }
  let c2 := (c1.setDie die { d with notReady := recent }).enqueueCpl ⟨die, .read, 0x82, j.id, c.stamp, false⟩
  let c3 := (c2.updJob j.id (fun j => { j with
    read := false
    waiting := true })).chFault n 4 0x82
  if 3 ≤ recent.length then c3.failDie e die else c3

/-- A poll is due on a die (R110): it runs an operation whose next poll tick has come, its suspend is at its end, or a data-out waits (R112). -/
def Chip.pollDue (c : Chip) (die : Nat) : Bool :=
  let d := c.die die
  (c.chan (die / 32)).phase == .running &&
  (match d.phase with
   | .fenced => false
   | .runOpen => d.op.isSome && !d.opEnded && decide (d.nextPoll ≤ c.tick)
   | .runLock => d.op.isSome && !d.opEnded && decide (d.nextPoll ≤ c.tick)
   | .runSpent => d.op.isSome && !d.opEnded && decide (d.nextPoll ≤ c.tick)
   | .suspending => d.op.isSome && !d.opEnded && decide (d.till ≤ c.tick + 1)
   | .idle => (c.dataOut die).isSome
   | .suspended => (c.dataOut die).isSome
   | _ => false)

/-- The tick of the next poll (R110). -/
def Chip.pollNext (c : Chip) (die : Nat) (o : RunningOp) : Nat :=
  let lead := c.fld (Reg.chPoll (die / 32)) 7 4
  let iv := c.fld (Reg.chPoll (die / 32)) 3 0
  if o.ends ≤ c.tick + 1 + lead then c.tick + 1 else Nat.min (c.tick + iv) (o.ends - lead)

/-- A status byte is read (R110-R114, R120). -/
def Chip.poll (c : Chip) (e : Env) (die : Nat) (st : Byte) : Chip :=
  if !c.pollDue die then c
  else
    let n := die / 32
    let c1 := (c.setReg (Reg.chLastStat n) (die % 32 * 256 + st.toNat)).pass
    if !st.getLsbD 7 then (c1.chFault n 6 0x86).fenceChan e n true
    else
      let d := c1.die die
      match d.phase, d.op with
      | .idle, _ =>
        if st.getLsbD 6 then c1 else match c1.dataOut die with | some j => c1.notReady e die j | none => c1
      | .suspended, _ =>
        if st.getLsbD 6 then c1 else match c1.dataOut die with | some j => c1.notReady e die j | none => c1
      | _, none => c1
      | _, some o =>
        if statusEnded st then (c1.opEnd die o st).issueDue die
        else c1.setDie die { d with nextPoll := c1.pollNext die o }

/-- STATUS_POLL (R110): a poll that is not due does not happen. -/
def execStatusPoll (die : Nat) (status : Byte) (s : State) : Host.Outcome State Fault Refusal := onItems (fun c => c.poll s.env die status) s

/-! The collector (R81-R83). -/

/-- The channels in the order of a search that starts after the last one served. -/
def Chip.grantOrder (c : Chip) (e : Env) : List Nat :=
  let n := 32 * e.part.regions
  (List.range 128).map (fun i => (c.cal.ptr + 1 + i) % 128) |>.filter (fun k => decide (k < n))

/-- One grant (R82): the oldest record of the first channel that holds one. -/
def Chip.collGrant (c : Chip) (e : Env) : Chip :=
  if c.cal.collRestarting then c
  else
    match (c.grantOrder e).find? (fun k => Tab.get (fun _ => []) c.cal.queues k != []) with
    | none => c
    | some k =>
      match Tab.get (fun _ => []) c.cal.queues k with
      | [] => c
      | r :: t =>
        { c with cal := { c.cal with
          queues := Tab.set (fun _ => []) c.cal.queues k t
          delivered := c.cal.delivered ++ [r]
          ptr := k } }

/-- COLLECTOR_GRANT (R82). -/
def execCollectorGrant (s : State) : Host.Outcome State Fault Refusal := onChip (fun c => c.collGrant s.env) s

/-! Completions (R57, R118, R119, R157-R161). -/

/-- The die's operation is over. -/
def Chip.opOver (c : Chip) (die : Nat) : Chip :=
  let d := c.die die
  c.setDie die { d with
    op := none
    phase := match d.phase with
      | .runOpen => .idle
      | .runLock => .idle
      | .runSpent => .idle
      | p => p }

/-- The block of a member's die in a group's cord block. -/
def Chip.groupBlock (c : Chip) (id die : Nat) : Nat :=
  match c.group id with
  | none => 0
  | some g =>
    match c.cblk g.cord g.cblk with
    | none => 0
    | some b => ((b.members.find? (fun (m : Nat × Nat) => m.1 == die)).map (·.2)).getD 0

/-- A block was erased (R152): it counts one more erase and can be used again. -/
def Chip.blockErased (c : Chip) (die b : Nat) : Chip :=
  let x := c.blk die b
  c.setBlk die b { x with
    erased := true
    erases := x.erases + 1
    inUse := false }

/-- An operation on whose behalf a record was delivered ends. -/
def Chip.opResult (c : Chip) (e : Env) (r : CplRec) (o : RunningOp) : Chip :=
  let c1 := c.opOver r.die
  match o.owner with
  | .program g slot =>
    if r.code = cstOk then c1.dataPassed g slot
    else ((c1.addGrown r.die o.planes 1 (c1.groupBlock g r.die)).retireCheck e r.die).replaceGroup e g
  | .parity g =>
    if r.code = cstOk then c1.parityPassed e g
    else ((c1.addGrown r.die o.planes 1 (c1.groupBlock g r.die)).retireCheck e r.die).replaceGroup e g
  | .erase die b =>
    if r.code = cstOk then c1.blockErased die b
    else
      let x := c1.blk die b
      ((c1.setBlk die b { x with inUse := false }).addGrown die o.planes 2 b).retireCheck e die
  | .maintErase => c1.maintEnd r.code
  | _ => c1

/-- The calendar master takes the oldest delivered record (R57, R59). -/
def Chip.collect (c : Chip) (e : Env) : Chip :=
  match c.cal.delivered with
  | [] => c
  | r :: t =>
    let c1 := { c with cal := { c.cal with delivered := t } }
    match r.kind with
    | .program | .erase =>
      match (c1.die r.die).op with
      | some o => if o.job = r.job && o.ended then (c1.opResult e r o).issueDue r.die else c1
      | none => c1
    | .read | .maint =>
      match c1.cal.maint with
      | some (j, d, _) => if j = r.job && d = r.die then c1.maintEnd r.code else c1
      | none => c1
    | _ => c1

/-- COMPLETION_COLLECTED (R57). -/
def execCompletionCollected (s : State) : Host.Outcome State Fault Refusal := onItems (fun c => c.collect s.env) s

/-- No record of the die's operation has been placed or delivered. -/
def Chip.noRecord (c : Chip) (die job : Nat) : Bool :=
  let mine := fun (r : CplRec) => r.die == die && r.job == job && (r.kind == .program || r.kind == .erase)
  !(Tab.get (fun _ => []) c.cal.queues (die / 32)).any mine && !c.cal.delivered.any mine

/-- DIE_TIMEOUT (R57): two ticks after its booked end an operation without a completion fails its die. -/
def execDieTimeout (die : Nat) (s : State) : Host.Outcome State Fault Refusal :=
  onItems (fun c =>
    let d := c.die die
    match d.op with
    | none => c
    | some o =>
      if (d.phase == .runOpen || d.phase == .runLock || d.phase == .runSpent) && decide (o.ends + 2 ≤ c.tick) && c.noRecord die o.job then
        (c.orReg (Reg.chFault (die / 32)) (2 ^ 5)).raise (die / 32) cstTimeout 0xFFFF 0 0 |>.failDie s.env die
      else c) s

/-! The plan's deadline, and shedding (R49, R50, R79). -/

/-- The third or a later hold tick of a run starts the 16 ticks of shedding (R79). -/
def Chip.shedStart (c : Chip) : Chip :=
  if c.cal.hold && decide (3 ≤ c.cal.holdRun) then
    { c with cal := { c.cal with
      shedding := true
      shedTill := c.tick + 17 } }
  else c

/-- SHED_START (R79). -/
def execShedStart (s : State) : Host.Outcome State Fault Refusal := onChip (fun c => c.shedStart) s

/-- SHED_END (R79): 16 ticks after the last hold tick of the last such run. -/
def execShedEnd (s : State) : Host.Outcome State Fault Refusal :=
  onChip (fun c => if c.cal.shedding && decide (c.cal.shedTill ≤ c.tick) then { c with cal := { c.cal with shedding := false } } else c) s

/-! Admission (R72, R86). -/

/-- CAL_ADMIT_REQ written with GO: the word, then the operation. -/
def Chip.admitReq (c : Chip) (e : Env) (op nsid q : Nat) (nowait : Bool) (modes cls : Nat) : Chip :=
  let w := nsid % 1024 * 2 ^ 16 + op * 2 ^ 12 + q % 16 * 2 ^ 8 + b2n nowait * 2 ^ 7 + modes % 8 * 2 ^ 4 + cls % 8
  ((c.setReg Reg.calAdmitReq w).admissionOp e op ⟨nsid % 1024, cls % 8, q % 16, nowait, modes % 8⟩).2

/-- CAL_ADMIT_TEST (R86). -/
def execCalAdmitTest (nsid q : Nat) (nowait : Bool) (modes cls : Nat) (s : State) : Host.Outcome State Fault Refusal :=
  onChip (fun c => c.admitReq s.env 0 nsid q nowait modes cls) s

/-- CAL_ADMIT_BIND (R72). -/
def execCalAdmitBind (nsid q : Nat) (nowait : Bool) (modes cls : Nat) (s : State) : Host.Outcome State Fault Refusal :=
  onChip (fun c => c.admitReq s.env 1 nsid q nowait modes cls) s

/-- CAL_ADMIT_RELEASE (R86). -/
def execCalAdmitRelease (nsid : Nat) (s : State) : Host.Outcome State Fault Refusal := onChip (fun c => c.admitReq s.env 2 nsid 0 false 0 0) s

/-! Standing rules with checks at the write (R85, R109). -/

/-- A write of CAL_FLOOR (R85): REFUSED is write-one-to-clear, and a PT that fails the test is ignored. -/
def Chip.writeFloor (c : Chip) (v : Nat) : Chip :=
  let c1 := if bitOf v 8 then c.setBit Reg.calFloor 8 false else c
  let pt := bitsOf v 1 0
  if c1.floorOk c1.fig pt then c1.setStg Reg.calFloor (putBits (c1.stgReg Reg.calFloor) 1 0 pt) else c1.setBit Reg.calFloor 8 true

/-- CAL_FLOOR_WRITE (R85). -/
def execCalFloorWrite (acc : Access) (v : Word) (s : State) : Host.Outcome State Fault Refusal :=
  onChip (fun c => if 8 ≤ acc.who then c else c.writeFloor v.toNat) s

/-- A write of CAL_NRG_BUDGET (R109): the floor is that of the staging copies. -/
def Chip.writeBudget (c : Chip) (v : Nat) : Chip :=
  let c1 := if bitOf v 31 then c.setBit Reg.calNrgBudget 31 false else c
  if budgetFloor c1.stgFig c1.stgNrg ≤ bitsOf v 23 0 then c1.setStg Reg.calNrgBudget (putBits (c1.stgReg Reg.calNrgBudget) 23 0 (bitsOf v 23 0))
  else c1.setBit Reg.calNrgBudget 31 true

/-- CAL_NRG_BUDGET_WRITE (R109). -/
def execCalNrgBudgetWrite (acc : Access) (v : Word) (s : State) : Host.Outcome State Fault Refusal :=
  onChip (fun c => if 8 ≤ acc.who then c else c.writeBudget v.toNat) s

/-! Requests through CAL_MAINT (R504). -/

/-- The figures of the modes in use: largest TR with the largest energy of a read, or the mode with the largest TBERS. -/
def Chip.maintFigures (c : Chip) : Nat × Nat × Nat :=
  let ms := inUseModes c.fig
  (maxNat (ms.map (fun m => (c.fig m).tr)), maxNat (ms.map (fun m => (c.nrg m 0).1)), maxNat (ms.map (fun m => (c.nrg m 0).2)))

/-- The mode in use that erases longest. -/
def Chip.maintMode (c : Chip) : Nat := (minBy (fun m => 4096 - (c.fig m).tbers) (inUseModes c.fig)).getD 0

/-- The first tick from `t` on in which the request can issue: `n` bounds the search. -/
def Chip.maintSlot (c : Chip) (die dur iss run cws : Nat) (erase : Bool) : Nat → Nat → Die → Option Nat
  | 0, _, _ => none
  | n + 1, t, d =>
    let d1 := ((d.timed c.fig t).timed c.fig t).expectEnd t
    let free := if erase then d1.phase == .idle && d1.op.isNone && !d1.entries.any (fun x => decide (t ≤ x.tick))
      else d1.readable && d1.freeFor t dur && c.transferFits die (t + dur) false cws
    if free && c.energyOk t dur iss run then some t
    else c.maintSlot die dur iss run cws erase n (t + 1) (d.expect1 c.fig t)

/-- A request is checked in the order of R39 and booked (R52, R77, R504). -/
def Chip.maintGo (c : Chip) (e : Env) (die kind planes ahead : Nat) (exact : Bool) (buf : Nat) : Chip :=
  if c.bit Reg.calMaintStat 8 then c
  else
    let c0 := ((c.setReg Reg.calMaintCtrl (b2n exact * 2 ^ 22 + planes % 64 * 2 ^ 16 + kind % 16 * 2 ^ 12 + die % 4096)).setReg Reg.calMaintTick
      (ahead % 4096)).setReg Reg.calMaintBuf buf
    let stop := fun (st : Nat) => c0.setReg Reg.calMaintStat st
    let st := firstFail [(!e.chanPresent (die / 32), cstAbsent),
      (decide (ahead < 2) || !(kind == 1 || kind == 3 || kind == 6), cstBad), (planes % 64 == 0, cstZero)]
    if st ≠ cstOk then stop st
    else if c.dieFenced die then stop 0x87
    else
      let t0 := c.tick + ahead
      let (tr, ei, er) := c.maintFigures
      let m := c.maintMode
      let dur := if kind = 3 then (c.fig m).tbers else tr
      let (iss, run) := if kind = 3 then (maxNat ((inUseModes c.fig).map (fun m => (c.nrg m 2).1)), maxNat ((inUseModes c.fig).map (fun m => (c.nrg m 2).2)))
        else (ei, er)
      if (exact && decide (t0 < c.reach)) || !(c.die die).hasEntry false then stop cstBusy
      else
        let t := Nat.max t0 c.reach
        match c.maintSlot die dur iss run (if kind = 1 then 4 else 0) (kind == 3) (if exact then 1 else c.tick + horizon - t) t
            (c.dieAt die t) with
        | none => stop cstBusy
        | some s =>
          let x : CalEntry := ⟨s, if kind = 1 then .read else if kind = 3 then .erase else .maint, 7, false, false, 0, 0, dur, 0, buf, c.cal.nextJob,
            if kind = 3 then .maintErase else .maint, planes % 64, if kind = 3 then m else 0, if kind = 3 then none else some (tr, ei, er)⟩
          let c1 := ((c0.setDie die ((c0.die die).addEntry x)).bookEnergy s dur iss run).setReg Reg.calMaintStat 256
          { c1 with cal := { c1.cal with
            nextJob := (c.cal.nextJob + 1) % 2 ^ 24
            maint := some (c.cal.nextJob, die, exact) } }

/-- CAL_MAINT_READ (R504). -/
def execCalMaintRead (die planes ahead : Nat) (exact : Bool) (buf : Word) (s : State) : Host.Outcome State Fault Refusal :=
  onChip (fun c => c.maintGo s.env die 1 planes ahead exact buf.toNat) s

/-- CAL_MAINT_ERASE (R504): BUF is ignored. -/
def execCalMaintErase (die planes ahead : Nat) (exact : Bool) (s : State) : Host.Outcome State Fault Refusal :=
  onChip (fun c => c.maintGo s.env die 3 planes ahead exact (c.reg Reg.calMaintBuf)) s

/-- CAL_MAINT_MAINTENANCE (R504). -/
def execCalMaintMaintenance (die planes ahead : Nat) (exact : Bool) (buf : Word) (s : State) : Host.Outcome State Fault Refusal :=
  onChip (fun c => c.maintGo s.env die 6 planes ahead exact buf.toNat) s

/-! The debug view of a calendar (R54). -/

/-- Owner kinds' code of an entry. -/
def OpKind.code : OpKind → Nat
  | .read => 1 | .program => 2 | .erase => 3 | .suspend => 4 | .resume => 5 | .maint => 6

/-- The four words of an entry (R54). -/
def CalEntry.words (x : CalEntry) (die : Nat) : List Nat :=
  [x.tick % 4096 + x.kind.code * 2 ^ 12 + x.cls % 8 * 2 ^ 16 + b2n x.nowait * 2 ^ 19 + b2n x.peer * 2 ^ 20 + x.suspN % 8 * 2 ^ 21 + x.fn % 256 * 2 ^ 24,
    die + satTo 4095 x.dur * 2 ^ 12 + satTo 255 x.dl * 2 ^ 24, x.buf % 2 ^ 32, x.job % 2 ^ 24 + x.planes % 64 * 2 ^ 24]

/-- Entry `i` of a die: 0-15 are those of the reserved half in order of tick, 16-31 the others (R52). -/
def Die.entryAt (d : Die) (i : Nat) : Option CalEntry :=
  if i < 16 then (d.entries.filter CalEntry.reserved)[i]? else (d.entries.filter (fun x => !x.reserved))[i - 16]?

/-- A write of CAL_DBG_SEL captures the entry in one cycle (R54). -/
def Chip.dbgSel (c : Chip) (v : Nat) : Chip :=
  let ws := match (c.die (bitsOf v 11 0)).entryAt (bitsOf v 16 12) with
    | some x => x.words (bitsOf v 11 0)
    | none => []
  (List.range 4).foldl (fun c i => c.setReg (Reg.calDbgE i) (ws.getD i 0)) (c.setReg Reg.calDbgSel (v % 2 ^ 17))

/-- CAL_DBG_SEL_WRITE (R54). -/
def execCalDbgSelWrite (acc : Access) (v : Word) (s : State) : Host.Outcome State Fault Refusal :=
  onChip (fun c => if 8 ≤ acc.who then c else c.dbgSel v.toNat) s

end Sys2Proof.Machine
end

