-- ==== Sys2Proof/Machine/Reads.lean ====
section
/-! DEFINITION. Reads: their acceptance, resolution and page reads, the decode ladder, reconstruct, the decoder complexes' statistics and rewrite queues
(R61-R65, R70, R71, R97, R128, R132-R148, R160-R166, R175). -/

namespace Sys2Proof.Machine

/-! Runs of sectors (R97, R192). -/

/-- What has to be the same for all sectors of one read item: the packed extent that holds them. -/
def Chip.packAt (c : Chip) (nsx lba : Nat) (n : Ns) : Option (Nat × Nat × Nat × Nat × Nat) :=
  if n.zoned then none else c.packedOf nsx lba

/-- The flash page of a sector, as the place of its first sector. -/
def Chip.pageOf (c : Chip) (e : Env) (nsx lba : Nat) (n : Ns) : Option Loc :=
  match c.sectorSrc e nsx lba n with
  | .flash l => some { l with sect := 0 }
  | _ => none

/-- Sectors that the first run of `k` sectors from `lba` takes: one packed extent or none, and for a contracted read at most two sectors of one page. -/
def Chip.firstRun (c : Chip) (e : Env) (nsx lba k : Nat) (n : Ns) (contracted : Bool) : Nat :=
  let p0 := c.packAt nsx lba n
  let same := (List.range k).takeWhile (fun i => c.packAt nsx (lba + i) n == p0)
  let m := Nat.max 1 same.length
  if contracted && p0.isNone then
    let q0 := c.pageOf e nsx lba n
    Nat.max 1 (((List.range m).takeWhile (fun i => decide (i < 2) && c.pageOf e nsx (lba + i) n == q0)).length)
  else m

/-- A read item keeps its first run; the rest becomes an item of its own, behind all others. -/
def Chip.splitRead (c : Chip) (x : Item) (k : Nat) : Chip :=
  if x.nsect ≤ k then c
  else
    let id := c.host.nextItem
    let y := { x with
      id := id
      ltag := x.ltag + k
      nsect := x.nsect - k }
    let c1 := c.updItem x.id (fun x => { x with nsect := k })
    { c1 with host := { c1.host with
      items := c1.host.items ++ [y]
      cmds := updateWhere (fun p => p.items.contains x.id) (fun p => { p with items := p.items ++ [id] }) c1.host.cmds
      nextItem := id + 1 } }

/-! Acceptance. -/

/-- Contracted items of a namespace that are accepted and not done (R71). -/
def Chip.depthUsed (c : Chip) (nsx : Nat) : Nat :=
  (c.host.items.filter (fun x => x.nsx == nsx && x.contracted && !x.write && x.stage != .waiting && x.stage != .done)).length

/-- The sources of an item's sectors, or of the stored sectors of its packed extent. -/
def Chip.itemSrcs (c : Chip) (e : Env) (x : Item) (n : Ns) (pack : Option (Nat × Nat × Nat × Nat × Nat)) : List Src :=
  match pack with
  | some (_, _, w, stored, _) => (List.range stored).map (fun k => c.packedSrc e w k)
  | none => (List.range x.nsect).map (fun i => c.sectorSrc e x.nsx (x.ltag + i) n)

/-- The sector that a source holds, as the read finds it. -/
def Chip.srcData (c : Chip) (s : Src) : Sector :=
  match s with
  | .landed y => y.data
  | .flash l => (c.flashAt l).data
  | _ => []

/-- The source reads as zeros whatever the chain: no data, or a pad sector (R159, R295). -/
def Chip.srcPad (c : Chip) (s : Src) : Bool :=
  match s with
  | .zeros => true
  | .landed y => bitOf y.flags 0
  | .flash l => bitOf (c.flashAt l).flags 0
  | _ => false

/-- The pages of flash that an item's places lie on, in order of first use. -/
def pagesOf (ls : List (Option Loc)) : List Loc :=
  (ls.filterMap id).foldl (fun acc l => if acc.contains { l with sect := 0 } then acc else acc ++ [{ l with sect := 0 }]) []

/-- Creates and books the page read of an item. -/
def Chip.readPage (c : Chip) (id : Nat) (deadline : Nat) (cls : Nat) (p : Loc) : Chip :=
  match c.item id, c.cblk p.cord p.cblk with
  | some x, some b =>
    let m := memberOf (rpwOf b.mode) p.row p.slot
    let sects := (x.places.filterMap (fun (l : Option Loc) => l)).filter (fun l => { l with sect := 0 } == p)
    let js := (sects.map (·.sect)).foldl (fun l s => insertNat s l) []
    let j : CalJob := ⟨0, .item id, (b.members.getD m (0, 0)).1, p.cord, p.cblk, p.row, m, p.plane, b.mode, cls, x.contracted, x.nowait, x.cmd.fn, c.tick,
      deadline, js.map (fun s => ⟨s, 0, false, none, 0, 0⟩), false, true, [], false, 0, x.buffers.headD 0⟩
    let (jid, c1) := c.newJob j
    match c1.bookJob jid with
    | (.busy u, _) => c.updItem id (fun x => { x with
        status := itBusy
        hint := Nat.max x.hint u })
    | (_, c2) => c2.updItem id (fun x => { x with
        jobs := x.jobs ++ [jid]
        cluster := if x.jobs = [] then dieCluster j.die else x.cluster })
  | _, _ => c

/-- A read item is resolved, and its page reads are booked (R61-R65). Sectors in the landing and sectors without data need none. -/
def Chip.resolveRead (c : Chip) (e : Env) (id : Nat) (n : Ns) : Chip :=
  match c.item id with
  | none => c
  | some x =>
    let pack := c.packAt x.nsx x.ltag n
    let srcs := c.itemSrcs e x n pack
    let bad := (srcs.zipIdx.filter (fun p => p.1 == .unreadable)).map (fun p => (p.2, 3, 0x80))
    let places := srcs.map (fun s => match s with | .flash l => some l | _ => none)
    let live := x.contracted && (c.contract x.nsx).isSome
    let cls := match c.contract x.nsx with | some k => if live then k.cls else 7 | none => 7
    let deadline := c.tick + classTicks cls
    let c1 := c.updItem id (fun x => { x with
      stage := .flash
      accept := c.tick
      contracted := live
      deadline := deadline
      pack := pack.map (fun p => (p.1, p.2.1))
      chain := match pack with | some p => p.2.2.2.2 | none => if srcs.all (· == .zeros) then 0 else if n.zoned then ((n.zone (c.itemZone x).1).chain).getD 0 else c.schain x.nsx x.ph
      evid := n.zoned && (n.zone (c.itemZone x).1).evid
      tags := if n.zoned then (n.zone (c.itemZone x).1).tags else []
      data := srcs.map c.srcData
      pads := if pack.isSome then [] else (srcs.zipIdx.filter (fun p => c.srcPad p.1)).map (·.2)
      places := places
      fails := bad })
    let c2 := (pagesOf places).foldl (fun c p => c.readPage id deadline cls p) c1
    match c2.item id with
    | none => c2
    | some y =>
      if y.status = itBusy then (y.jobs.foldl (fun c j => c.cancelJob j) c2).updItem id (fun x => { x with jobs := [] })
      else if y.jobs = [] then c2.readDone e id
      else c2

/-- Sectors that an item needs READ buffers for (R381): none where nothing is transferred from a die. -/
def Chip.readSize (c : Chip) (e : Env) (x : Item) (n : Ns) : Nat :=
  let pack := c.packAt x.nsx x.ltag n
  if !(c.itemSrcs e x n pack).any (fun s => match s with | .flash _ => true | _ => false) then 0
  else match pack with
    | some p => Nat.max p.2.1 p.2.2.2.1
    | none => x.nsect

/-- The calendar master takes a read item from the host engine, or leaves it there: depth q, a map fetch, a first write, a translation or the rebuild of a
lost page (R71, R162, R175, R219, R337). -/
def Chip.acceptRead (c : Chip) (e : Env) (id : Nat) : Chip :=
  match c.item id with
  | none => c
  | some x0 =>
    match c.ns x0.nsx with
    | none => c
    | some n =>
      if x0.write || x0.stage != .waiting || c.ftuWaits x0.cmd || c.cal.restarting || c.restartRuns .map || !c.bit Reg.calCtrl 0 ||
          (!n.zoned && !c.bit Reg.mapCtrl 0) || c.noNewWork then c
      else if n.zoned && (n.zone (c.itemZone x0).1).firstBusy then c
      else
        let page := pageKey x0.nsx x0.ltag
        let queued := c.map.missq.any (fun q => q.1 == id)
        if !n.zoned && !c.resident page then
          if queued then c
          else if 4096 ≤ c.map.missq.length then c.endItem e id 0x81 3 0
          else
            let c1 := (c.startFetch page).2
            { c1 with map := { c1.map with missq := c1.map.missq ++ [(id, page)] } }
        else if x0.contracted && (c.contract x0.nsx).any (fun k => decide (k.q ≤ c.depthUsed x0.nsx)) then c
        else
          let c0 := { c with map := { c.map with missq := c.map.missq.filter (fun q => q.1 != id) } }
          let k := c0.firstRun e x0.nsx x0.ltag x0.nsect n (x0.contracted && (c0.contract x0.nsx).isSome)
          let c1 := c0.splitRead x0 k
          let x := { x0 with nsect := k }
          if (c1.itemSrcs e x n (c1.packAt x.nsx x.ltag n)).contains .rebuild then c
          else
            let take := fun (a : Nat × List Nat × Chip) (_ : Nat) =>
              if a.1 ≠ cstOk then a
              else
                let (st, h, c2) := a.2.2.alloc e 1 x.cmd.fn 0 false (x.contracted && (c1.contract x.nsx).isSome) false
                (st, if st = cstOk then a.2.1 ++ [h] else a.2.1, if st = cstOk then c2 else a.2.2)
            let (st, hs, c2) := (List.range (ceilDiv (c1.readSize e x n) 4)).foldl take (cstOk, [], c1)
            let c3 := c2.updItem id (fun x => { x with buffers := hs })
            if st ≠ cstOk then c3.endItem e id st 0 0 else c3.resolveRead e id n

/-- READ_ACCEPT (R70). -/
def execReadAccept (item : Nat) (s : State) : Host.Outcome State Fault Refusal := onItems (fun c => c.acceptRead s.env item) s

/-- DIE_BUSY_POST (R65): in the tick after the acceptance; the hint counts from the posting tick. -/
def execDieBusyPost (item : Nat) (s : State) : Host.Outcome State Fault Refusal :=
  onItems (fun c =>
    match c.item item with
    | none => c
    | some x =>
      if x.stage = .flash && x.status = itBusy && decide (x.accept + 1 ≤ c.tick) then
        (c.updItem item (fun x => { x with hint := x.hint - c.tick })).endItem s.env item itBusy 0 0
      else c) s

/-! Statistics and the rewrite queue (R142-R145). -/

/-- A decoder complex. -/
def Chip.dec (c : Chip) (k : Nat) : Dec := Tab.get (fun _ => Dec.fresh) c.flash.decs k

/-- Puts a decoder complex. -/
def Chip.setDec (c : Chip) (k : Nat) (x : Dec) : Chip := { c with flash := { c.flash with decs := Tab.set (fun _ => Dec.fresh) c.flash.decs k x } }

/-- A rewrite request (R143-R145). -/
def Chip.rewrite (c : Chip) (k : Nat) (r : Rewrite) : Chip :=
  let x := c.dec k
  if x.queue.any (fun q => q.die == r.die && q.block == r.block) then
    let up := fun (q : Rewrite) => { q with
      reason := Nat.max q.reason r.reason
      step := Nat.max q.step r.step
      maxCorr := Nat.max q.maxCorr r.maxCorr }
    c.setDec k { x with queue := updateWhere (fun q => q.die == r.die && q.block == r.block) up x.queue }
  else if 64 ≤ x.queue.length then (c.bump (Reg.decRwqStat k) 31 16 1).raise (160 + k) 0 0xFFFF 0 0
  else c.setDec k { x with queue := x.queue ++ [r] }

/-- The block of a job's page. -/
def Chip.jobBlock (c : Chip) (j : CalJob) : Nat :=
  match c.cblk j.cord j.cblk with
  | none => 0
  | some b => (b.members.getD j.member (0, 0)).2

/-- The end of a codeword's ladder on its own die is counted (R142). `idx`: the counter. -/
def Chip.countCodeword (c : Chip) (k idx step bits : Nat) : Chip :=
  ((c.bump (Reg.decCnt k idx) 31 0 1).raiseTo (Reg.decMaxcorr k) 15 0 bits).tallyDecode k step bits

/-- A rewrite request of a job's block. -/
def Chip.rewriteJob (c : Chip) (j : CalJob) (reason step bits : Nat) : Chip :=
  c.rewrite (dieCluster j.die) ⟨j.die, c.jobBlock j, j.plane, reason, step, bits⟩

/-! The ends of a sector and of a page read. -/

/-- A page read on behalf of an item, a map fetch or a reconstruct has ended. -/
def Chip.jobDone (c : Chip) (e : Env) (j : CalJob) : Chip :=
  let c1 := c.dropJob j.id
  match j.owner with
  | .item id =>
    let bad := j.sects.filterMap (fun s => match s.done with | some code => if code = cstOk then none else some (s.sect, code) | none => none)
    let slot := slotOf (rpwOf j.mode) j.row j.member
    let hit := fun (l : Option Loc) (s : Nat) =>
      match l with
      | some l => l.cord == j.cord && l.cblk == j.cblk && l.row == j.row && some l.slot == slot && l.plane == j.plane && l.sect == s
      | none => false
    let c2 := c1.updItem id (fun x => { x with
      jobs := x.jobs.filter (· != j.id)
      fails := x.fails ++ bad.flatMap (fun b => (x.places.zipIdx.filter (fun p => hit p.1 b.1)).map (fun p => (p.2, 2, b.2))) })
    match c2.item id with
    | some x => if x.jobs = [] && x.stage = .flash then c2.readDone e id else c2
    | none => c2
  | .mapFetch p => c1.setMslot p { c1.mslot p with read := true }
  | _ => c1

/-- A sector of a page read has ended with a code; a peer read waits for the XOR (R63). -/
def Chip.sectDone (c : Chip) (e : Env) (id sect code bits : Nat) : Chip :=
  let upd := fun (s : SectJob) => { s with
    done := some code
    corrected := bits }
  let c1 := c.updJob id (fun j => { j with sects := updateWhere (fun s => s.sect == sect) upd j.sects })
  match c1.job id with
  | none => c1
  | some j =>
    match j.owner with
    | .peer _ => c1
    | _ => if j.sects.all (fun s => s.done.isSome) then c1.jobDone e j else c1

/-- A failed sector goes on to a step that reads the die again: alone, if its page has other sectors (R133). -/
def Chip.reread (c : Chip) (id sect step reads : Nat) : Chip :=
  match c.job id with
  | none => c
  | some j =>
    let again := fun (s : SectJob) => { s with
      step := step
      soft := false }
    if j.sects.length ≤ 1 then
      c.updJob id (fun j => { j with
        sects := j.sects.map again
        read := false
        waiting := true
        extraReads := reads })
    else
      let mine := (j.sects.filter (fun s => s.sect == sect)).map again
      let c1 := c.updJob id (fun j => { j with sects := j.sects.filter (fun s => s.sect != sect) })
      let (nid, c2) := c1.newJob { j with
        sects := mine
        read := false
        waiting := true
        extraReads := reads
        peers := []
        recon := false }
      let c3 := match j.owner with
        | .item i => c2.updItem i (fun x => { x with jobs := x.jobs ++ [nid] })
        | .peer p => c2.updJob p (fun q => { q with peers := q.peers ++ [nid] })
        | _ => c2
      c3

/-- A sector that its ladder leaves uncorrected goes to reconstruct, alone (R134, R136). -/
def Chip.toRecon (c : Chip) (id sect : Nat) : Chip :=
  let c1 := c.reread id sect 4 0
  match c1.cal.jobs.reverse.find? (fun j => j.sects.any (fun s => s.sect == sect && s.step == 4 && s.done.isNone) && (j.id == id || c.cal.nextJob ≤ j.id)) with
  | none => c1
  | some j => c1.addPeers j

/-- The job that a peer read serves. -/
def CalJob.parent (j : CalJob) : Option Nat :=
  match j.owner with
  | .peer p => some p
  | _ => none

/-- A peer of the job is fenced or missing: no reconstruct can be made. -/
def Chip.noPeers (c : Chip) (j : CalJob) : Bool := (c.peersOf j).length != 15 || (c.peersOf j).any (fun p => c.dieFenced p.2)

/-- A reconstruct fails for a read (R135, R136): a contracted one goes on with step 2 on its own die while that lives, every other ends with DEC_UNCORR. -/
def Chip.reconFail (c : Chip) (e : Env) (id : Nat) : Chip :=
  let c1 := (c.endRecon id).updJob id (fun j => { j with waiting := false })
  match c1.job id with
  | none => c1
  | some j =>
    let next := fun (c : Chip) (s : SectJob) =>
      if j.contracted && !c1.dieFenced j.die && s.step = 4 then c.reread id s.sect 2 1
      else if j.contracted && !c1.dieFenced j.die && s.step = 0 then c.updJob id (fun j => { j with waiting := true })
      else c.sectDone e id s.sect 0x80 0
    j.sects.foldl next c1

/-! The ladder (R133-R136). -/

/-- The soft lane of a cluster is fenced. -/
def Chip.softFenced (c : Chip) (k : Nat) : Bool := c.bit (Reg.decCtrl k) 5

/-- A codeword on its own die failed every step it may take: it is counted, and what follows (R134-R136). -/
def Chip.ladderEnd (c : Chip) (e : Env) (j : CalJob) (s : SectJob) : Chip :=
  let k := dieCluster j.die
  let c0 := c.countCodeword k 4 (Nat.min 3 s.step) 0
  match j.owner with
  | .peer p => c0.reconFail e p
  | .maint => c0.sectDone e j.id s.sect 0x80 0
  | _ =>
    if j.contracted then
      if s.step ≤ 1 then (if c0.peersFree j then (c0.excuseJob j).toRecon j.id s.sect else (c0.excuseJob j).reread j.id s.sect 2 1)
      else c0.sectDone e j.id s.sect 0x80 0
    else if s.step = 4 || c0.noPeers j then c0.sectDone e j.id s.sect 0x80 0
    else c0.toRecon j.id s.sect

/-- A codeword fails in its current step (R132-R136). -/
def Chip.stepFail (c : Chip) (e : Env) (j : CalJob) (s : SectJob) : Chip :=
  let k := dieCluster j.die
  let soft := fun (c : Chip) (st : Nat) =>
    let up := fun (q : SectJob) => { q with
      step := st
      soft := true
      hardTick := c.tick }
    c.updJob j.id (fun j => { j with sects := updateWhere (fun q => q.sect == s.sect) up j.sects })
  let off := c.softFenced k
  match s.step with
  | 0 =>
    let late := fun (q : SectJob) => { q with
      step := 1
      soft := true
      hardTick := c.tick }
    if !off then c.updJob j.id (fun j => { j with sects := updateWhere (fun q => q.sect == s.sect) late j.sects })
    else if j.reserved then c.ladderEnd e j s
    else c.reread j.id s.sect 2 1
  | 1 =>
    if j.contracted && j.parent.isNone then (c.rewriteJob j 2 1 0).ladderEnd e j s
    else c.reread j.id s.sect 2 1
  | 2 =>
    if !s.soft && !off then soft c 2
    else if off then (if c.fld (Reg.decThr k) 9 8 ≤ 2 then c.rewriteJob j 2 2 0 else c).ladderEnd e j { s with step := if j.contracted then 3 else 2 }
    else c.reread j.id s.sect 3 2
  | _ => (c.rewriteJob j 3 4 0).ladderEnd e j { s with step := 3 }

/-- A codeword is corrected (R142, R143). -/
def Chip.stepOk (c : Chip) (e : Env) (j : CalJob) (s : SectJob) (bits : Nat) : Chip :=
  let k := dieCluster j.die
  let c1 := c.countCodeword k s.step s.step bits
  let c2 := if c.fld (Reg.decThr k) 7 0 < bits then c1.rewriteJob j 1 s.step bits else c1
  let c3 := if c.fld (Reg.decThr k) 9 8 ≤ s.step then c2.rewriteJob j 2 s.step bits else c2
  c3.sectDone e j.id s.sect cstOk bits

/-- The codeword belongs to the parity member of its row (R127). -/
def CalJob.parityMember (j : CalJob) : Bool := (slotOf (rpwOf j.mode) j.row j.member).isNone

/-- Soft slots of a decode (R129). -/
def softCost (s : SectJob) : Nat := if s.step = 3 then 4 else 1

/-- The soft lane still has the slots in this tick (R129, R131). -/
def Chip.softFree (c : Chip) (k : Nat) (s : SectJob) : Bool :=
  let x := c.dec k
  decide ((if x.softTick = c.tick then x.softUsed else 0) + softCost s ≤ 8)

/-- A decode runs in its slot: the page has been read, and a lane of the kind serves it (R129-R132). -/
def Chip.canDecode (c : Chip) (j : CalJob) (s : SectJob) : Bool :=
  let k := dieCluster j.die
  j.read && s.done.isNone && decide (s.step ≤ 3) && !(c.dec k).fenced &&
    (if s.soft || s.step = 3 then !c.softFenced k && c.softFree k s && (s.step = 3 || decide (s.hardTick < c.tick))
     else decide (c.fld (Reg.decCtrl k) 4 1 ≠ 15))

/-- A decode on the soft lane takes its slots (R129). -/
def Chip.takeSoft (c : Chip) (k : Nat) (s : SectJob) : Chip :=
  if !s.soft && s.step ≠ 3 then c
  else
    let x := c.dec k
    c.setDec k { x with
      softTick := c.tick
      softUsed := (if x.softTick = c.tick then x.softUsed else 0) + softCost s }

/-- CODEWORD_DECODE (R133). -/
def Chip.decode (c0 : Chip) (e : Env) (id sect : Nat) (out : DecodeOutcome) : Chip :=
  match c0.job id with
  | none => c0
  | some j =>
    match j.sects.find? (fun s => s.sect == sect) with
    | none => c0
    | some s =>
      if !c0.canDecode j s then c0
      else
        let c := c0.takeSoft (dieCluster j.die) s
        match out with
        | .corrected bits =>
          let late := j.contracted && decide (s.step = 1) && decide (s.hardTick + (c.fig j.mode).eallow < c.tick)
          (if late then c.excuseJob j else c).stepOk e j s bits
        | .failed => c.stepFail e j s
        | .tagMismatch =>
          if j.parityMember || j.parent.isSome then c0
          else
            let c1 := (c.countCodeword (dieCluster j.die) s.step s.step 0).rewriteJob j 4 s.step 0
            (c1.raise 320 0x81 j.fn (j.die + c.jobBlock j * 4096) 0).sectDone e id sect 0x81 0

/-- CODEWORD_DECODE (R133). -/
def execCodewordDecode (job sect : Nat) (out : DecodeOutcome) (s : State) : Host.Outcome State Fault Refusal :=
  onItems (fun c => c.decode s.env job sect out) s

/-- Page reads whose die is fenced and that no reconstruct can serve end with DEC_UNCORR (log entry 22). -/
def Chip.endDead (c : Chip) (e : Env) : Chip :=
  (c.cal.jobs.filter (fun j => j.waiting && !j.read && !j.recon && j.parent.isNone && c.dieFenced j.die && c.noPeers j)).foldl (fun c j => c.reconFail e j.id) c

/-- Every peer of a reconstruct has decoded. -/
def Chip.peersReady (c : Chip) (j : CalJob) : Bool :=
  j.recon && !j.peers.isEmpty && j.peers.all (fun p => (c.job p).any (fun q => q.sects.all (fun s => s.done == some cstOk)))

/-- RECONSTRUCT_XOR (R63, R138): the rebuilt sectors pass their CRC, or the read ends with DEC_UNCORR. -/
def execReconstructXor (job : Nat) (crcOk : Bool) (s : State) : Host.Outcome State Fault Refusal :=
  onItems (fun c =>
    match c.job job with
    | none => c
    | some j =>
      if !c.peersReady j then c
      else
        let c1 := (c.endRecon job).updJob job (fun j => { j with
          waiting := false
          read := true })
        j.sects.foldl (fun c x => if x.done.isNone then c.sectDone s.env job x.sect (if crcOk then cstOk else 0x80) 0 else c) c1) s

/-! The rewrite queue, lane fences, and scans. -/

/-- The 64-bit word of a rewrite entry (DEC_RWQ). -/
def Rewrite.word (r : Rewrite) : Nat :=
  r.die % 4096 + r.block % 65536 * 2 ^ 12 + r.reason % 8 * 2 ^ 28 + 2 ^ 31 + satTo 65535 r.maxCorr * 2 ^ 32 + r.plane % 8 * 2 ^ 52 + r.step % 8 * 2 ^ 56

/-- WP3 plans the rewrite that a popped entry asks for (R146, R184): the cord block that holds the block is queued under the entry's reason. -/
def Chip.planRewrite (c : Chip) (r : Rewrite) : Chip :=
  let prio := if r.reason = 1 then prioCorr else if r.reason = 2 then prioStep else prioUncorr
  match c.map.cblks.find? (fun b => b.members.contains (r.die, r.block)) with
  | none => c
  | some b => c.queueRefresh prio b.cord b.idx (decide (3 ≤ r.reason)) (if r.reason = 3 then [(r.die, r.block, r.plane)] else [])

/-- A read of DEC_RWQ_LO (R144): the oldest entry is popped, its low word is the response and its high word is latched for the accessor. -/
def Chip.rwqPop (c : Chip) (acc : Access) (k : Nat) : Chip :=
  let x := c.dec k
  let w := match x.queue with
    | r :: _ => r.word
    | [] => 0
  let c0 := c.setDec k { x with queue := x.queue.drop 1 }
  let c1 := match x.queue with
    | r :: _ => c0.planRewrite r
    | [] => c0
  { c1 with
    resp := ⟨BitVec.ofNat 32 (w % 2 ^ 32), cstOk⟩
    regs := { c1.regs with rdHold := Tab.insert c1.regs.rdHold (acc.who * 2 ^ 32 + Reg.decRwqLo k) (some (BitVec.ofNat 32 (w / 2 ^ 32))) } }

/-- REWRITE_QUEUE_POP (R144). -/
def execRewriteQueuePop (acc : Access) (c : Nat) (s : State) : Host.Outcome State Fault Refusal :=
  onChip (fun x => if 9 ≤ acc.who || 8 * s.env.part.regions ≤ c then x else x.rwqPop acc c) s

/-- Lanes of a complex are fenced (R132): codewords in a soft step whose lane has gone fail that step. -/
def Chip.decFence (c : Chip) (e : Env) (k mask : Nat) : Chip :=
  let c1 := c.orReg (Reg.decCtrl k) (mask % 32 * 2)
  if !bitOf mask 4 then c1
  else
    let soft := c1.cal.jobs.filter (fun j => dieCluster j.die == k && j.read)
    soft.foldl (fun c j => (j.sects.filter (fun s => s.done.isNone && (s.soft || s.step == 3))).foldl (fun c s =>
      match c.job j.id with
      | some q => c.stepFail e q s
      | none => c) c) c1

/-- DEC_LANE_FENCE (R132). -/
def execDecLaneFence (c mask : Nat) (s : State) : Host.Outcome State Fault Refusal :=
  onItems (fun x => if 8 * s.env.part.regions ≤ c then x else x.decFence s.env c mask) s

/-- Books a maintenance read of one codeword of a row on a member of a cord block (R148). -/
def Chip.scanRead (c : Chip) (b : CordBlk) (m row : Nat) : Chip :=
  (c.newJob ⟨0, .maint, (b.members.getD m (0, 0)).1, b.cord, b.idx, row, m, 0, b.mode, 7, false, false, 0, c.tick, 0, [⟨0, 0, false, none, 0, 0⟩],
    false, true, [], false, 0, 0⟩).2

/-- The first rows of a cord block's wordline groups. -/
def CordBlk.scanRows (b : CordBlk) : List Nat := (List.range b.groups).map (fun g => g * rpwOf b.mode)

/-- FIRST_SAMPLE_SCAN (R148): one codeword of the last-programmed wordline and one of each wordline group, on each member. -/
def execFirstSampleScan (cord cblk : Nat) (s : State) : Host.Outcome State Fault Refusal :=
  onChip (fun c =>
    match c.cblk cord cblk with
    | none => c
    | some b =>
      if c.noNewWork || !c.cblkQuiet cord cblk || b.groups = 0 || Tab.get (fun _ => 0) c.map.sampled (cord * 65536 + cblk) ≠ 0 then c
      else
        let rows := b.scanRows ++ [b.groups * rpwOf b.mode - 1]
        let c1 := (List.range 16).foldl (fun c m => rows.foldl (fun c r => c.scanRead b m r) c) c
        { c1 with map := { c1.map with sampled := Tab.set (fun _ => 0) c1.map.sampled (cord * 65536 + cblk) (c.tick + 1) } }) s

/-- PATROL_READ (R148): one codeword of each wordline group of a closed block, after its first sample. -/
def execPatrolRead (cord cblk member : Nat) (s : State) : Host.Outcome State Fault Refusal :=
  onChip (fun c =>
    match c.cblk cord cblk with
    | none => c
    | some b =>
      if c.noNewWork || !c.cblkQuiet cord cblk || 16 ≤ member || Tab.get (fun _ => 0) c.map.sampled (cord * 65536 + cblk) = 0 then c
      else b.scanRows.foldl (fun c r => c.scanRead b member r) c) s

end Sys2Proof.Machine
end

