-- ==== Sys2Proof/Machine/Channels.lean ====
section
/-! DEFINITION. The channel engines: bring-up, training and its fallback, the tracking step and fences by command (R88-R94, R104, R120, R121). -/

namespace Sys2Proof.Machine

/-! Start. -/

/-- The grown table records the channel, or a chip enable of it, as fenced (R104, R117). -/
def Chip.grownFence (c : Chip) (cause die : Nat) : Bool := c.map.grown.any (fun g => g.cause == cause && g.die == die)

/-- The chip enables that CH_CFG declares, rising. -/
def Chip.declaredCe (c : Chip) (n : Nat) : List Nat := (List.range 4).filter (fun ce => bitOf (c.fld (Reg.chCfg n) 11 8) ce)

/-- Bring-up ends in FENCED with a detail code. -/
def Chip.bringFail (c : Chip) (e : Env) (n detail : Nat) (grown : Bool) : Chip :=
  (c.fenceChan e n grown).updChan n (fun x => { x with detail := detail })

/-- CH_CTRL.START (R88, R91, R104): from OFF only. What the grown table records as fenced is skipped. -/
def Chip.chStart (c : Chip) (e : Env) (n : Nat) : Chip :=
  if c.held || !e.chanPresent n || (c.chan n).phase != .off then c
  else
    let luns := c.fld (Reg.chCfg n) 15 12
    let st := firstFail [(decide (luns = 0) || decide (8 < luns), cstBad), (c.declaredCe n == [], cstZero)]
    if st ≠ cstOk then c.bringFail e n st false
    else if c.grownFence 7 (n * 32) then c.bringFail e n 0x87 false
    else
      let skip := (c.declaredCe n).filter (fun ce => c.grownFence 6 (n * 32 + ce * 8))
      c.updChan n (fun x => { x with
        phase := .bringup
        started := c.tick
        ceFenced := skip.foldl (fun m ce => m ||| 2 ^ ce) x.ceFenced })

/-- CH_START (R91). -/
def execChStart (n : Nat) (s : State) : Host.Outcome State Fault Refusal := onChip (fun c => c.chStart s.env n) s

/-! Training (R92). -/

/-- What training comes to: the rate reached or none, the chip enables that fail at the lowest permitted rate, and the number of steps down.
`alive`: chip enables that train, with one more than their best rate code; `n` bounds the rounds. -/
def trainRounds (r0 : Nat) : Nat → List (Nat × Nat) → Option Nat × List Nat × Nat
  | 0, _ => (none, [], 0)
  | n + 1, alive =>
    if alive = [] then (none, [], 0)
    else
      let low := if r0 < 3 then r0 else 3
      let best := alive.foldl (fun m p => Nat.min m p.2) 8
      if low + 1 ≤ best then
        let r := Nat.min r0 (best - 1)
        (some r, [], r0 - r)
      else
        let bad := (alive.filter (fun p => decide (p.2 < low + 1))).map (·.1)
        let (r, f, k) := trainRounds r0 n (alive.filter (fun p => decide (low + 1 ≤ p.2)))
        (r, bad ++ f, k + (r0 - low))

/-- The selectors of a chip enable's lines: direction and lane. -/
def deskewSels (ce : Nat) : List Nat := (List.range 18).map (fun i => i / 9 * 128 + ce * 16 + i % 9)

/-- Training sets the centre codes and passing eyes of a chip enable (R91, log entry 11). -/
def Chip.setEyes (c : Chip) (n ce : Nat) : Chip :=
  let put := fun (c : Chip) (sel : Nat) =>
    let (code, eye) := Config.deskew n sel c.free
    { c with free := c.free + 1 }.updChan n (fun x => { x with eyes := Tab.set (fun _ => (0, 0)) x.eyes sel (code % 64, eye % 64) })
  (deskewSels ce).foldl put c

/-- The dies of a channel that come up: declared, on a chip enable that is not fenced, and not retired by an entry of CAUSE 5 (R104). -/
def Chip.bringDies (c : Chip) (e : Env) (n : Nat) : Chip :=
  let one := fun (c : Chip) (k : Nat) =>
    let d := n * 32 + k
    if !e.dieDeclared d then c
    else if bitOf (c.chan n).ceFenced (k / 8) then c.setDie d { c.die d with phase := .fenced }
    else if c.grownFence 5 d then c.setDie d { c.die d with phase := .fenced, retired := true }
    else c.setDie d { c.die d with present := true }
  (List.range 32).foldl one c

/-- BRINGUP_END (R92): the rate that every chip enable reaches; those that fail at the lowest permitted rate are fenced, and with none left the channel. -/
def Chip.bringEnd (c : Chip) (e : Env) (n : Nat) (best : List Nat) : Chip :=
  if (c.chan n).phase ≠ .bringup then c
  else
    let r0 := c.fld (Reg.chCfg n) 22 20
    let ces := c.declaredCe n
    let alive := (ces.zipIdx.map (fun p => (p.1, best.getD p.2 0))).filter (fun p => !bitOf (c.chan n).ceFenced p.1)
    let (r, bad, downs) := trainRounds r0 5 alive
    let c1 := (List.range downs).foldl (fun c _ => c.chFault n 2 0x85) c
    let c2 := bad.foldl (fun c ce => (c.chFault n 2 0x85).fenceCe e n ce) c1
    match r with
    | none => c2.bringFail e n 0x85 true
    | some r =>
      let c3 := c2.updChan n (fun x => { x with
        phase := .running
        rateNow := r
        extNow := c.bit (Reg.chCfg n) 19 })
      ((alive.map (·.1)).filter (fun ce => !bad.contains ce)).foldl (fun c ce => c.setEyes n ce) (c3.bringDies e n)

/-- BRINGUP_END (R92). -/
def execBringupEnd (n : Nat) (best : List Nat) (s : State) : Host.Outcome State Fault Refusal := onItems (fun c => c.bringEnd s.env n best) s

/-- BRINGUP_TIMEOUT (R93): 25,000 ticks after START. -/
def execBringupTimeout (n : Nat) (s : State) : Host.Outcome State Fault Refusal :=
  onItems (fun c => if (c.chan n).phase = .bringup ∧ (c.chan n).started + 25000 ≤ c.tick then c.bringFail s.env n 0x85 true else c) s

/-- CH_FENCE (R88, R121): CH_CTRL.FENCE reads 1 from then on; a running engine goes to FENCED without an entry in the grown table. -/
def Chip.chFence (c : Chip) (e : Env) (n : Nat) : Chip :=
  if !e.chanPresent n then c
  else
    let c1 := c.setBit (Reg.chCtrl n) 1 true
    if (c.chan n).phase = .running then c1.fenceChan e n false else c1

/-- CH_FENCE (R88). -/
def execChFence (n : Nat) (s : State) : Host.Outcome State Fault Refusal := onItems (fun c => c.chFence s.env n) s

/-! The tracking step (R94). -/

/-- The chip enable of the next tracking step: the next declared, unfenced one in rotation. -/
def Chip.trackCe (c : Chip) (n : Nat) : Option Nat :=
  let ok := fun (ce : Nat) => (c.declaredCe n).contains ce && !bitOf (c.chan n).ceFenced ce
  ((List.range 4).map (fun i => ((c.chan n).track + i) % 4)).find? ok

/-- One code towards another, by at most one. -/
def towards (a b : Nat) : Nat := if a < b then a + 1 else if b < a then a - 1 else a

/-- A running engine's tracking step: what it measures is open (log entry 11). The parked bus is wrong, or an eye is too narrow, or codes move. -/
def Chip.trackStep (c : Chip) (e : Env) (n : Nat) : Chip :=
  match c.trackCe n with
  | none => c
  | some ce =>
    let busOk := decide (Config.open_ c.free % 2 = 0)
    let c0 := { c with free := c.free + 1 }
    if !busOk then (c0.chFault n 7 0).fenceChan e n true
    else
      let old := (c.chan n).eyes
      let one := fun (a : List Nat × Tab (Nat × Nat) × Nat) (sel : Nat) =>
        let (code, eye) := Config.deskew n sel a.2.2
        let was := (Tab.get (fun _ => (0, 0)) old sel).1
        let now := towards was (code % 64)
        (if now = was then a.1 else sel :: a.1, Tab.set (fun _ => (0, 0)) a.2.1 sel (now, eye % 64), a.2.2 + 1)
      let (moved, eyes, free) := (deskewSels ce).foldl one ([], old, c0.free)
      let c1 := { c0 with free := free }.updChan n (fun x => { x with eyes := eyes })
      let c2 := (if moved = [] then c1 else c1.bump (Reg.chTrack n) 31 16 1).setFld (Reg.chTrack n) 9 8 ce
      let c3 := c2.updChan n (fun x => { x with track := (ce + 1) % 4 })
      if (deskewSels ce).any (fun sel => decide ((Tab.get (fun _ => (0, 0)) (c3.chan n).eyes sel).2 < c3.fld (Reg.chTrack n) 5 0)) then
        (c3.chFault n 3 0).fenceCe e n ce
      else c3

/-- The tracking steps of a tick, one for each running engine. -/
def Chip.trackAll (c : Chip) (e : Env) : Chip :=
  ((c.flash.chans.filter (fun p => p.2.phase == .running)).map (·.1)).foldl (fun c n => c.trackStep e n) c

end Sys2Proof.Machine
end

