-- ==== Sys2Proof/Machine/Dram.lean ====
section
/-! DEFINITION. The DDR5 controller: which request a command slot serves, promotion by age, refresh, recalibration and ECC errors (R391-R402). -/

namespace Sys2Proof.Machine

/-- A sub-channel. -/
def Chip.subCh (c : Chip) (i : Nat) : SubCh := Tab.get (fun _ => SubCh.idle) c.dram.subs i

/-- Puts a sub-channel. -/
def Chip.setSubCh (c : Chip) (i : Nat) (x : SubCh) : Chip :=
  { c with dram := { c.dram with subs := Tab.set (fun _ => SubCh.idle) c.dram.subs i x } }

/-- The sub-channel m * 2 + b of a DRAM offset (R394). -/
def dramSub (off : Nat) : Nat := bitsOf off 8 7 * 2 + bitsOf off 6 6

/-- The bank of a DRAM offset within its sub-channel: bank group and bank (R394). -/
def dramBank (off : Nat) : Nat := bitsOf off 11 9 * 4 + bitsOf off 13 12

/-- The row of a DRAM offset (R394): the bits above the column burst. -/
def dramRow (off : Nat) : Nat := off / 2 ^ 21

/-- The 64-byte burst of a DRAM offset. -/
def dramBurst (off : Nat) : Nat := off / 64

/-- The latency target of a port in force (R395). -/
def Chip.portTarget (c : Chip) (p : Nat) : Nat := c.fld (Reg.memPortCfg p) 15 0

/-- The class of a port in force: 0 RT, 1 BULK, 2 BE. -/
def Chip.portClass (c : Chip) (p : Nat) : Nat := c.fld (Reg.memPortCfg p) 31 30

/-- The urgency of a request at time `now` (R396, R397). -/
def Chip.urgency (c : Chip) (now : Nat) (w : DramWait) : Nat :=
  let t := c.portTarget w.req.port
  let e := now - w.req.arrived
  if w.promoted || t ≤ e then 3 else if 3 * t ≤ 4 * e then 2 else if t ≤ 2 * e then 1 else 0

/-- The class that a request is served under (R397). -/
def Chip.serveClass (c : Chip) (w : DramWait) : Nat := if w.promoted then 0 else c.portClass w.req.port

/-- An earlier waiting request holds this one back: it is to the same burst, or its port keeps arrival order within a row (R398).
`earlier` lists the requests that arrived before it. -/
def Chip.heldBack (c : Chip) (earlier : List DramWait) (w : DramWait) : Bool :=
  earlier.any (fun x => dramBurst x.req.offset == dramBurst w.req.offset ||
    (x.req.port == w.req.port && c.bit (Reg.memPortCfg w.req.port) 29 && dramBank x.req.offset == dramBank w.req.offset &&
      dramRow x.req.offset == dramRow w.req.offset))

/-- `a` is served before `b` by rules 1 to 5 of R396. -/
def Chip.servedFirst (c : Chip) (x : SubCh) (now : Nat) (a b : DramWait) : Bool :=
  let op := fun (w : DramWait) => b2n (Tab.get (fun _ => 0) x.openRow (dramBank w.req.offset) != dramRow w.req.offset + 1)
  let key := fun (w : DramWait) => [3 - c.urgency now w, c.serveClass w, op w, w.req.arrived, w.req.port]
  decide (key a ≤ key b)

/-- The requests that may be served: those nothing holds back, and in flush service those of ports CHAN and BPM only (R402). -/
def Chip.servable (c : Chip) : List DramWait → List DramWait → List DramWait
  | _, [] => []
  | earlier, w :: t =>
    let rest := c.servable (earlier ++ [w]) t
    if c.heldBack earlier w || (c.dram.flush && w.req.port != 0 && w.req.port != 5) then rest else w :: rest

/-- The request that a command slot picks (R396). -/
def Chip.pickReq (c : Chip) (x : SubCh) (now : Nat) : Option DramWait :=
  match c.servable [] x.waiting with
  | [] => none
  | w :: t => some (t.foldl (fun a b => if c.servedFirst x now a b then a else b) w)

/-- A request joins the waiting ones; of one cycle, the lower port goes first (R398). -/
def dramArrive (r : DramReq) (ws : List DramWait) : List DramWait :=
  insertBy (fun w => w.req.arrived * 8 + w.req.port) ⟨r, false⟩ ws

/-- A bank whose refresh stands at the postponement limit of 4 is refreshed before any request (R399). -/
def refreshDue (x : SubCh) : Option Nat := (x.postponed.find? (fun p => decide (4 ≤ p.2))).map (·.1)

/-- One command slot at time `now` (R396, R399). `mine`: the arrivals that address this sub-channel. -/
def Chip.commandSlot (c : Chip) (i now : Nat) (arrivals : List DramReq) : Chip :=
  let x0 := c.subCh i
  let x := { x0 with waiting := arrivals.foldl (fun ws r => dramArrive r ws) x0.waiting, now := now }
  match refreshDue x with
  | some b => c.setSubCh i { x with postponed := Tab.erase x.postponed b, openRow := Tab.erase x.openRow b }
  | none =>
    match c.pickReq x now with
    | none => c.setSubCh i x
    | some w =>
      let wait := now - w.req.arrived
      let c1 := c.setSubCh i { x with
        waiting := x.waiting.erase w
        openRow := Tab.insert x.openRow (dramBank w.req.offset) (dramRow w.req.offset + 1)
        issued := w.req :: x.issued }
      let c2 := c1.raiseTo (Reg.memLat w.req.port) 15 0 wait
      if c.portTarget w.req.port < wait then c2.bump (Reg.memLat w.req.port) 31 16 1 else c2

/-- DRAM_COMMAND_SLOT (R396). Served only while DRAM is trained and enabled; time does not run backwards. -/
def execDramCommandSlot (sub now : Nat) (arrivals : List DramReq) (s : State) : Host.Outcome State Fault Refusal :=
  onChip (fun c =>
    if !c.bit Reg.memCtrl 0 || c.dram.rate == 0 || decide (8 ≤ sub) || decide (now < (c.subCh sub).now) then c
    else c.commandSlot sub now (arrivals.filter (fun r => dramSub r.offset == sub && decide (r.port < 8) && decide (r.arrived ≤ now)))) s

/-- DRAM_AGE_PROMOTION (R397): every request that waits longer than MEM_AGE.LIMIT is promoted. -/
def execDramAgePromotion (sub now : Nat) (s : State) : Host.Outcome State Fault Refusal :=
  onChip (fun c =>
    let x := c.subCh sub
    let old := fun (w : DramWait) => decide (c.fld Reg.memAge 15 0 < now - w.req.arrived)
    c.setSubCh sub { x with waiting := updateWhere old (fun w => { w with promoted := true }) x.waiting }) s

/-- DRAM_REFRESH (R399): a refresh that is due is issued, or postponed while urgency-3 requests wait on its bank and fewer than 4 postponements
stand. -/
def execDramRefresh (sub bank : Nat) (hot : Bool) (s : State) : Host.Outcome State Fault Refusal :=
  onChip (fun c0 =>
    let c := c0.setBit Reg.memRef 16 hot
    let x := c.subCh sub
    let n := Tab.get (fun _ => 0) x.postponed bank
    if x.waiting.any (fun w => dramBank w.req.offset == bank && c.urgency x.now w == 3) && decide (n < 4) then
      (c.setSubCh sub { x with postponed := Tab.insert x.postponed bank (n + 1) }).bump Reg.memRef 15 0 1
    else c.setSubCh sub { x with postponed := Tab.erase x.postponed bank, openRow := Tab.erase x.openRow bank }) s

/-- DRAM_RECALIBRATION (R400): it repeats 2,500 ticks after the last one; the delays it adjusts are not software's to see. -/
def execDramRecalibration (sub : Nat) (s : State) : Host.Outcome State Fault Refusal :=
  onChip (fun c =>
    let x := c.subCh sub
    if x.recal + 2500 ≤ c.tick then c.setSubCh sub { x with recal := c.tick } else c) s

end Sys2Proof.Machine
end

