-- ==== Sys2Proof/Machine/Tenants.lean ====
section
/-! DEFINITION. The functions: presence, shares, tokens, resets and pauses (R316-R330), and what ends with a function's commands. -/

namespace Sys2Proof.Machine

/-! Shares (R319-R323). -/

/-- The shares at the present number of functions and the totals in force (R320). -/
def Chip.sharesNow (c : Chip) (e : Env) : Shares :=
  let n := c.enabledCount
  if n = 0 then Shares.none
  else
    ⟨8192 / n, 4096 / n, 8192 / n, 1024 / n, c.fld Reg.fnTokenCfg 12 0 / n, (e.part.regions * 4096 - c.fld Reg.fnRsvNear 13 0) / n,
      (c.farCount - c.fld Reg.fnRsvFar 21 0) / n, 4096 / n⟩

/-- A boundary: the shares take effect, and the token balances are refilled (R319, R324). -/
def Chip.shareBoundary (c : Chip) (e : Env) : Chip :=
  let sh := c.sharesNow e
  let carry := c.fld Reg.fnTokenCfg 27 24
  let fill := fun (x : Fn) =>
    let b : Int := if x.freshBalance then sh.tok else min (x.balance + sh.tok) (carry * sh.tok : Nat)
    if x.phase = .disabled then x
    else { x with
      balance := b
      freshBalance := false
      fetchHold := false }
  { c with fn := { c.fn with
    fns := c.fn.fns.map (fun p => (p.1, fill p.2))
    shares := sh
    sharesDue := false
    fetched := 0 } }

/-! Service. -/

/-- A function enters service: the new E counts from the next boundary, from which it fetches (R317, R319, R324). -/
def Chip.fnEnter (c : Chip) (f : Nat) : Chip :=
  let c1 := c.updFn f (fun x => { x with
    phase := .enabled
    freshBalance := true
    fetchHold := true })
  { c1 with fn := { c1.fn with sharesDue := true } }

/-- A function's presence begins (R317): it is ENABLED unless warden firmware has disabled it. -/
def Chip.fnPresent (c : Chip) (f link vf : Nat) : Chip :=
  let c1 := c.updFn f (fun x => { x with
    present := true
    link := link
    vf := vf })
  if (c1.func f).phase = .disabled ∧ !(c1.func f).fwDisabled then c1.fnEnter f else c1

/-! Resets (R326-R329). -/

/-- Commands of a function that the host engine or WP1 has in hand: their completions are not posted yet (R327, step 2). -/
def Chip.fnBusy (c : Chip) (f : Nat) : Bool :=
  c.host.cmds.any (fun p => p.cmd.fn == f) || c.host.zoneOps.any (fun o => o.cmd.fn == f) || c.host.admin.any (fun x => x.fn == f) ||
    c.host.replies.any (fun r => r.1 == f)

/-- The zones that a function's unplaced writes and waiting zone operations concern. -/
def Chip.fnZonesHeld (c : Chip) (f : Nat) : List (Nat × Nat) :=
  (c.host.items.filter (fun x => x.cmd.fn == f && x.write && x.zoned && x.stage != .done)).map (fun x => (x.nsx, (c.itemZone x).1)) ++
    (c.host.zoneOps.filter (fun o => o.cmd.fn == f)).flatMap (fun o => o.zones.map (fun z => (o.nsx, z)))

/-- A function's commands end without completion (R281, R327): items that are not in the landing are discarded and their buffers released, a zone's write
pointer stands at the first item not placed, and replies are lost. -/
def Chip.squash (c : Chip) (e : Env) (f : Nat) : Chip :=
  let mine := c.host.items.filter (fun x => x.cmd.fn == f)
  let ids := mine.map (·.id)
  let zs := c.fnZonesHeld f
  let c1 := ids.foldl (fun c i => c.releaseItem e i) c
  let c2 := { c1 with host := { c1.host with
    items := c1.host.items.filter (fun x => !ids.contains x.id)
    cmds := c1.host.cmds.filter (fun p => p.cmd.fn != f)
    zoneOps := c1.host.zoneOps.filter (fun o => o.cmd.fn != f)
    admin := c1.host.admin.filter (fun x => x.fn != f)
    replies := c1.host.replies.filter (fun r => r.1 != f) } }
  let c3 := { c2 with
    map := { c2.map with missq := c2.map.missq.filter (fun q => !ids.contains q.1) }
    fn := { c2.fn with ftuReqs := c2.fn.ftuReqs.filter (fun r => r.fn != f) } }
  let back := fun (c : Chip) (p : Nat × Nat) => c.updZone p.1 p.2 (fun y => { y with
    assigned := y.wp
    firstBusy := false
    state := if y.wp = 0 && y.lanes == [] && y.state == .impOpen then .empty else y.state })
  zs.foldl back c3

/-- A reset or a pause starts, or meets one that runs (R327, R329): a squash source switches a running drain to squash, a reset supersedes a pause or a
shutdown, and the latest cause is recorded. -/
def Chip.fnReset (c : Chip) (e : Env) (f : Nat) (r : FnReset) : Chip :=
  let x := c.func f
  match x.reset with
  | none =>
    let c1 := c.updFn f (fun x => { x with
      phase := .resetting
      cause := if r.pause || r.shutdown then x.cause else r.cause
      reset := some { r with
        started := c.tick
        step := if r.squash then 4 else 2 } })
    if r.squash then c1.squash e f else c1
  | some o =>
    if r.pause || r.shutdown then c
    else
      let sq := o.squash || r.squash
      let c1 := c.updFn f (fun x => { x with
        cause := r.cause
        reset := some { o with
          cause := r.cause
          squash := sq
          disable := o.disable || r.disable
          pause := false
          shutdown := false
          step := if sq then 4 else o.step } })
      if sq && !o.squash then c1.squash e f else c1

/-- A reset by a source of R326: a function that is not in service has none. -/
def Chip.fnSource (c : Chip) (e : Env) (f cause : Nat) (squash disable : Bool) : Chip :=
  if (c.func f).phase = .disabled then c else c.fnReset e f ⟨cause, squash, disable, false, false, 0, 0⟩

/-- FN_CMD ends: RES, and GO reads 0. -/
def Chip.fnCmdEnd (c : Chip) (st : Nat) : Chip :=
  let c1 := (c.setReg Reg.fnCmdRes (2 ^ 31 + st)).setBit Reg.fnCmd 31 false
  { c1 with fn := { c1.fn with cmdRunning := none } }

/-- CSTS.CFS is set on a function (R282, R326). -/
def Chip.fnFatal (c : Chip) (f : Nat) : Chip := (c.updFn f (fun x => { x with cfs := true })).raise (1280 + f) 0 f 0 0

/-- Step 5 of R327: what a function holds on the host's side is released. A controller level reset by the host ends its enabling and its features
(log entry 25); the vectors of a function whose registers reset are masked again (log entry 43). -/
def Chip.fnRelease (c : Chip) (f : Nat) (r : FnReset) : Chip :=
  let byHost := decide (r.cause ≤ 4)
  let c1 := c.updFn f (fun x => { x with
    sqs := if byHost then [] else x.sqs.filter (fun q => q.qid == 0)
    cqs := if byHost then [] else x.cqs.filter (fun q => q.qid == 0)
    balance := if r.cause = 6 then x.balance else c.fn.shares.tok
    cfs := if r.cause = 6 then x.cfs else false
    ccEn := x.ccEn && !byHost
    rdy := x.rdy && !byHost
    shst := if byHost then 0 else x.shst
    feat := if byHost then FnFeatures.reset else { x.feat with nsq := 0, ncq := 0 }
    aers := []
    events := [] })
  let gone := r.cause == 1 || r.cause == 3 || r.cause == 4
  let keep := fun (l : List (Nat × Nat)) => if gone then l.filter (fun v => v.1 != f) else l
  let c2 := { c1 with
    fn := { c1.fn with ftu := c1.fn.ftu.filter (fun y => y.fn != f) }
    obs := { c1.obs with
      unmasked := keep c1.obs.unmasked
      pba := keep c1.obs.pba } }
  (c2.setRing f ([], 0, 0)).dlogStopFn f

/-- The running reset, pause or shutdown of a function ends, once nothing of it is in hand (R327, R330). -/
def Chip.fnResetEnd (c : Chip) (f : Nat) : Chip :=
  let x := c.func f
  match x.reset with
  | none => c
  | some r =>
    if c.fnBusy f || c.fn.ftuReqs.any (fun q => q.fn == f) then c
    else
      let c1 :=
        if r.pause then c.updFn f (fun x => { x with phase := .paused, reset := none })
        else if r.shutdown then c.updFn f (fun x => { x with phase := .enabled, reset := none, shst := 2 })
        else
          let off := r.disable || !x.present || x.fwDisabled
          let c2 := (c.fnRelease f r).updFn f (fun x => { x with
            phase := if off then .disabled else .enabled
            reset := none })
          let c3 := if r.cause = 6 then c2.fnFatal f else c2
          { c3 with fn := { c3.fn with sharesDue := c3.fn.sharesDue || off } }.raise (512 + f) 0 f 0 0
      if c.fn.cmdRunning = some f then c1.fnCmdEnd cstOk else c1

/-- A drain that has taken DRAIN_TICKS goes on as a squash (R328). -/
def Chip.fnDrainOver (c : Chip) (e : Env) (f : Nat) : Chip :=
  match (c.func f).reset with
  | none => c
  | some r =>
    if r.squash || c.tick < r.started + c.fld Reg.fnResetCfg 13 0 then c
    else (c.updFn f (fun x => { x with reset := some { r with squash := true, step := 4 } })).squash e f

/-! FN_CMD (R318, R329, R330). -/

/-- The status of FN_CMD before it starts, in the order of R39. -/
def Chip.fnCmdCheck (c : Chip) (op f : Nat) : Nat :=
  let p := (c.func f).phase
  firstFail [(decide (5 < op) || decide (f < 256) && (op == 4 && p != .enabled || op == 5 && p != .paused || (op == 2 || op == 3) && p == .disabled), cstBad),
    (decide (256 ≤ f), cstLimit), (p == .resetting, cstBusy)]

/-- FN_CMD with its word in the register. -/
def Chip.fnCmdGo (c : Chip) (e : Env) : Chip :=
  let op := c.fld Reg.fnCmd 30 28
  let f := c.fld Reg.fnCmd 8 0
  let st := c.fnCmdCheck op f
  let run := fun (c : Chip) => { c with fn := { c.fn with cmdRunning := some f } }
  let c0 := c.setReg Reg.fnCmdRes 0
  if st ≠ cstOk then c0.fnCmdEnd st
  else
    match op with
    | 0 =>
      let c1 := c0.updFn f (fun x => { x with fwDisabled := false })
      (if (c1.func f).present ∧ (c1.func f).phase = .disabled then c1.fnEnter f else c1).fnCmdEnd cstOk
    | 1 =>
      let c1 := c0.updFn f (fun x => { x with fwDisabled := true })
      if (c1.func f).phase = .disabled then c1.fnCmdEnd cstOk else run (c1.fnSource e f 6 true true)
    | 2 => run (c0.fnSource e f 5 false false)
    | 3 => run (c0.fnSource e f 5 true false)
    | 4 => run (c0.fnReset e f ⟨0, false, false, true, false, 0, 0⟩)
    | _ => (c0.updFn f (fun x => { x with phase := .enabled, fetchHold := true })).fnCmdEnd cstOk

/-- A write of FN_CMD with GO; nothing while an operation runs (R505). -/
def Chip.fnCommand (c : Chip) (e : Env) (op f : Nat) : Chip :=
  if c.bit Reg.fnCmd 31 then c else (c.setReg Reg.fnCmd (2 ^ 31 + op % 8 * 2 ^ 28 + f % 512)).fnCmdGo e

/-! Virtual functions (R317). -/

/-- First function and number of functions of a link. -/
def Chip.linkRange (c : Chip) (l : Nat) : Nat × Nat := (c.fld (Reg.hostLinkCfg l) 7 0, c.fld (Reg.hostLinkCfg l) 16 8)

/-- A link. -/
def Chip.link (c : Chip) (l : Nat) : Link := c.host.links.getD l Link.down

/-- Changes a link. -/
def Chip.updLink (c : Chip) (l : Nat) (g : Link → Link) : Chip := { c with host := { c.host with links := updateAt c.host.links l g } }

/-- VF v of a link meets its conditions: the link is up, VF Enable is 1 and v ≤ NumVFs. -/
def Link.vfOn (x : Link) (v : Nat) : Bool := x.state == 2 && x.vfEnable && decide (v ≤ x.numVfs)

/-- The VFs of a link follow VF Enable and NumVFs: those that lose their conditions are squashed and DISABLED (R317, R326). -/
def Chip.vfFollow (c : Chip) (e : Env) (l : Nat) : Chip :=
  let (b, n) := c.linkRange l
  let x := c.link l
  ((List.range (n - 1)).map (· + 1)).foldl (fun c v =>
    let f := b + v
    let y := c.func f
    if x.vfOn v && !y.present then c.fnPresent f l v
    else if !x.vfOn v && y.present then (c.updFn f (fun y => { y with present := false })).fnSource e f 3 true true
    else c) c

/-! Commands. -/

/-- FN_ENABLE. -/
def execFnEnable (fn : Nat) (s : State) : Host.Outcome State Fault Refusal := onChip (fun c => c.fnCommand s.env 0 fn) s

/-- FN_DISABLE. -/
def execFnDisable (fn : Nat) (s : State) : Host.Outcome State Fault Refusal := onItems (fun c => c.fnCommand s.env 1 fn) s

/-- FN_DRAIN_RESET. -/
def execFnDrainReset (fn : Nat) (s : State) : Host.Outcome State Fault Refusal := onChip (fun c => c.fnCommand s.env 2 fn) s

/-- FN_SQUASH_RESET. -/
def execFnSquashReset (fn : Nat) (s : State) : Host.Outcome State Fault Refusal := onItems (fun c => c.fnCommand s.env 3 fn) s

/-- FN_PAUSE. -/
def execFnPause (fn : Nat) (s : State) : Host.Outcome State Fault Refusal := onChip (fun c => c.fnCommand s.env 4 fn) s

/-- FN_RESUME. -/
def execFnResume (fn : Nat) (s : State) : Host.Outcome State Fault Refusal := onChip (fun c => c.fnCommand s.env 5 fn) s

/-- FUNCTION_LEVEL_RESET (cause 1). -/
def execFunctionLevelReset (fn : Nat) (s : State) : Host.Outcome State Fault Refusal := onItems (fun c => c.fnSource s.env fn 1 true false) s

/-- CC_EN_CLEAR (cause 2): CC.EN is written from 1 to 0. -/
def execCcEnClear (fn : Nat) (s : State) : Host.Outcome State Fault Refusal :=
  onChip (fun c => if (c.func fn).ccEn then (c.updFn fn (fun x => { x with ccEn := false })).fnSource s.env fn 2 false false else c) s

/-- SHUTDOWN_NOTIFICATION: steps 1-4 in drain mode, then SHST is 10b and the queues are kept. -/
def execShutdownNotification (fn : Nat) (s : State) : Host.Outcome State Fault Refusal :=
  onChip (fun c =>
    if (c.func fn).phase = .enabled ∨ (c.func fn).phase = .paused then
      (c.updFn fn (fun x => { x with shst := 1 })).fnReset s.env fn ⟨0, false, false, false, true, 0, 0⟩
    else c) s

/-- VF_ENABLE_CHANGE (R317): a NumVFs above TotalVFs = FN_COUNT - 1 is ignored. -/
def execVfEnableChange (link : Nat) (vfEnable : Bool) (numVfs : Nat) (s : State) : Host.Outcome State Fault Refusal :=
  onItems (fun c =>
    let n := if numVfs ≤ (c.linkRange link).2 - 1 then numVfs else (c.link link).numVfs
    if (c.link link).state = 2 then (c.updLink link (fun x => { x with vfEnable := vfEnable, numVfs := n })).vfFollow s.env link else c) s

/-- FUNCTION_RESET_DONE: steps 5 and 6 of R327, or the end of a pause or of a shutdown. -/
def execFunctionResetDone (fn : Nat) (s : State) : Host.Outcome State Fault Refusal := onItems (fun c => c.fnResetEnd fn) s

/-- DRAIN_TIMEOUT (R328). -/
def execDrainTimeout (fn : Nat) (s : State) : Host.Outcome State Fault Refusal := onItems (fun c => c.fnDrainOver s.env fn) s

end Sys2Proof.Machine
end

