-- ==== Sys2Proof/Machine/KerfLoader.lean ====
section
/-! DEFINITION. The checks of the Kerf program loader over an image (R198-R204, R211-R213), as pure functions. -/

namespace Sys2Proof.Machine

/-- Formats of instruction words (R198). -/
inductive KFmt where
  | r | i | k | c | ci | ps | s | b | l | x
  deriving DecidableEq, Repr

/-- The format of a listed data-profile opcode (R200). -/
def kfmt (op : Nat) : Option KFmt :=
  if op = 0x01 ∨ (0x02 ≤ op ∧ op ≤ 0x0E) ∨ op = 0x36 ∨ op = 0x39 then some .r
  else if (0x10 ≤ op ∧ op ≤ 0x17) ∨ op = 0x19 ∨ op = 0x1A ∨ (0x28 ≤ op ∧ op ≤ 0x30) then some .i
  else if op = 0x18 then some .k
  else if op = 0x20 then some .c
  else if op = 0x21 then some .ci
  else if op = 0x22 then some .ps
  else if op = 0x38 then some .s
  else if op = 0x34 then some .b
  else if op = 0x35 then some .l
  else if (0x31 ≤ op ∧ op ≤ 0x33) ∨ op = 0x37 ∨ (0x3A ≤ op ∧ op ≤ 0x3F) then some .x
  else none

/-- The opcode of a word. -/
def kop (w : Nat) : Nat := bitsOf w 31 26

/-- The fixed cost in cycles (R194, R200); of a LOOP, its entry. -/
def kcost (op : Nat) : Nat :=
  if op = 0x04 then 3
  else if 0x28 ≤ op ∧ op ≤ 0x2B then 2
  else if op = 0x30 ∨ op = 0x32 ∨ op = 0x35 then 2
  else if op = 0x31 then 16
  else if op = 0x33 ∨ 0x3A ≤ op then 4
  else if op = 0x36 then 8
  else 1

/-- Every field shown as 0 in the formats, or required to be 0 by the opcode table, is 0 (R198, R200).
The guard bits of LOOP are left to check 4 of R212. -/
def kzeroOk (w : Nat) : Bool :=
  let op := kop w
  let z := fun hi lo => bitsOf w hi lo == 0
  match kfmt op with
  | none => false
  | some .r =>
    z 10 0 && (if op = 0x01 ∨ op = 0x36 ∨ op = 0x39 then z 22 11 else if op = 0x0D ∨ op = 0x0E then z 14 11 else true)
  | some .i =>
    if op = 0x17 then z 18 15
    else if 0x14 ≤ op ∧ op ≤ 0x16 then z 14 6
    else if op = 0x19 ∨ op = 0x1A then z 2 0
    else true
  | some .k => z 16 16
  | some .c => z 20 19 && z 7 0
  | some .ci => true
  | some .ps => z 14 0
  | some .s => z 18 15 && z 14 3
  | some .b => z 22 10
  | some .l => true
  | some .x =>
    if op = 0x31 then z 14 0
    else if op = 0x32 then z 18 15 && z 14 6
    else if op = 0x33 then z 18 15 && z 14 0
    else if op = 0x37 then z 22 15 && z 14 6
    else true

/-- A SHUF immediate is valid: its mode is 1 or 2, and its ways fit the mode (R204). -/
def shufImmOk (b : Nat) : Bool :=
  let mode := bitsOf b 7 6
  let ways := bitsOf b 3 0
  decide (b < 256) && ((mode == 1 && ways == 0) || (mode == 2 && !(ways == 0)))

/-- A chain code is valid (R204). -/
def chainOk (c : Nat) : Bool :=
  bitsOf c 31 17 == 0 && (bitsOf c 7 0 == 0 || shufImmOk (bitsOf c 7 0))
    && (bitOf c 11 || bitsOf c 15 12 == 0) && (bitOf c 8 || bitsOf c 10 9 == 0)

/-- Check 3 of R212 for one word: no never-guard, no write to p0, POS + LENM1 within 63, and valid effect immediates (R203, R204). -/
def kcheck3 (w : Nat) : Bool :=
  let op := kop w
  let imm := bitsOf w 14 0
  (kfmt op == some .l || !(bitsOf w 25 23 == 4))
    && (if op = 0x20 ∨ op = 0x21 ∨ op = 0x22 then !(bitsOf w 22 21 == 0) else true)
    && (if op = 0x19 ∨ op = 0x1A then decide (bitsOf w 14 9 + bitsOf w 8 3 ≤ 63) else true)
    && (if op = 0x3A then shufImmOk imm
        else if op = 0x3B then decide (imm < 4)
        else if op = 0x3C then decide (imm < 16)
        else if op = 0x3D ∨ op = 0x3F then imm == 0
        else if op = 0x3E then decide (imm < 2)
        else true)

/-- Positions of the bodies of the LOOP instructions: (LOOP, first past the body). -/
def kloops (ws : List Nat) : List (Nat × Nat) :=
  (ws.zipIdx).filterMap (fun p => if kop p.1 = 0x35 then some (p.2, p.2 + bitsOf p.1 9 0 + 1) else none)

/-- The loops whose bodies hold position `i`, innermost first. -/
def kenclosing (ls : List (Nat × Nat)) (i : Nat) : List (Nat × Nat) :=
  (ls.filter (fun l => decide (l.1 < i) && decide (i < l.2))).reverse

/-- The innermost body that holds `i`: its first position past the end, else the length of the program. -/
def kbodyEnd (ls : List (Nat × Nat)) (n i : Nat) : Nat :=
  match kenclosing ls i with
  | [] => n
  | l :: _ => l.2

/-- Positions that can follow position `i` (R194, R201, R202). -/
def ksucc (ws : List Nat) (i : Nat) : List Nat :=
  let w := ws.getD i 0
  let op := kop w
  let guarded := !(bitsOf w 25 23 == 0)
  if op = 0x36 ∨ op = 0x37 then (if guarded then [i + 1] else [])
  else if op = 0x34 then (if guarded then [i + 1, i + bitsOf w 9 0] else [i + bitsOf w 9 0])
  else if op = 0x35 then (if bitsOf w 22 19 = 0 then [i + 1] else [i + 1, i + bitsOf w 9 0 + 1])
  else [i + 1]

/-- Positions reached from an entry, in rising order; `n`, the length, is among them if some path runs past the end. -/
def kreach (ws : List Nat) (entry : Nat) : List Nat :=
  (List.range ws.length).foldl
    (fun acc i => if acc.contains i then (ksucc ws i).foldl (fun a j => insertNat j a) acc else acc) [entry]

/-- The instruction at `i` breaks a rule of R201 or R202. -/
def kflowBad (ws : List Nat) (ls : List (Nat × Nat)) (i : Nat) : Bool :=
  let w := ws.getD i 0
  let op := kop w
  let n := ws.length
  if op = 0x34 then
    let off := bitsOf w 9 0
    let e := kbodyEnd ls n i
    off == 0 || (if kenclosing ls i = [] then !(kenclosing ls (i + off) == []) || decide (n ≤ i + off)
                 else !(decide (i + off = e) || kenclosing ls (i + off) == kenclosing ls i))
  else if op = 0x35 then
    let e := i + bitsOf w 9 0 + 1
    !(bitsOf w 25 23 == 0) || decide (n < e)
      || (match kenclosing ls i with
          | [] => false
          | [l] => decide (l.2 ≤ e)
          | _ => true)
  else false

/-- Longest paths in cycles: the list for positions `i`, `i`+1, ... given the list for `i`+1 on (R213). -/
def kcostStep (ws : List Nat) (ls : List (Nat × Nat)) (i : Nat) (later : List Nat) : List Nat :=
  let w := ws.getD i 0
  let op := kop w
  let e := kbodyEnd ls ws.length i
  let at' := fun j => if e ≤ j then 0 else later.getD (j - i - 1) 0
  let guarded := !(bitsOf w 25 23 == 0)
  let here :=
    if op = 0x35 then
      let fin := i + bitsOf w 9 0 + 1
      let body := if bitsOf w 9 0 = 0 then 0 else later.getD 0 0
      2 + (bitsOf w 18 10 + 1) * (body + 1) + at' fin
    else if op = 0x34 then
      1 + (if guarded then Nat.max (at' (i + 1)) (at' (i + bitsOf w 9 0)) else at' (i + bitsOf w 9 0))
    else if op = 0x36 ∨ op = 0x37 then kcost op + (if guarded then at' (i + 1) else 0)
    else kcost op + at' (i + 1)
  here :: later

/-- The longest path from every position. -/
def kcosts (ws : List Nat) (ls : List (Nat × Nat)) : List Nat :=
  (List.range ws.length).reverse.foldl (fun acc i => kcostStep ws ls i acc) []

/-- The bit of KRF_SLOT_VAL.EFFECTS that a word sets; 0x200 for SADD, which has no bit. -/
def keffect (w : Nat) : Nat :=
  let op := kop w
  if op = 0x3A then 1 else if op = 0x3B then 2 else if op = 0x3C then 4 else if op = 0x3D then 8
  else if op = 0x3E then (if bitOf w 0 then 16 else 0) else if op = 0x3F then 32 else if op = 0x31 then 64
  else if op = 0x33 then 128 else if op = 0x32 then 256 else 0

/-- An effect instruction that an entry (0 write, 1 read, 2 completion) does not permit (R203). -/
def kforbidden (entry w : Nat) : Bool :=
  let op := kop w
  if 0x3A ≤ op then !(entry == 0) else if op = 0x33 then !(entry == 1) else false

/-- What a load comes to: status, REASON, INDEX, and the program if it is admitted. -/
structure LoadResult where
  status : Nat
  reason : Nat
  index : Nat
  prog : Option Program
  deriving DecidableEq, Repr

/-- A refused load. -/
def LoadResult.refuse (status reason : Nat) (bad : List Nat) : LoadResult := ⟨status, reason, (bad.head?).getD 0, none⟩

/-- The least of the positions below `n` that `p` holds of, as a list of none or one. -/
def firstBad (n : Nat) (p : Nat → Bool) : List Nat := ((List.range n).filter p).take 1

/-- Every check of R212 but the last, in its order, over the 8,224 bytes of an image. `sqz` says that squeeze lanes are present. -/
def checkImage (sqz : Bool) (img : List Byte) : LoadResult :=
  let le := fun o n => leNat (sliceBytes img o n)
  let n := le 6 2
  let all := (List.range 1024).map (fun i => le (0x20 + 4 * i) 4)
  let ws := all.take n
  let entries := [le 8 2, le 10 2, le 12 2]
  let present := entries.filter (fun e => !(e == 0xFFFF))
  let batch := le 14 1
  let types := le 15 1
  let schain := le 0x10 4
  let ls := kloops ws
  let reached := entries.zipIdx.map (fun p => (p.2, if p.1 = 0xFFFF then [] else kreach ws p.1))
  let absent := firstBad 1024 (fun i => !sqz && kop (all.getD i 0) == 0x3B)
  let bad1 := !(le 0 4 == 0x4B524631) || !(le 4 1 == 1) || !(le 5 1 == 0) || !(bitsOf types 7 2 == 0)
    || !(le 0x14 4 == 0) || !(le 0x18 8 == 0) || decide (1024 < n) || decide (16 < batch)
    || !(chainOk schain) || bitOf schain 8 || bitOf schain 16 || !((all.drop n).all (· == 0))
    || (decide (0 < n) && (present.any (fun e => decide (n ≤ e)) || present == []))
  let bad2 := firstBad n (fun i => (kfmt (kop (ws.getD i 0))).isNone || !kzeroOk (ws.getD i 0))
  let bad3 := firstBad n (fun i => !kcheck3 (ws.getD i 0))
  let bad4 := firstBad n (fun i => kflowBad ws ls i || (present.contains i && !(kenclosing ls i == []))
    || reached.any (fun r => r.2.contains i && (ksucc ws i).any (fun j => decide (n ≤ j))))
  let bad5 := firstBad n (fun i => reached.any (fun r => r.2.contains i && kforbidden r.1 (ws.getD i 0)))
  let zlen := firstBad n (fun i => kop (ws.getD i 0) == 0x35 && bitsOf (ws.getD i 0) 9 0 == 0)
  let costs := kcosts ws ls
  let wmax := maxNat (present.map (fun e => costs.getD e 0))
  let effects := reached.foldl (fun acc r => r.2.foldl (fun a i => a ||| keffect (ws.getD i 0)) acc) 0
  if absent ≠ [] then .refuse 0x04 7 absent
  else if bad1 then .refuse 0x05 1 []
  else if bad2 ≠ [] then .refuse 0x05 2 bad2
  else if bad3 ≠ [] then .refuse 0x05 3 bad3
  else if bad4 ≠ [] then .refuse 0x05 4 bad4
  else if bad5 ≠ [] then .refuse 0x05 5 bad5
  else if n = 0 ∨ batch = 0 then .refuse 0x02 1 []
  else if zlen ≠ [] then .refuse 0x02 4 zlen
  else if 4096 < 128 + wmax then .refuse 0x03 6 []
  else ⟨0, 0, 0, some ⟨ws, sliceBytes img 0x1020 4096, entries, batch, types, schain, effects, wmax, false⟩⟩

end Sys2Proof.Machine
end

