-- ==== Sys2Proof/Machine/MapOps.lean ====
section
/-! DEFINITION. Losses in open rows, pins, garbage collection, refresh and the service of the bad block table (R162-R187). -/

namespace Sys2Proof.Machine

/-! Losses and rebuilds. -/

/-- PAGE_LOSS (R162-R164): a page of an open row is lost. -/
def execPageLoss (grp row : Nat) (slot : Option Nat) (plane : Nat) (s : State) : Host.Outcome State Fault Refusal :=
  onItems (fun c => c.losePageOf s.env grp row slot plane) s

/-- PAGE_REBUILD_DONE (R162): the page is in a new landing buffer. -/
def execPageRebuildDone (grp row : Nat) (s : State) : Host.Outcome State Fault Refusal := onItems (fun c => c.rebuilt grp row) s

/-! The cache and its pins. -/

/-- Map pages of a namespace of `size` sectors. -/
def pagesIn (size : Nat) : Nat := ceilDiv size 2048

/-- Map pages of a pinned namespace; 0 for one that does not exist. -/
def Chip.pinPages (c : Chip) (nsx : Nat) : Nat := match c.ns nsx with | some n => pagesIn n.size | none => 0

/-- Slots that pins may hold (R177). -/
def Chip.pinLimit (c : Chip) : Nat := c.cacheSlots * c.fld Reg.mapCacheCfg 22 16 / 100

/-- Slots that the pins of the namespaces that `p` holds of take (R177). -/
def Chip.pinnedSlots (c : Chip) (p : Ns → Bool) : Nat :=
  sumNat (c.map.pinned.map (fun x => match c.ns x with | some n => if p n then pagesIn n.size else 0 | none => 0))

/-- Some map page of a namespace is still being fetched. -/
def Chip.fetchingOf (c : Chip) (nsx : Nat) : Bool :=
  c.map.slots.any (fun p => p.1 / 2 ^ 29 == nsx && p.2.state == .fetching)

/-- Every map page of a pinned namespace is in the cache (R177, R178). -/
def Chip.wholePinned (c : Chip) (nsx : Nat) : Bool :=
  c.map.full || (c.map.pinned.contains nsx && (List.range (c.pinPages nsx)).all (fun i => c.resident (nsx * 2 ^ 29 + i)))

/-- The status of a pin (R177). A function's pins are those of the namespaces charged to it (R322, log entry 23). -/
def Chip.pinCheck (c : Chip) (nsx : Nat) : Nat :=
  match c.ns nsx with
  | none => cstBad
  | some n =>
    if n.zoned then cstBad
    else if c.map.pinned.contains nsx then cstOk
    else
      let mine := c.pinnedSlots (fun m => m.creator == n.creator)
      firstFail [(decide (c.pinLimit < c.pinnedSlots (fun _ => true) + pagesIn n.size), cstLimit),
        (decide (c.pinLimit / Nat.max 1 c.enabledCount < mine + pagesIn n.size), cstLimit)]

/-- A page is pinned: fetched if it is not in the cache. -/
def Chip.pinPage (c : Chip) (page : Nat) : Chip :=
  let x := c.mslot page
  if x.state = .free then (c.startFetch page).2 else c.setMslot page { x with pin := true }

/-- The pin of a namespace, its check passed (R177). In full-table mode its pages are resident already (R179). -/
def Chip.pinNs (c : Chip) (nsx : Nat) : Chip :=
  let c1 := { c with map := { c.map with pinned := insertNat nsx c.map.pinned } }
  if c.map.full then c1 else ((List.range (c.pinPages nsx)).map (fun i => nsx * 2 ^ 29 + i)).foldl (fun c p => c.pinPage p) c1

/-- The pin operation that runs ends once every page is in the cache. -/
def Chip.pinSettle (c : Chip) : Chip :=
  if c.bit Reg.mapPinCtrl 31 && c.wholePinned (c.fld Reg.mapPinCtrl 25 16) then (c.setFld Reg.mapPinCtrl 15 8 cstOk).setBit Reg.mapPinCtrl 31 false
  else c

/-- Every pinned page that has no slot yet is fetched (R177). -/
def Chip.pinAll (c : Chip) : Chip := (c.map.pinned.foldl (fun c x => c.pinNs x) c).pinSettle

/-- A namespace's pin ends. -/
def Chip.unpinNs (c : Chip) (nsx : Nat) : Chip :=
  { c with map := { c.map with
      pinned := c.map.pinned.filter (· != nsx)
      slots := updateWhere (fun p => p.1 / 2 ^ 29 == nsx) (fun p => (p.1, { p.2 with pin := false })) c.map.slots } }

/-- GO of MAP_PIN_CTRL (R177): a GO while a pin runs starts nothing (R505). -/
def Chip.pinGo (c : Chip) (un : Bool) (nsx : Nat) : Chip :=
  if c.bit Reg.mapPinCtrl 31 then c
  else
    let c0 := c.setReg Reg.mapPinCtrl (2 ^ 31 + b2n un * 2 ^ 30 + nsx % 1024 * 2 ^ 16)
    let fin := fun (c : Chip) (st : Nat) => (c.setFld Reg.mapPinCtrl 15 8 st).setBit Reg.mapPinCtrl 31 false
    if un then
      if c.map.pinned.contains (nsx % 1024) && ((c.ns (nsx % 1024)).any (fun n => !n.zoned)) then fin (c0.unpinNs (nsx % 1024)) cstOk else fin c0 cstBad
    else
      let st := c.pinCheck (nsx % 1024)
      if st ≠ cstOk then fin c0 st else (c0.pinNs (nsx % 1024)).pinSettle

/-- MAP_PIN (R177). -/
def execMapPin (nsid : Nat) (s : State) : Host.Outcome State Fault Refusal := onChip (fun c => c.pinGo false nsid) s

/-- MAP_UNPIN (R177). -/
def execMapUnpin (nsid : Nat) (s : State) : Host.Outcome State Fault Refusal := onChip (fun c => c.pinGo true nsid) s

/-- A map page fetch ends (R175): the page has been read, or the directory places it in the landing or nowhere. -/
def Chip.mapFetched (c : Chip) (page : Nat) : Chip :=
  let x := c.mslot page
  let w := Tab.get (fun _ => 0) c.map.dir page
  if x.state = .fetching && (x.read || !bitOf w 63 || bitOf w 62) && !c.cal.jobs.any (fun j => j.owner == .mapFetch page) then
    (c.fetchDone page).pinSettle
  else c

/-- MAP_FETCH_DONE (R175). -/
def execMapFetchDone (page : Nat) (s : State) : Host.Outcome State Fault Refusal := onItems (fun c => c.mapFetched page) s

/-! Moves of sectors of conventional namespaces (R181, R182, R184, R262). -/

/-- The cord block serves conventional host data. -/
def CordBlk.conventional (b : CordBlk) : Bool := (b.cls == .host || b.cls == .gc) && b.handle != 0xFFFF

/-- A closed cord block: all its rows are closed, and it opens no further ones (R180). -/
def Chip.cblkClosed (c : Chip) (e : Env) (b : CordBlk) : Bool := c.cblkQuiet b.cord b.idx && !c.hasGroup e b && decide (0 < b.closed)

/-- The victim of a cord (R180): the closed conventional cord block with the fewest valid sectors, ties to the earliest close tick. -/
def Chip.victim (c : Chip) (e : Env) (cord : Nat) : Option CordBlk :=
  minBy (fun b => c.validCount b.cord b.idx * 2 ^ 64 + b.closeTick)
    (c.map.cblks.filter (fun b => b.cord == cord && b.conventional && !b.evid && c.cblkClosed e b &&
      !c.map.refresh.any (fun r => r.cord == b.cord && r.cblk == b.idx)))

/-- A victim without valid sectors is erased (R181). -/
def Chip.eraseVictim (c : Chip) (e : Env) (b : CordBlk) : Chip :=
  if c.validCount b.cord b.idx = 0 then (c.eraseCblk e b.cord b.idx).bump Reg.mapGcStat 15 0 1 else c

/-- Victims of cords under pressure that have no valid sector left are erased at each boundary (R180, R181). -/
def Chip.gcSweep (c : Chip) (e : Env) : Chip :=
  c.map.cords.foldl (fun c x =>
    if c.gcLevel e x = 0 then c
    else match c.victim e x.id with
      | none => c
      | some b => c.eraseVictim e b) c

/-- The cord that takes the moved sectors of a block: its own one, any where that one is retired (R168, R181). -/
def Chip.gcCord (c : Chip) (cord : Nat) : Option Nat := if (c.cord cord).any (·.retired) then none else some cord

/-- Places copies of stored sectors in the GC cord block of a block's placement handle: the first map entry they take, and the chip. -/
def Chip.placeMoved (c : Chip) (e : Env) (b : CordBlk) (nsx : Nat) (xs : List Stored) : Option (Nat × Chip) :=
  let (st, g, c1) := c.groupFor e .gc b.handle b.mode 0 nsx xs.length (decide (1 < xs.length)) (c.gcCord b.cord)
  if st ≠ cstOk then none
  else
    let put := fun (a : Nat × List Nat × Chip) (x : Stored) =>
      if a.1 ≠ cstOk then a
      else
        let (st, w, c2) := a.2.2.putSector e g 0 0 x
        (st, a.2.1 ++ [w], c2)
    let (st2, ws, c2) := xs.foldl put (cstOk, [], c1)
    if st2 ≠ cstOk then none else some (ws.headD 0, c2)

/-- The packed extent whose first stored sector lies at a place (R262): first sector, logical and stored sectors, chain. -/
def Chip.packedAt (c : Chip) (l : Loc) : Option (Nat × Nat × Nat × Nat) :=
  (c.map.packed.find? (fun q => q.2.2.1 == locWord l)).map (fun q => (q.1 % 2 ^ 40, q.2.1, q.2.2.2.1, q.2.2.2.2))

/-- One move (R182, R262): the sector at `l`, or the packed extent that begins there, is copied; each map entry that still points to it takes the copy,
and a move that no entry takes counts as dropped. None where the copy finds no place. -/
def Chip.moveSector (c : Chip) (e : Env) (b : CordBlk) (l : Loc) : Option Chip :=
  let x := c.flashAt l
  let (lba, n, many) := match c.packedAt l with
    | some (lba, n, many, _) => (lba, n, many)
    | none => (x.ltag, 1, 1)
  let hits := ((List.range n).map (lba + ·)).filter (fun k => c.entryNow x.nsx k == locWord l)
  match c.placeMoved e b x.nsx ((List.range many).map (fun k => { c.flashAt (c.locAfter e l k) with ptick := 0 })) with
  | none => none
  | some (w, c1) =>
    let c2 := { c1 with map := { c1.map with
      packed := if hits = [] then c1.map.packed
        else updateWhere (fun q => q.2.2.1 == locWord l) (fun q => (q.1, q.2.1, w, q.2.2.2.1, q.2.2.2.2)) c1.map.packed } }
    let c3 := hits.foldl (fun c k => c.setEntry e x.nsx k w) c2
    some (if hits = [] then c3.bump Reg.mapGcStat 31 16 1 else c3)

/-- GC_MOVE_COMMIT (R180-R182): the place must lie in its cord's victim while the cord is under pressure, and hold that sector. -/
def Chip.gcMove (c : Chip) (e : Env) (nsx ltag : Nat) (l : Loc) : Chip :=
  match c.cord l.cord, c.victim e l.cord with
  | some x, some b =>
    let st := c.flashAt l
    if c.noNewWork ∨ b.idx ≠ l.cblk ∨ c.gcLevel e x = 0 ∨ st.nsx ≠ nsx ∨ st.ltag ≠ ltag ∨ st = Stored.none ∨ bitOf st.flags 0 then c
    else
      match c.moveSector e b l with
      | none => c
      | some c1 => c1.eraseVictim e b
  | _, _ => c

/-- GC_MOVE_COMMIT (R182). -/
def execGcMoveCommit (nsx ltag : Nat) (victim : Loc) (s : State) : Host.Outcome State Fault Refusal :=
  onItems (fun c => c.gcMove s.env nsx ltag victim) s

/-! Refresh and relocation (R184-R186). -/

/-- The places of a cord block that hold sectors, rising. -/
def Chip.placesIn (c : Chip) (cord idx : Nat) : List Loc :=
  (c.map.flash.filter (fun p => bitsOf p.1 45 38 == cord && bitsOf p.1 37 22 == idx)).map (fun p => wordLoc p.1)

/-- Hours that a closed cord block has lived: 450,000,000 ticks each. -/
def Chip.cblkHours (c : Chip) (b : CordBlk) : Nat := (c.tick - b.closeTick) / 450000000

/-- What a refresh of a cord block stands under (R184): its queue entry, or its age. -/
def Chip.refreshOf (c : Chip) (e : Env) (b : CordBlk) : Option Refresh :=
  match c.map.refresh.find? (fun r => r.cord == b.cord && r.cblk == b.idx) with
  | some r => some r
  | none =>
    if 0 < c.fld Reg.mapRefresh 15 0 && decide (c.fld Reg.mapRefresh 15 0 < c.cblkHours b) && c.cblkClosed e b then some ⟨prioAge, b.cord, b.idx, false, []⟩
    else none

/-- The block waits for rows that are open (R186). -/
def Chip.refreshWaits (c : Chip) (r : Refresh) : Bool := !c.cblkQuiet r.cord r.cblk && !r.urgent

/-- The refresh is the next one in the order of R184. -/
def Chip.refreshFirst (c : Chip) (r : Refresh) : Bool := !c.map.refresh.any (fun q => decide (r.prio < q.prio) && !c.refreshWaits q)

/-- A sector that ended with DEC_UNCORR is unreadable from now on (R163, R185). -/
def Chip.loseStored (c : Chip) (e : Env) (b : CordBlk) (l : Loc) : Chip :=
  let x := c.flashAt l
  if x = Stored.none ∨ bitOf x.flags 0 ∨ bitOf x.flags 2 then c
  else if b.conventional then
    match c.packedAt l with
    | some (lba, n, _, _) => ((List.range n).map (lba + ·)).foldl (fun c k => if c.entryNow x.nsx k = locWord l then c.setEntry e x.nsx k unrdWord else c) c
    | none => if c.entryNow x.nsx x.ltag = locWord l then c.setEntry e x.nsx x.ltag unrdWord else c
  else
    let n := ((c.ns b.nsx).map (fun n => x.ltag - b.zone * n.zsze)).getD 0
    c.updZone b.nsx b.zone (fun y =>
      if y.lost.length < 64 then { y with lost := insertNat n y.lost }
      else { y with lostFrom := some (match y.lostFrom with | some m => Nat.min m n | none => n) })

/-- The rows of one cord block that `p` holds of move to the same rows of another one (R184, R185): the data as it stands, the tick of the move for
the new seeds. -/
def Chip.carryRows (c : Chip) (cord idx cord' idx' : Nat) (p : Loc → Bool) : Chip :=
  let ls := (c.placesIn cord idx).filter p
  ls.foldl (fun c l =>
    let x := c.flashAt l
    (c.setFlash { l with cord := cord', cblk := idx' } { x with ptick := c.tick }).setFlash l Stored.none) c

/-- Blocks whose reason was UNCORR are retired instead of erased for reuse (R146). -/
def Chip.retireMoved (c : Chip) (e : Env) (rs : List (Nat × Nat × Nat)) : Chip :=
  rs.foldl (fun c r =>
    let c1 := { c with cal := { c.cal with starts := c.cal.starts.filter (fun q => q.owner != JobOwner.erase r.1 r.2.1) } }
    (c1.addGrown r.1 (2 ^ r.2.2) 3 r.2.1).retireCheck e r.1) c

/-- The entry that BBT_ADD holds back enters the table once its block is in no cord block (R187). -/
def Chip.bbtSettle (c : Chip) (e : Env) : Chip :=
  match c.map.bbtWait with
  | none => c
  | some g =>
    if c.map.cblks.any (fun b => b.members.contains (g.die, g.block)) then c
    else
      let c1 := { c with map := { c.map with grown := c.map.grown ++ [g], bbtWait := none } }
      ((c1.setFld Reg.mapBbtStat 7 0 cstOk).setBit Reg.mapBbtCmd 31 false).retireCheck e g.die

/-- A cord leaves DEGRADED once no cord block of it holds a failed die; a retired cord without cord blocks gives its dies back to the spares (R167,
R168). -/
def Chip.cordSettle (c : Chip) : Chip :=
  let failed := fun (d : Nat) => c.dieFenced d || (c.die d).retired
  let holds := fun (x : Cord) => c.map.cblks.filter (fun b => b.cord == x.id)
  let back := fun (c : Chip) (x : Cord) =>
    if x.retired && (holds x).isEmpty then
      { c with map := { c.map with
        cords := updateWhere (fun y => y.id == x.id) (fun y => { y with members := [] }) c.map.cords
        spares := (x.members.filter (fun d => !failed d)).foldl (fun l d => insertNat d l) c.map.spares } }
    else if x.degraded && !(holds x).any (fun b => b.members.any (fun m => failed m.1)) then c.updCord x.id (fun y => { y with degraded := false })
    else c
  c.map.cords.foldl back c

/-- The moved cord block is erased and leaves the queue; what waited for it goes on. -/
def Chip.movedAway (c : Chip) (e : Env) (b : CordBlk) (r : Refresh) : Chip := (((c.eraseCblk e b.cord b.idx).retireMoved e r.retire).bbtSettle e).cordSettle

/-- A refresh of a conventional cord block (R184): every valid sector moves as a GC move does, as many as find a place; the block is erased once none
is left. -/
def Chip.refreshConv (c : Chip) (e : Env) (b : CordBlk) (r : Refresh) : Chip :=
  let valid := (c.placesIn b.cord b.idx).filter (fun l => c.map.entries.any (fun p => p.2 == locWord l))
  let move := fun (a : Bool × Chip) (l : Loc) =>
    if !a.1 then a
    else match a.2.moveSector e b l with
      | some c1 => (true, c1)
      | none => (false, a.2)
  let c1 := (valid.foldl move (true, c)).2
  if c1.validCount b.cord b.idx = 0 && c1.cblkQuiet b.cord b.idx then c1.movedAway e b r else c1

/-- A refresh of a map cord block: the map pages that the directory places in it are written back again. -/
def Chip.refreshMap (c : Chip) (e : Env) (b : CordBlk) (r : Refresh) : Chip :=
  let here := fun (w : Nat) => bitOf w 63 && !bitOf w 62 && bitsOf w 45 38 == b.cord && bitsOf w 37 22 == b.idx
  let pages := (c.map.dir.filter (fun p => here p.2)).map (·.1)
  let move := fun (c : Chip) (p : Nat) => let x := c.mslot p
                                          let c1 := c.writeBack e p
                                          if x = MapSlot.free then c1.setMslot p x else c1.setMslot p { c1.mslot p with pin := x.pin, read := x.read, held := x.held, lookups := x.lookups }
  let c1 := pages.foldl move c
  if c1.map.dir.any (fun p => here p.2) || !c1.cblkQuiet b.cord b.idx then c1 else c1.movedAway e b r

/-- A cord with a free cord block for rows that move, outside the cords of a zone's other lanes. -/
def Chip.moveCord (c : Chip) (e : Env) (mode : Nat) (taken : List Nat) : Option Cord :=
  (c.cordsByFree e mode).find? (fun x => !taken.contains x.id)

/-- A refresh or relocation of a zone's cord block (R171, R184, R186): its rows move to a new cord block of the same class and evidence flag, and the
lane switches at once. A lane of nine cord blocks moves whole. Under UNCORR or TAG the closed rows move while later ones are open. -/
def Chip.refreshZone (c : Chip) (e : Env) (b : CordBlk) (r : Refresh) : Chip :=
  let y := c.zone b.nsx b.zone
  let ss := y.lane b.lane
  let whole := decide (9 ≤ ss.length)
  let srcs := if whole then ss else ss.filter (fun s => s.1 == b.cord && s.2.1 == b.idx)
  let open_ := (c.map.groups.filter (fun g => srcs.any (fun s => g.cord == s.1 && g.cblk == s.2.1))).map (·.g)
  if srcs = [] ∨ (whole && !open_.isEmpty) then c
  else
    match c.moveCord e b.mode (y.otherCords b.lane) with
    | none => c
    | some x =>
      match c.openCblk e x ⟨b.mode, b.cls, b.nsx, b.zone, b.lane, b.handle, b.evid⟩ with
      | none => c
      | some (idx, c1) =>
        let rpw := rpwOf b.mode
        let stay := open_.foldl Nat.min (2 ^ 32)
        let c2 := srcs.foldl (fun c s => c.carryRows s.1 s.2.1 x.id idx (fun l => decide (l.row / rpw < stay))) c1
        let c3 := c2.updCblk x.id idx (fun n => { n with
          groups := b.groups
          closed := b.closed
          closeTick := c.tick
          progTick := c.tick })
        let first := ((srcs.head?).map (fun s => s.2.2)).getD 0
        let keep := if open_ = [] then [] else [(b.cord, b.idx, stay), (x.id, idx, maxNat open_ + 1)]
        let lane := if whole then [(x.id, idx, first)]
          else ss.flatMap (fun s => if s.1 == b.cord && s.2.1 == b.idx then (x.id, idx, first) :: keep else [s])
        let c4 := c3.updZone b.nsx b.zone (fun y => { y with lanes := updateAt y.lanes b.lane (fun _ => lane) })
        if open_ = [] then (srcs.foldl (fun c s => c.eraseCblk e s.1 s.2.1) c4).movedAway e b r
        else
          let c5 := c4.updCblk b.cord b.idx (fun n => { n with stopped := true })
          { c5 with map := { c5.map with
            refresh := updateWhere (fun q => q.cord == b.cord && q.cblk == b.idx) (fun q => { q with urgent := false }) c5.map.refresh } }

/-- A refresh of a cord block of another class: its rows move to the same rows of a new one. -/
def Chip.refreshRaw (c : Chip) (e : Env) (b : CordBlk) (r : Refresh) : Chip :=
  match c.moveCord e b.mode [] with
  | none => c
  | some x =>
    match c.openCblk e x ⟨b.mode, b.cls, b.nsx, b.zone, b.lane, b.handle, b.evid⟩ with
    | none => c
    | some (idx, c1) =>
      let c2 := (c1.carryRows b.cord b.idx x.id idx (fun _ => true)).updCblk x.id idx (fun n => { n with
        groups := b.groups
        closed := b.closed
        closeTick := c.tick
        progTick := c.tick })
      c2.movedAway e b r

/-- REFRESH_MOVE (R184-R186): a cord block that is queued or too old moves, unless its open rows make it wait or the order puts another first. -/
def Chip.refreshMove (c : Chip) (e : Env) (cord idx : Nat) (bad : List Loc) : Chip :=
  match c.cblk cord idx with
  | none => c
  | some b =>
    match c.refreshOf e b with
    | none => c
    | some r =>
      if c.noNewWork || c.refreshWaits r || !c.refreshFirst r then c
      else
        let c1 := (bad.filter (fun l => l.cord == cord && l.cblk == idx)).foldl (fun c l => c.loseStored e b l) c
        if b.conventional then c1.refreshConv e b r
        else match b.cls with
          | .host => c1.refreshZone e b r
          | .map => c1.refreshMap e b r
          | _ => if c1.cblkQuiet cord idx then c1.refreshRaw e b r else c1

/-- REFRESH_MOVE (R185). -/
def execRefreshMove (cord cblk : Nat) (bad : List Loc) (s : State) : Host.Outcome State Fault Refusal :=
  onItems (fun c => c.refreshMove s.env cord cblk bad) s

/-! The service of the bad block table (R187). -/

/-- The words of a grown table entry (R117). -/
def Grown.words (g : Grown) : List Nat :=
  [g.die + g.planes * 2 ^ 12 + g.cause * 2 ^ 18, g.block, g.time % 2 ^ 32, g.time / 2 ^ 32 % 2 ^ 32]

/-- The entry that words spell (R117). -/
def grownOf (w0 w1 w2 w3 : Nat) : Grown := ⟨bitsOf w0 11 0, bitsOf w0 17 12, bitsOf w0 20 18, bitsOf w1 15 0, w2 + w3 * 2 ^ 32, false⟩

/-- A BBT operation ends. -/
def Chip.bbtEnd (c : Chip) (st : Nat) : Chip := (c.setFld Reg.mapBbtStat 7 0 st).setBit Reg.mapBbtCmd 31 false

/-- The table service with its operands in the registers (R187). -/
def Chip.bbtRun (c : Chip) (e : Env) (lc : Lifecycle) : Chip :=
  let idx := c.fld Reg.mapBbtIdx 22 0
  match c.fld Reg.mapBbtCmd 30 28 with
  | 0 =>
    match c.map.grown[idx]? with
    | none => c.bbtEnd cstLimit
    | some g => (g.words.zipIdx.foldl (fun c p => c.setReg (Reg.mapBbtE p.2) p.1) c).bbtEnd cstOk
  | 1 =>
    let g := grownOf (c.reg (Reg.mapBbtE 0)) (c.reg (Reg.mapBbtE 1)) (c.reg (Reg.mapBbtE 2)) (c.reg (Reg.mapBbtE 3))
    if g.cause ≠ 4 then c.bbtEnd cstBad
    else
      let c1 := { c with map := { c.map with bbtWait := some g } }
      let live := c.map.cblks.filter (fun b => b.members.contains (g.die, g.block))
      (live.foldl (fun c b => c.queueRefresh prioReloc b.cord b.idx false []) c1).bbtSettle e
  | 2 =>
    if lc ≠ .provisioned then c.bbtEnd cstLife
    else
      match c.map.grown[idx]? with
      | none => c.bbtEnd cstLimit
      | some g =>
        if g.cause < 5 then c.bbtEnd cstBad
        else
          let c1 := { c with map := { c.map with grown := c.map.grown.eraseIdx idx } }
          (if g.cause = 5 then c1.setDie g.die { c1.die g.die with retired := false } else c1).bbtEnd cstOk
  | _ => c.bbtEnd cstBad

/-- GO of MAP_BBT_CMD; while an operation runs it starts nothing (R505). -/
def Chip.bbtGo (c : Chip) (e : Env) (lc : Lifecycle) (op : Nat) : Chip :=
  if c.map.bbtWait.isSome then c else ((c.setFld Reg.mapBbtCmd 30 28 op).setBit Reg.mapBbtCmd 31 true).bbtRun e lc

/-- BBT_READ (R187). -/
def execBbtRead (idx : Nat) (s : State) : Host.Outcome State Fault Refusal :=
  onChip (fun c => (c.setFld Reg.mapBbtIdx 22 0 idx).bbtGo s.env s.fuse.lifecycle 0) s

/-- BBT_ADD (R187). -/
def execBbtAdd (w0 w1 w2 w3 : Word) (s : State) : Host.Outcome State Fault Refusal :=
  onItems (fun c => ((((c.setReg (Reg.mapBbtE 0) w0.toNat).setReg (Reg.mapBbtE 1) w1.toNat).setReg (Reg.mapBbtE 2) w2.toNat).setReg
    (Reg.mapBbtE 3) w3.toNat).bbtGo s.env s.fuse.lifecycle 1) s

/-- BBT_REMOVE (R187). -/
def execBbtRemove (idx : Nat) (s : State) : Host.Outcome State Fault Refusal :=
  onChip (fun c => (c.setFld Reg.mapBbtIdx 22 0 idx).bbtGo s.env s.fuse.lifecycle 2) s

/-! Work of each boundary. -/

/-- Groups that wait to be placed again are tried at each boundary (R161). -/
def Chip.retryGroups (c : Chip) (e : Env) : Chip :=
  ((c.map.groups.filter (·.replace)).map (·.id)).foldl (fun c i => c.replaceGroup e i) c

end Sys2Proof.Machine
end

