-- ==== Sys2Proof/Machine/Flags.lean ====
section
/-! DEFINITION. The one flag of the Kerf cores (V, R190), the conditions of CMP, CMPI and PSET, and guards (R199). -/

namespace Sys2Proof.Machine

/-- A predicate; p0 reads true (R189). -/
def KCore.pred (c : KCore) (i : BitVec 2) : Bool := if i = 0 then true else c.p.getD i.toNat false

/-- Writes a predicate; p0 stays true. -/
def KCore.setPred (c : KCore) (i : BitVec 2) (b : Bool) : KCore :=
  if i = 0 then c else { c with p := c.p.set i.toNat b }

/-- The guard of an instruction holds (R199). -/
def KCore.guard (c : KCore) (g : Guard) : Bool := xor (c.pred g.pred) g.inv

/-- The guard that never holds, which the loader rejects and a warden core traps on (R199, R225). -/
def Guard.never (g : Guard) : Bool := decide (g.pred = 0) && g.inv

/-- Sets the sticky V flag when `b` (R190). -/
def KCore.orV (c : KCore) (b : Bool) : KCore := { c with v := c.v || b }

/-- The comparison conditions (R199). -/
def Cond.holds : Cond → Dword → Dword → Bool
  | .eq, a, b => decide (a = b)
  | .ne, a, b => !decide (a = b)
  | .ltu, a, b => BitVec.ult a b
  | .geu, a, b => !BitVec.ult a b
  | .lt, a, b => BitVec.slt a b
  | .ge, a, b => !BitVec.slt a b
  | .tst, a, b => !decide (a &&& b = 0)
  | .ntst, a, b => decide (a &&& b = 0)

/-- The functions of PSET (R199). -/
def PsetFn.apply : PsetFn → Bool → Bool → Bool
  | .and, a, b => a && b
  | .or, a, b => a || b
  | .xor, a, b => xor a b
  | .andNot, a, b => a && !b

/-- V of ADD: the sum reaches 2^64 (R200). -/
def addSetsV (a b : Dword) : Bool := decide (2 ^ 64 ≤ a.toNat + b.toNat)

/-- V of SUB: ra is below rb, unsigned (R200). -/
def subSetsV (a b : Dword) : Bool := decide (a.toNat < b.toNat)

/-- V of MUL: the product reaches 2^64 (R200). -/
def mulSetsV (a b : Dword) : Bool := decide (2 ^ 64 ≤ a.toNat * b.toNat)

/-- V of ADDI: the signed sum of unsigned ra and imm lies outside 0 to 2^64 - 1 (R200). -/
def addiSetsV (a imm : Dword) : Bool :=
  decide ((a.toNat : Int) + imm.toInt < 0) || decide (2 ^ 64 ≤ (a.toNat : Int) + imm.toInt)

/-- An instruction that never sets V. -/
def noV (_ _ : Dword) : Bool := false

end Sys2Proof.Machine
end

