-- ==== Sys2Proof/Machine/Operands.lean ====
section
/-! DEFINITION. Register operands, immediates, and what the register instructions of both Kerf profiles compute (R189, R196, R200-R202). -/

namespace Sys2Proof.Machine

/-- A register; k0 reads 0 (R189). -/
def KCore.reg (c : KCore) (r : BitVec 4) : Dword := if r = 0 then 0 else c.k.getD r.toNat 0

/-- Writes a register; writes to k0 are discarded (R189). -/
def KCore.setReg (c : KCore) (r : BitVec 4) (v : Dword) : KCore :=
  if r = 0 then c else { c with k := c.k.set r.toNat v }

/-- IMM15 sign-extended to 64 bits. -/
def sx15 (i : BitVec 15) : Dword := i.signExtend 64

/-- IMM15 zero-extended to 64 bits. -/
def zx15 (i : BitVec 15) : Dword := i.zeroExtend 64

/-- The low 6 bits of a shift operand. -/
def shiftOf (v : Dword) : Nat := v.toNat % 64

/-- A load or store address: k[RA] plus the sign-extended IMM15, modulo 2^64 (R196). -/
def KCore.ea (c : KCore) (ra : BitVec 4) (imm : BitVec 15) : Nat := (c.reg ra + sx15 imm).toNat

/-- An instruction of two register operands and one result. -/
def aluRR (f : Dword → Dword → Dword) (vf : Dword → Dword → Bool) (rd ra rb : BitVec 4) (c : KCore) : KCore :=
  (c.setReg rd (f (c.reg ra) (c.reg rb))).orV (vf (c.reg ra) (c.reg rb))

/-- An instruction of one register operand and an immediate already extended. -/
def aluRI (f : Dword → Dword → Dword) (vf : Dword → Dword → Bool) (rd ra : BitVec 4) (imm : Dword) (c : KCore) : KCore :=
  (c.setReg rd (f (c.reg ra) imm)).orV (vf (c.reg ra) imm)

/-- Ones in a word (POPC). -/
def popc (a : Dword) : Dword := BitVec.ofNat 64 ((List.range 64).countP (fun i => a.getLsbD i))

/-- Leading zeros of a word, 0-64 (CLZ). -/
def clz (a : Dword) : Dword := BitVec.ofNat 64 (64 - bitLen a.toNat)

/-- The low `n` bits set. -/
def lowMask (n : Nat) : Dword := BitVec.ofNat 64 (2 ^ n - 1)

/-- BEXT (R200). -/
def bextOf (a : Dword) (pos lenm1 : Nat) : Dword := (a >>> pos) &&& lowMask (lenm1 + 1)

/-- BINS: bits [pos+lenm1:pos] of `d` replaced by the low bits of `a` (R200). -/
def binsOf (d a : Dword) (pos lenm1 : Nat) : Dword :=
  (d &&& ~~~(lowMask (lenm1 + 1) <<< pos)) ||| ((a &&& lowMask (lenm1 + 1)) <<< pos)

/-- MOVK: halfword `hw` of `d` replaced (R200). -/
def movkOf (d : Dword) (hw : BitVec 2) (imm : BitVec 16) : Dword := binsOf d (imm.zeroExtend 64) (16 * hw.toNat) 15

/-- Unsigned minimum. -/
def minuOf (a b : Dword) : Dword := if a.toNat ≤ b.toNat then a else b

/-- Unsigned maximum. -/
def maxuOf (a b : Dword) : Dword := if a.toNat ≤ b.toNat then b else a

/-- Continues at `target`, ending the iterations of loops whose body ends just before it (R201). `u` is the size of an instruction. -/
def settle (u target : Nat) : List KLoop → Nat × List KLoop
  | [] => (target, [])
  | l :: rest =>
    if target = l.last + u then
      if l.index + 1 < l.count then (l.first, { l with index := l.index + 1 } :: rest) else settle u target rest
    else (target, l :: rest)

/-- Goes on at `target`. -/
def KCore.goTo (u : Nat) (c : KCore) (target : Nat) : KCore :=
  { c with pc := (settle u target c.loops).1, loops := (settle u target c.loops).2 }

/-- Goes on at the next instruction. -/
def KCore.advance (u : Nat) (c : KCore) : KCore := c.goTo u (c.pc + u)

/-- The count of a LOOP (R201). -/
def loopCount (c : KCore) (rc : BitVec 4) (maxm1 : BitVec 9) : Nat :=
  if rc = 0 then maxm1.toNat + 1 else Nat.min (c.reg rc).toNat (maxm1.toNat + 1)

/-- LOOP (R201): enters the body, or skips it for a count of 0. -/
def KCore.enterLoop (u : Nat) (c : KCore) (rc : BitVec 4) (maxm1 : BitVec 9) (len : BitVec 10) : KCore :=
  if loopCount c rc maxm1 = 0 ∨ len = 0 then c.goTo u (c.pc + u * (len.toNat + 1))
  else { c with
    pc := c.pc + u
    loops := ⟨c.pc + u, c.pc + u * len.toNat, loopCount c rc maxm1, 0⟩ :: c.loops }

/-- Selector values 1 and 2 of MFS: the index of the innermost loop, and of the outer one while two run (R200). -/
def loopIndex (c : KCore) (outer : Bool) : Nat :=
  match outer, c.loops with
  | false, l :: _ => l.index
  | true, _ :: l :: _ => l.index
  | _, _ => 0

end Sys2Proof.Machine
end

