-- ==== Sys2Proof/Machine/KerfRun.lean ====
section
/-! DEFINITION. Invocations of the data-profile cores, the program slots and the bindings (R189-R219). -/

namespace Sys2Proof.Machine

/-! Cores. -/

/-- A data-profile core. -/
def Chip.kcore (c : Chip) (k : Nat) : DataCore := Tab.get (fun _ => DataCore.idle) c.kerf.cores k

/-- Puts a data-profile core. -/
def Chip.setKcore (c : Chip) (k : Nat) (x : DataCore) : Chip :=
  { c with kerf := { c.kerf with cores := Tab.set (fun _ => DataCore.idle) c.kerf.cores k x } }

/-- The core that runs the read entries of a cluster: its own one, hub core 7 once that is fenced (R23, R45). -/
def Chip.readCore (c : Chip) (k : Nat) : Nat := if (c.kcore k).fenced then 39 else k

/-! Dispatch (R191, R192, R195, R197). -/

/-- FLAGS of an item record (R197). -/
def Chip.itemFlags (c : Chip) (x : Item) : Nat :=
  b2n x.zoned + 2 * b2n (x.first && x.write) + 4 * b2n (x.zoned && (c.zone x.nsx (c.itemZone x).1).evid) + 8 * b2n x.contracted + 16 * b2n x.nowait

/-- ZSLBA of an item (R197). -/
def Chip.itemZslba (c : Chip) (x : Item) : Nat :=
  match c.ns x.nsx with
  | some n => if x.zoned then (c.itemZone x).1 * n.zsze else 0
  | none => 0

/-- The record of an item (R197). -/
def Chip.itemRecord (c : Chip) (entry : Nat) (x : Item) : List Byte :=
  leBytes 8 x.ltag ++ leBytes 1 x.nsect ++ leBytes 1 x.cmd.fn ++ leBytes 2 x.nsx ++ leBytes 2 (if x.zoned then 0xFFFF else x.ph) ++ [0] ++
    leBytes 1 (c.itemFlags x) ++ leBytes 4 (if entry = 0 then 0 else x.chain) ++ leBytes 4 0 ++ leBytes 8 (c.itemZslba x) ++
    sliceBytes (x.data.headD []) 0 32

/-- The item waits for an entry under a binding, on a core. -/
def Chip.itemWaits (c : Chip) (k entry bind : Nat) (x : Item) : Bool :=
  x.stage == .kerf entry && c.bindFor x.nsx x.ph == some bind && (entry != 1 || c.readCore x.cluster == k)

/-- The core may run an entry (R23, R191). -/
def coreRuns (k entry : Nat) : Bool :=
  if entry = 1 then decide (k < 32) || k == 39 else decide (32 ≤ k) && decide (k < 39)

/-- INVOCATION_DISPATCH (R192): the batch must be the first items, in order of acceptance, that wait for the entry under one binding of the slot. -/
def Chip.dispatch (c : Chip) (k slot entry : Nat) (ids : List Nat) : Chip :=
  match c.slotProg slot, (ids.head?).bind c.item with
  | some p, some x =>
    match c.bindFor x.nsx x.ph with
    | none => c
    | some b =>
      let waiting := (sortBy (fun y => y.id) (c.host.items.filter (c.itemWaits k entry b))).map (·.id)
      let core := c.kcore k
      if core.fenced || core.inv.isSome || !coreRuns k entry || decide (p.batch < ids.length) || !(p.has entry) ||
          (c.binding b).all (fun y => y.slot != slot) || ids != waiting.take ids.length then c
      else
        let items := ids.filterMap c.item
        let inv : Invocation := ⟨slot, entry, ids, some b, c.stamp, 128, [], items.flatMap (c.itemRecord entry),
          ((c.binding b).map (·.state)).getD [], items.map (fun _ => ItemFx.none), [], []⟩
        let c1 := c.setKcore k { core with
          core := KCore.fresh (p.entries.getD entry 0)
          inv := some inv }
        (ids.foldl (fun c i => c.updItem i (fun y => { y with stage := .running k })) c1).pass
  | _, _ => c

/-- INVOCATION_DISPATCH (R192). A core of an absent region runs nothing (R5). -/
def execInvocationDispatch (c slot entry : Nat) (items : List Nat) (s : State) : Host.Outcome State Fault Refusal :=
  onItems (fun x => if 8 * s.env.part.regions ≤ c && c < 32 then x else x.dispatch c slot entry items) s

/-! The end of an invocation. -/

/-- Unbound bindings go once no invocation holds them (R217). -/
def Chip.reapBinds (c : Chip) : Chip :=
  let held := fun (i : Nat) => c.kerf.cores.any (fun p => (p.2.inv.bind (fun v => v.bind)) == some i)
  { c with kerf := { c.kerf with binds := c.kerf.binds.filter (fun p => match p.2 with | some b => !b.draining || held p.1 | none => false) } }

/-- The core is at rest again. -/
def Chip.freeCore (c : Chip) (k : Nat) : Chip :=
  (c.setKcore k { c.kcore k with core := KCore.fresh 0, inv := none }).reapBinds

/-- An abort without effect: the items wait to be dispatched again (R24). -/
def Chip.abortInv (c : Chip) (k : Nat) : Chip :=
  match (c.kcore k).inv with
  | none => c
  | some v => (v.items.foldl (fun c i => c.updItem i (fun y => { y with stage := .kerf v.entry })) c).freeCore k

/-- A data-profile core fails: its invocation is aborted, it is fenced, and hub core 7 takes over the work of a cluster core (R23, R45). -/
def Chip.kerfCoreFail (c : Chip) (k : Nat) : Chip :=
  if (c.kcore k).fenced || decide (40 ≤ k) then c
  else
    let c1 := c.abortInv k
    let c2 := c1.setKcore k { c1.kcore k with fenced := true }
    let c3 := if k < 32 then (c2.setKcore 39 { c2.kcore 39 with covers := insertNat k (c2.kcore 39).covers }).raise (192 + k) 0 0xFFFF 0 0 else c2
    c3.excuseAll

/-- INVOCATION_BUDGET_OVERRUN (R194): an invocation that has reached 4,096 cycles is a core fault. -/
def execInvocationBudgetOverrun (c : Nat) (s : State) : Host.Outcome State Fault Refusal :=
  onItems (fun x => match (x.kcore c).inv with
    | none => x
    | some v => if v.cycles < 4096 then x else x.kerfCoreFail c) s

/-- A trap of a data-profile core (R207): every item of the batch ends with the detail code, and nothing else comes of the invocation. -/
def Chip.kerfTrap (c : Chip) (e : Env) (k code : Nat) : Chip :=
  match (c.kcore k).inv with
  | none => c
  | some v =>
    let pc := (c.kcore k).core.pc
    let c1 := (c.bump Reg.krfTrapCnt 31 0 1).setReg Reg.krfTrapLast
      (code * 2 ^ 24 + v.slot % 64 * 2 ^ 18 + v.entry % 4 * 2 ^ 16 + pc % 1024 * 64 + k % 64)
    let c2 := c1.raise 310 code (((v.items.head?).bind c.item).map (·.cmd.fn) |>.getD 0xFFFF) 0 0
    (v.items.foldl (fun c i => c.endItem e i code 4 0) c2).freeCore k

/-! Commit (R206, R208-R210). -/

/-- A state add: the 8-byte word at an offset of a binding's state, modulo 2^64 (R208). -/
def stateAdd (st : List Byte) (off : Nat) (v : Dword) : List Byte :=
  st.take off ++ leBytes 8 (leNat (sliceBytes st off 8) + v.toNat) ++ st.drop (off + 8)

/-- The adds of an invocation enter its binding's state. -/
def Chip.commitAdds (c : Chip) (v : Invocation) : Chip :=
  match v.bind with
  | none => c
  | some i =>
    match c.binding i with
    | none => c
    | some b =>
      let st := v.adds.foldl (fun st a => stateAdd st a.1 a.2) b.state
      { c with kerf := { c.kerf with binds := Tab.set (fun _ => none) c.kerf.binds i (some { b with state := st }) } }

/-- The emit record of a capture (R210): bits [63:16] of the dispatch timestamp, the slot, the item index, the 24 bytes. -/
def emitRecord (v : Invocation) (item : Nat) (bs : List Byte) : List Byte :=
  leBytes 6 (v.time / 65536) ++ leBytes 1 v.slot ++ leBytes 1 item ++ bs

/-- One item commits (R206); the emits of an item that has not failed follow (R210). -/
def Chip.commitItem (c : Chip) (e : Env) (v : Invocation) (p : (Nat × ItemFx) × Nat) : Chip :=
  let id := p.1.1
  let fn := ((c.item id).map (fun x => x.cmd.fn)).getD 0
  let c0 := c.updItem id (fun y => { y with stage := .kerf v.entry })
  let c1 := if v.entry = 0 then c0.commitWrite e id p.1.2 false
    else if v.entry = 1 then c0.commitRead e id p.1.2
    else c0.commitCompletion e id p.1.2
  let failed := (c1.item id).any (fun x => x.stage == .done && x.status != 0)
  if failed then c1
  else (v.emits.filter (fun m => m.1 == p.2)).foldl (fun c m => c.emitTo fn (emitRecord v m.1 m.2)) c1

/-- EXIT commits the invocation (R206): the state adds in program order, then the items in index order. -/
def Chip.commitInv (c : Chip) (e : Env) (k : Nat) : Chip :=
  match (c.kcore k).inv with
  | none => c
  | some v => ((((v.items.zip v.fx).zipIdx).foldl (fun c p => c.commitItem e v p) (c.commitAdds v)).freeCore k)

/-- Items whose program no longer serves them take the built-in entries (R215, R217). -/
def Chip.unboundItems (c : Chip) (e : Env) : Chip :=
  let lost := c.host.items.filter (fun x => match x.stage with | .kerf n => !c.hasEntry x n | _ => false)
  lost.foldl (fun c x => match x.stage with
    | .kerf 0 => c.commitWrite e x.id ItemFx.none true
    | .kerf 1 => c.commitRead e x.id { ItemFx.none with undo := true }
    | _ => c.finishRead e x.id) c

/-! Program slots (R211-R214). -/

/-- A load or unload runs: an unload whose slot drains. -/
def Chip.loadRuns (c : Chip) : Bool := c.kerf.unloading.isSome

/-- KRF_LOAD_RES at the end of an operation. -/
def Chip.loadEnd (c : Chip) (st reason index slot : Nat) : Chip :=
  (c.setReg Reg.krfLoadRes (2 ^ 31 + reason % 16 * 2 ^ 24 + index % 1024 * 2 ^ 14 + slot % 64 * 256 + st)).setBit Reg.krfLoadCtrl 31 false

/-- Puts a program slot. -/
def Chip.setProg (c : Chip) (i : Nat) (p : Option Program) : Chip :=
  { c with kerf := { c.kerf with slots := Tab.set (fun _ => none) c.kerf.slots i p } }

/-- The lowest free slot. -/
def Chip.freeSlot (c : Chip) : Option Nat := (List.range 64).find? (fun i => (c.slotProg i).isNone)

/-- A load of the image at KRF_LOAD_ADDR (R211-R214). -/
def Chip.krfLoad (c : Chip) (e : Env) (m : Mem) : Chip :=
  let a := c.reg Reg.krfLoadAddr
  if a % 8 ≠ 0 ∨ a < 0x40000000 ∨ 0x80000000 < a + 8224 then c.loadEnd cstBad 0 0 0
  else
    let r := checkImage e.part.full (Mem.readBytes m (a - 0x40000000) 8224)
    match r.prog with
    | none => c.loadEnd r.status r.reason r.index 0
    | some p =>
      match c.freeSlot with
      | none => c.loadEnd cstLimit 8 0 0
      | some i => (c.setProg i (some p)).loadEnd cstOk 0 0 i

/-- Bindings that name a slot, with binds that wait for the boundary. -/
def Chip.bindsOf (c : Chip) (slot : Nat) : Nat :=
  (c.kerf.binds.filter (fun p => p.2.any (fun b => b.slot == slot && !b.draining))).length +
    (c.kerf.changes.filter (fun x => x.slot == some slot)).length

/-- An unload (R214): the slot drains until its last invocation ends. -/
def Chip.krfUnload (c : Chip) (slot : Nat) : Chip :=
  match c.slotProg slot with
  | none => c.loadEnd cstBad 0 0 0
  | some p =>
    if 0 < c.bindsOf slot then c.loadEnd cstBad 0 0 0
    else
      let c1 := c.setProg slot (some { p with draining := true })
      { c1 with kerf := { c1.kerf with unloading := some slot } }

/-- GO of KRF_LOAD_CTRL; while an operation runs it starts nothing (R505). -/
def krfLoadGo (unload : Bool) (slot : Nat) (s : State) : State :=
  if s.chip.loadRuns then s
  else
    let c := (s.chip.setReg Reg.krfLoadCtrl (2 ^ 31 + b2n unload * 2 ^ 30 + slot % 64)).setReg Reg.krfLoadRes 0
    { s with chip := if unload then c.krfUnload (slot % 64) else c.krfLoad s.env s.mem.dram }

/-- KRF_LOAD (R212). -/
def execKrfLoad (s : State) : Host.Outcome State Fault Refusal := .next (krfLoadGo false (s.chip.fld Reg.krfLoadCtrl 5 0) s)

/-- KRF_UNLOAD (R214). -/
def execKrfUnload (slot : Nat) (s : State) : Host.Outcome State Fault Refusal := .next (krfLoadGo true slot s)

/-- SLOT_DRAIN_DONE (R214): no invocation of the slot runs any more. -/
def Chip.slotDrained (c : Chip) (slot : Nat) : Chip :=
  if c.kerf.unloading != some slot || c.kerf.cores.any (fun p => p.2.inv.any (fun v => v.slot == slot)) then c
  else
    let c1 := c.setProg slot none
    { c1 with kerf := { c1.kerf with unloading := none } }.loadEnd cstOk 0 0 0

/-- SLOT_DRAIN_DONE (R214). -/
def execSlotDrainDone (slot : Nat) (s : State) : Host.Outcome State Fault Refusal := onChip (fun c => c.slotDrained slot) s

/-! Bindings (R215-R217). -/

/-- The index under which a key is bound, or will be at the boundary. -/
def Chip.keyIndex (c : Chip) (nsx ph : Nat) : Option Nat :=
  match (c.kerf.changes.filter (fun x => x.nsx == nsx && x.ph == ph)).getLast? with
  | some x => x.slot.map (fun _ => x.index)
  | none => c.bindIdx nsx ph

/-- The key's old binding drains (R217). -/
def Chip.keyDrains (c : Chip) (nsx ph : Nat) : Bool := c.kerf.binds.any (fun p => p.2.any (fun b => b.nsx == nsx && b.ph == ph && b.draining))

/-- Indices of the binding table in use. -/
def Chip.bindUsed (c : Chip) : List Nat :=
  (c.kerf.changes.filter (fun x => x.slot.isSome)).foldl (fun l x => insertNat x.index l) (c.kerf.binds.map (·.1))

/-- The status of a bind (R216). -/
def Chip.bindCheck (c : Chip) (nsx ph slot : Nat) : Nat :=
  match c.ns nsx, c.slotProg slot with
  | some n, some p =>
    firstFail [(p.draining, cstBad),
      (!bitOf p.types (if n.zoned then 0 else 1), cstBad),
      (n.zoned && bitOf p.effects 1, cstBad),
      (!n.zoned && (bitOf p.effects 3 || bitOf p.effects 4 || bitOf p.effects 5), cstBad),
      ((c.keyIndex nsx ph).isNone && decide (4096 ≤ c.bindUsed.length), cstLimit),
      (c.keyDrains nsx ph, cstBusy),
      ((c.contract nsx).isSome && bitOf p.effects 1, cstContract)]
  | _, _ => cstBad

/-- KRF_BIND_RES at the end of an operation. -/
def Chip.bindEnd (c : Chip) (st index slot : Nat) : Chip :=
  (c.setReg Reg.krfBindRes (2 ^ 31 + index % 4096 * 2 ^ 14 + slot % 64 * 256 + st)).setBit Reg.krfBindCtrl 31 false

/-- A change of bindings that takes effect at the next boundary (R217). -/
def Chip.addChange (c : Chip) (x : BindChange) : Chip := { c with kerf := { c.kerf with changes := c.kerf.changes ++ [x] } }

/-- The operation of KRF_BIND_CTRL (R215-R217). -/
def Chip.bindRun (c : Chip) (op nsx ph slot : Nat) : Chip :=
  match op with
  | 0 =>
    let st := c.bindCheck nsx ph slot
    if st ≠ cstOk then c.bindEnd st 0 0
    else
      let i := (c.keyIndex nsx ph).getD (kthFree c.bindUsed 0 0)
      (c.addChange ⟨nsx, ph, some slot, i⟩).bindEnd cstOk i 0
  | 1 =>
    match c.keyIndex nsx ph with
    | none => c.bindEnd cstBad 0 0
    | some i => (c.addChange ⟨nsx, ph, none, i⟩).bindEnd cstOk i 0
  | 2 =>
    match c.bindIdx nsx ph with
    | none => c.bindEnd cstBad 0 0
    | some i => c.bindEnd cstOk i (((c.binding i).map (·.slot)).getD 0)
  | _ => c.bindEnd cstBad 0 0

/-- GO of KRF_BIND_CTRL with its operands. -/
def Chip.bindGo (c : Chip) (op nsx ph slot : Nat) : Chip :=
  (((c.setReg Reg.krfBindCtrl (op % 4 * 2 ^ 29 + nsx % 1024 * 2 ^ 16 + ph % 65536)).setReg Reg.krfBindArg (slot % 64)).setReg Reg.krfBindRes 0).bindRun
    op (nsx % 1024) (ph % 65536) (slot % 64)

/-- A change of bindings takes effect (R217). -/
def Chip.applyChange (c : Chip) (x : BindChange) : Chip :=
  let put := fun (b : Option Binding) => { c with kerf := { c.kerf with binds := Tab.set (fun _ => none) c.kerf.binds x.index b } }
  match x.slot, c.binding x.index with
  | some s, some b => if b.nsx = x.nsx ∧ b.ph = x.ph ∧ b.draining = false then put (some { b with slot := s }) else c
  | some s, none => put (some ⟨x.nsx, x.ph, s, List.replicate 256 0, false⟩)
  | none, some b => if b.nsx = x.nsx ∧ b.ph = x.ph then put (some { b with draining := true }) else c
  | none, none => c

/-- The changes of bindings at a boundary. -/
def Chip.applyChanges (c : Chip) : Chip :=
  let c1 := c.kerf.changes.foldl (fun c x => c.applyChange x) c
  { c1 with kerf := { c1.kerf with changes := [] } }.reapBinds

/-- KRF_BIND (R216). -/
def execKrfBind (nsx ph slot : Nat) (s : State) : Host.Outcome State Fault Refusal := onChip (fun c => c.bindGo 0 nsx ph slot) s

/-- KRF_UNBIND (R217). -/
def execKrfUnbind (nsx ph : Nat) (s : State) : Host.Outcome State Fault Refusal := onChip (fun c => c.bindGo 1 nsx ph (c.fld Reg.krfBindArg 5 0)) s

/-- KRF_LOOKUP (R217). -/
def execKrfLookup (nsx ph : Nat) (s : State) : Host.Outcome State Fault Refusal := onChip (fun c => c.bindGo 2 nsx ph (c.fld Reg.krfBindArg 5 0)) s

end Sys2Proof.Machine
end

