-- ==== Sys2Proof/Machine/Wardens.lean ====
section
/-! DEFINITION. The warden pairs, their mirrors and takeovers, the mailboxes, and the check of a Kerf image's envelope (R223, R231-R243). -/

namespace Sys2Proof.Machine

/-! Warden cores. -/

/-- A warden core right after reset (R223). -/
def WardenCore.fresh : WardenCore := ⟨KCore.fresh 0x20000000, true, false, [], false, false, false, 0, ([], [], false), false⟩

/-- A warden core 0-7. -/
def Chip.warden (c : Chip) (w : Nat) : WardenCore := Tab.get (fun _ => WardenCore.fresh) c.kerf.wardens w

/-- Puts a warden core. -/
def Chip.setWarden (c : Chip) (w : Nat) (x : WardenCore) : Chip :=
  { c with kerf := { c.kerf with wardens := Tab.set (fun _ => WardenCore.fresh) c.kerf.wardens w x } }

/-- A warden pair. -/
def Chip.pair (c : Chip) (p : Nat) : Pair := c.kerf.pairs.getD p Pair.fresh

/-- Changes a warden pair. -/
def Chip.updPair (c : Chip) (p : Nat) (g : Pair → Pair) : Chip := { c with kerf := { c.kerf with pairs := updateAt c.kerf.pairs p g } }

/-- The core is the active one of its pair and not fenced. -/
def Chip.isActive (c : Chip) (w : Nat) : Bool := (c.pair (w / 2)).active == w % 2 && !(c.warden w).fenced

/-! The mirror (R231-R233, R236). -/

/-- SRAM offset of a pair's working region. -/
def workOff (p : Nat) : Nat := p * 2 ^ 20

/-- Bytes of the working region and of a copy. -/
def workLen : Nat := 2 ^ 18

/-- The bytes of a pair's working region, by offset in it. -/
def workImage (m : Mem) (p : Nat) : Mem :=
  (m.filter (fun x => decide (workOff p ≤ x.1) && decide (x.1 < workOff p + workLen))).map (fun x => (x.1 - workOff p, x.2))

/-- The working region takes an image. -/
def restoreImage (m : Mem) (p : Nat) (img : Mem) : Mem :=
  img.foldl (fun m x => Mem.write m (workOff p + x.1 % workLen) x.2) (Mem.zeroRange m (workOff p) (workOff p + workLen))

/-- Copy 0 holds the committed generation. -/
def Pair.onCopy0 (x : Pair) : Bool := x.copy0.valid && x.copy0.gen == x.gen

/-- Changes the target copy of a commit: the one that does not hold the committed generation (R232). -/
def Pair.target (x : Pair) (g : MirrorCopy → MirrorCopy) : Pair :=
  if x.onCopy0 then { x with copy1 := g x.copy1 } else { x with copy0 := g x.copy0 }

/-- WP_COMMIT (R232): GO of KRF_WP_COMMIT by a core. The standby's write is ignored; a GO while a commit runs starts nothing. -/
def Chip.wpCommit (c : Chip) (w : Nat) : Chip :=
  let p := w / 2
  let x := c.pair p
  if !c.isActive w || x.committing then c
  else if 2 ^ 64 ≤ x.gen + 1 then c.setReg (Reg.krfWpCommit p) cstWrap
  else (c.updPair p (fun x => { x.target (fun k => { k with valid := false }) with committing := true })).setBit (Reg.krfWpCommit p) 31 true

/-- WP_COMMIT (R232). -/
def execWpCommit (c : Nat) (s : State) : Host.Outcome State Fault Refusal := onChip (fun x => x.wpCommit c) s

/-! Mailboxes (R238-R241). -/

/-- A slot that nothing uses. -/
def MbxSlot.free : MbxSlot := ⟨0, 0, false, []⟩

/-- A slot of a pair's queue, 0-127. -/
def Pair.slot (x : Pair) (i : Nat) : MbxSlot := x.mbx.getD i MbxSlot.free

/-- Puts a slot. -/
def Pair.setSlot (x : Pair) (i : Nat) (s : MbxSlot) : Pair :=
  { x with mbx := updateAt (x.mbx ++ List.replicate (i + 1 - x.mbx.length) MbxSlot.free) i (fun _ => s) }

/-- Slots of a share that are not free (R239). -/
def Pair.shareUsed (x : Pair) (host : Bool) : Nat := (x.mbx.filter (fun s => s.state != 0 && s.host == host)).length

/-- The lowest free slot of a pair's queue, if its share has one (R239). -/
def Pair.freeFor (x : Pair) (host : Bool) : Option Nat :=
  if 64 ≤ x.shareUsed host then none else (List.range 128).find? (fun i => (x.slot i).state == 0)

/-- Slots pending at a pair. -/
def Pair.pendingCount (x : Pair) : Nat := x.queue.length

/-- The control-space address of a core's message buffer. -/
def mbxBuffer (w : Nat) : Nat := 0x00981080 + w * 0x100

/-- The 128 bytes of a core's message buffer. -/
def Chip.mbxBytes (c : Chip) (w : Nat) : List Byte := (List.range 32).flatMap (fun i => leBytes 4 (c.reg (mbxBuffer w + 4 * i)))

/-- A message as it is posted (R241): SRC and TIME are the controller's, the payload has LEN bytes and zeros after them. -/
def Chip.mbxMessage (c : Chip) (src dst kind tag fn : Nat) (pay : List Byte) : List Byte :=
  leBytes 1 src ++ leBytes 1 dst ++ leBytes 1 kind ++ leBytes 1 pay.length ++ leBytes 4 tag ++ leBytes 6 (c.stamp / 65536) ++ leBytes 2 fn ++
    sliceBytes pay 0 112

/-- The status of a core's post (R240). -/
def Chip.postCheck (c : Chip) (w dst len : Nat) : Nat :=
  firstFail [(len == 0, cstZero),
    (decide (112 < len) || decide (5 < dst) || (decide (4 ≤ dst) && w / 2 != 1), cstBad),
    (decide (dst < 4) && ((c.pair dst).freeFor false).isNone, cstBusy),
    (decide (dst < 4) && (c.warden (2 * dst)).fenced && (c.warden (2 * dst + 1)).fenced, cstBus)]

/-- MBX_POST (R238, R240): the post is held until the pair's next commit. -/
def Chip.mbxPost (c : Chip) (w : Nat) : Chip :=
  if (c.warden w).fenced then c
  else
    let b := c.mbxBytes w
    let le := fun (o n : Nat) => leNat (sliceBytes b o n)
    let st := c.postCheck w (le 1 1) (le 3 1)
    if st ≠ cstOk then c.setReg (Reg.krfMbxTx w) st
    else
      let msg := c.mbxMessage w (le 1 1) (le 2 1) (le 4 4) (if 4 ≤ le 1 1 then le 14 2 else 0xFFFF) (sliceBytes b 16 (le 3 1))
      let slot := if le 1 1 < 4 then (c.pair (le 1 1)).freeFor false else none
      let c1 := match slot with
        | some i => c.updPair (le 1 1) (fun x => x.setSlot i ⟨1, w, false, msg⟩)
        | none => c
      (({ c1 with kerf := { c1.kerf with held := c1.kerf.held ++ ([⟨w, le 1 1, slot, msg⟩] : List HeldPost) } }).setReg (Reg.krfMbxTx w)
        (slot.getD 0 % 128 * 256 + cstOk)).pass

/-- MBX_POST (R240). -/
def execMbxPost (c : Nat) (s : State) : Host.Outcome State Fault Refusal := onChip (fun x => x.mbxPost c) s

/-- A post of the host engine or the management endpoint to WP1: pending at once (R238). False where its share is full. -/
def Chip.mbxHost (c : Chip) (src kind tag fn : Nat) (pay : List Byte) : Bool × Chip :=
  match (c.pair 1).freeFor true with
  | none => (false, c)
  | some i =>
    let msg := c.mbxMessage src 1 kind tag fn pay
    let c1 := c.updPair 1 (fun x => { x.setSlot i ⟨2, src, true, msg⟩ with queue := x.queue ++ [i] })
    (true, c1.raise0 277)

/-- MBX_POP (R238): the active core takes the oldest pending slot. -/
def Chip.mbxPop (c : Chip) (w : Nat) : Chip :=
  if !c.isActive w then c
  else
    match (c.pair (w / 2)).queue with
    | [] => c
    | i :: rest => c.updPair (w / 2) (fun x =>
        let y := x.setSlot i { x.slot i with state := 3, owner := w }
        { y with
          queue := rest
          taken := y.taken ++ [i] })

/-- MBX_POP (R238). -/
def execMbxPop (c : Nat) (s : State) : Host.Outcome State Fault Refusal := onChip (fun x => x.mbxPop c) s

/-- MI_REQUEST (R238-R240): the management endpoint posts a request to WP1; the response is the post's status. -/
def execMiRequest (tag : Word) (payload : List Byte) (s : State) : Host.Outcome State Fault Refusal :=
  onChip (fun c =>
    let st := firstFail [(payload.length == 0, cstZero), (decide (112 < payload.length), cstBad), (((c.pair 1).freeFor true).isNone, cstBusy),
      ((c.warden 2).fenced && (c.warden 3).fenced, cstBus)]
    let c1 := if st = cstOk then (c.mbxHost 9 3 tag.toNat 0xFFFF payload).2 else c
    { c1.wakeSee .mi with resp := ⟨0, st⟩ }) s

/-- A pair's commit releases its held posts in post order (R238). A post to the host engine or the management endpoint leaves the machine's mailboxes. -/
def Chip.releasePosts (c : Chip) (p : Nat) : Chip :=
  let mine := c.kerf.held.filter (fun h => h.core / 2 == p)
  let go := fun (c : Chip) (h : HeldPost) =>
    match h.slot with
    | none => c
    | some i => (c.updPair h.dst (fun x =>
        let y := x.setSlot i { x.slot i with state := 2 }
        { y with queue := y.queue ++ [i] })).raise0 (276 + h.dst)
  let c1 := mine.foldl go c
  { c1 with kerf := { c1.kerf with held := c1.kerf.held.filter (fun h => h.core / 2 != p) } }

/-- The slots that a pair has taken are free (R238). -/
def Pair.freeTaken (x : Pair) : Pair := { x.taken.foldl (fun x i => x.setSlot i MbxSlot.free) x with taken := [] }

/-- The commit of a pair ends (R232). -/
def Chip.wpCommitted (c : Chip) (sram : Mem) (p : Nat) : Chip :=
  let x := c.pair p
  if !x.committing then c
  else
    let c1 := c.updPair p (fun x => { (x.target (fun _ => ⟨true, x.gen + 1, workImage sram p⟩)).freeTaken with
      gen := x.gen + 1
      committing := false })
    let c2 := { c1 with pmu := { c1.pmu with commits := insertNat p c1.pmu.commits } }
    (c2.setReg (Reg.krfWpCommit p) cstOk).releasePosts p

/-- WP_COMMIT_DONE (R232). -/
def execWpCommitDone (p : Nat) (s : State) : Host.Outcome State Fault Refusal := onChip (fun c => c.wpCommitted s.mem.sram p) s

/-! Failover (R235-R237). -/

/-- Whole ticks since a core's last heartbeat (R234). -/
def Chip.missed (c : Chip) (w : Nat) : Nat := c.tick - (c.warden w).beat - 1

/-- Why a core is declared failed, 0 for no reason: 1 missed heartbeats, 2 double trap, 3 core self-check (R235). -/
def Chip.failCause (c : Chip) (w : Nat) (selfCheck : Bool) : Nat :=
  if c.fld (Reg.krfWpHb (w / 2)) 3 0 ≤ c.missed w then 1 else if (c.warden w).doubleTrap then 2 else if selfCheck then 3 else 0

/-- The newer valid copy of a pair (R236). -/
def Pair.best (x : Pair) : Option MirrorCopy :=
  if x.copy0.valid && (!x.copy1.valid || decide (x.copy1.gen ≤ x.copy0.gen)) then some x.copy0
  else if x.copy1.valid then some x.copy1
  else none

/-- The held posts of a core are discarded, and their slots are free (R236). -/
def Chip.dropPosts (c : Chip) (w : Nat) : Chip :=
  let mine := c.kerf.held.filter (fun h => h.core == w)
  let c1 := mine.foldl (fun c h => match h.slot with
    | some i => c.updPair h.dst (fun x => x.setSlot i MbxSlot.free)
    | none => c) c
  { c1 with kerf := { c1.kerf with held := c1.kerf.held.filter (fun h => h.core != w) } }

/-- The slots taken since the last commit are pending again, at the head of the queue (R236). -/
def Pair.returnTaken (x : Pair) : Pair :=
  { x.taken.foldl (fun x i => x.setSlot i { x.slot i with state := 2 }) x with
    queue := x.taken ++ x.queue
    taken := [] }

/-- The standby of a pair takes over from core `w` (R236). -/
def takeOver (w : Nat) (s : State) : State :=
  let p := w / 2
  let c1 := s.chip.dropPosts w
  let c2 := c1.updPair p (fun x => { x.returnTaken with
    committing := false
    active := 1 - w % 2
    gen := ((x.best).map (·.gen)).getD 0 })
  let c3 := (c2.setReg (Reg.krfWpCommit p) (c2.fld (Reg.krfWpCommit p) 7 0)).orReg (Reg.krfWpStat p) (if (c1.pair p).best.isSome then 2 ^ 7 else 2 ^ 7 + 2 ^ 6)
  let swap := fun (l : List Nat) => if l.contains w then insertNat (w / 2 * 2 + (1 - w % 2)) (l.filter (· != w)) else l
  let c4 := { c3 with obs := { c3.obs with
    pend300 := swap c3.obs.pend300
    serv300 := swap c3.obs.serv300 } }
  { s with
    chip := c4.raise0 (272 + p)
    mem := { s.mem with sram := restoreImage s.mem.sram p (((c1.pair p).best.map (·.image)).getD []) } }

/-- A core is declared failed (R235-R237). -/
def wardenFail (w cause : Nat) (s : State) : State :=
  let p := w / 2
  let c := s.chip
  let c1 := (c.setWarden w { c.warden w with fenced := true }).setReg (Reg.krfWpFail p)
    (satTo 255 (c.fld (Reg.krfWpFail p) 31 24 + 1) * 2 ^ 24 + (40 + w) * 256 + cause)
  let c2 := c1.raise 327 (40 + w) 0xFFFF 0 0
  let other := w / 2 * 2 + (1 - w % 2)
  if (c2.warden other).fenced then { s with chip := c2.enterHold 8 }
  else if (c2.pair p).active = w % 2 then takeOver w { s with chip := c2 }
  else { s with chip := c2 }

/-- WARDEN_CORE_FAIL (R235): nothing where no case of the rule holds. -/
def execWardenCoreFail (c : Nat) (selfCheck : Bool) (s : State) : Host.Outcome State Fault Refusal :=
  let cause := s.chip.failCause c selfCheck
  .next (if cause = 0 || (s.chip.warden c).fenced || decide (8 ≤ c) then s else wardenFail c cause s)

/-! Verified images (R242, R243). -/

/-- A trust anchor of the key store, empty if it has not been programmed (R373). -/
def Fuses.anchor (f : Fuses) (i : Nat) : List Byte := Tab.get (fun _ => []) f.anchors i

/-- The check of an envelope (R243): its common status, or the detail codes WSIG_FAIL 0x80 and WSVN_OLD 0x81. -/
def envelopeCheck (f : Fuses) (b : List Byte) : Nat :=
  let le := fun (o n : Nat) => leNat (sliceBytes b o n)
  let zero := (sliceBytes b 0x10 16).all (· == 0)
  if le 0 4 ≠ 0x564E454B ∨ le 4 2 ≠ 1 ∨ le 8 4 ≠ 8224 ∨ !zero ∨ 3 < le 6 2 then cstBad
  else if f.anchor (le 6 2) = [] || !Config.ecdsaOk (f.anchor (le 6 2)) (Config.sha384 (sliceBytes b 0 0x2040)) (sliceBytes b 0x2040 96) then 0x80
  else if le 12 4 < f.svn.getD (le 6 2) 0 then 0x81
  else cstOk

/-- IMAGE_ENVELOPE_CHECK (R243): after a pass WP2 writes the image's address to KRF_LOAD_ADDR. The response is the check's result. -/
def execImageEnvelopeCheck (addr : Nat) (s : State) : Host.Outcome State Fault Refusal :=
  let st := if addr % 8 ≠ 0 ∨ addr < 0x40000000 ∨ 0x80000000 < addr + 8352 then cstBad
    else envelopeCheck s.fuse (Mem.readBytes s.mem.dram (addr - 0x40000000) 8352)
  onChip (fun c =>
    let c1 := if st = cstOk then c.setReg Reg.krfLoadAddr (addr + 0x20) else c
    { c1 with resp := ⟨0, st⟩ }) s

end Sys2Proof.Machine
end

