-- ==== Sys2Proof/Machine/Links.lean ====
section
/-! DEFINITION. The host links, doorbells, the fetch of commands, and DMA failures (R277-R286, R324, R337). -/

namespace Sys2Proof.Machine

/-! Links (R277-R281). -/

/-- WIDTH of a link's configuration. -/
def Chip.linkWidth (c : Chip) (l : Nat) : Nat := c.fld (Reg.hostLinkCfg l) 25 24

/-- A link's configuration is invalid (R279): a width of another form, a range past function 255 or over that of a lower-numbered link, or link 0 away
from function 0. -/
def Chip.linkBad (c : Chip) (l : Nat) : Bool :=
  let w := c.linkWidth l
  let (b, n) := c.linkRange l
  let meets := fun (m : Nat) =>
    let (b2, n2) := c.linkRange m
    c.linkWidth m != 0 && decide (b < b2 + n2) && decide (b2 < b + n)
  w != 0 && (w == 3 || (w == 2 && (l % 2 == 1 || c.linkWidth (l + 1) != 0)) || n == 0 || decide (256 < b + n) || (l == 0 && b != 0) ||
    (List.range l).any meets)

/-- CFG_ERR of every link follows the configuration; a link found invalid makes a fault log entry (R279). -/
def Chip.linkCheck (c : Chip) : Chip :=
  (List.range 4).foldl (fun c l =>
    let bad := c.linkBad l
    let c1 := c.setBit (Reg.hostLinkStat l) 7 bad
    if bad && !c.bit (Reg.hostLinkStat l) 7 then c1.raise 322 0 0xFFFF 0 0 else c1) c

/-- A link goes down (R281): every function on it is squashed and DISABLED until the link is up again. -/
def Chip.linkDown (c : Chip) (e : Env) (l : Nat) : Chip :=
  if (c.link l).state ≠ 2 then c
  else
    let c1 := (c.updLink l (fun x => { x with
      state := 0
      speed := 0
      width := 0
      downSince := some c.tick })).bump (Reg.hostLinkStat l) 31 16 1
    let fs := (c1.fn.fns.filter (fun p => p.2.present && p.2.link == l)).map (·.1)
    (fs.foldl (fun c f => (c.updFn f (fun x => { x with present := false })).fnSource e f 4 true true) c1).raise 309 0 0xFFFF 0 0

/-- A link reaches the up state (R278, R317). -/
def Chip.linkUp (c : Chip) (e : Env) (l speed width : Nat) : Chip :=
  if !c.bit Reg.hostCtrl l || (c.link l).state == 2 || speed == 0 || decide (6 < speed) || width == 0 || decide (3 < width) then c
  else
    let c1 := c.updLink l (fun x => { x with
      state := 2
      speed := speed
      width := width
      downSince := none })
    (c1.fnPresent (c1.linkRange l).1 l 0).vfFollow e l

/-- A write of LINK_EN (R277): the bit of a link that is absent or invalid is ignored; a link taken out of service goes down and is disabled. -/
def Chip.linkEnable (c : Chip) (e : Env) (mask : Nat) : Chip :=
  (List.range 4).foldl (fun c l =>
    if c.linkWidth l = 0 || c.linkBad l then c
    else if bitOf mask l && !c.bit Reg.hostCtrl l then (c.setBit Reg.hostCtrl l true).updLink l (fun x => { x with state := 1 })
    else if !bitOf mask l && c.bit Reg.hostCtrl l then ((c.linkDown e l).setBit Reg.hostCtrl l false).updLink l (fun x => { x with state := 3 })
    else c) c

/-! Doorbells (R280). -/

/-- A doorbell that names no queue or a value outside the queue: ignored, with the asynchronous event (log entry 20). -/
def Chip.doorbellBad (c : Chip) (f info : Nat) : Chip := c.asyncEvent f 0 info

/-- A doorbell write. A function in a reset ignores it without an event (R327). -/
def Chip.doorbell (c : Chip) (f qid : Nat) (isCq : Bool) (v : Nat) : Chip :=
  let x := c.func f
  if x.phase = .disabled ∨ x.phase = .resetting then c
  else if isCq then
    match x.cqs.find? (fun q => q.qid == qid) with
    | none => c.doorbellBad f 0
    | some q =>
      let n := (v + q.size - q.head) % q.size
      if q.size ≤ v ∨ q.entries.length < n then c.doorbellBad f 1
      else c.setFn f { x with cqs := updateWhere (fun y => y.qid == qid) (fun y => { y with head := v, entries := y.entries.drop n }) x.cqs }
  else
    match x.sqs.find? (fun q => q.qid == qid) with
    | none => c.doorbellBad f 0
    | some q =>
      if q.size ≤ v then c.doorbellBad f 1
      else c.setFn f { x with sqs := updateWhere (fun y => y.qid == qid) (fun y => { y with tail := v }) x.sqs }

/-! Fetch (R286, R305, R324). -/

/-- Commands that wait in a submission queue. -/
def SQ.waits (q : SQ) : Nat := (q.tail + q.size - q.head) % q.size

/-- Opcode of an entry. -/
def sqeOpc (x : Sqe) : Nat := leNat (x.bytes.take 1)

/-- Command identifier of an entry. -/
def sqeCid (x : Sqe) : Nat := leNat (sliceBytes x.bytes 2 2)

/-- Tokens that an I/O command costs (R324). -/
def sqeTokens (x : Sqe) : Nat :=
  if sqeOpc x = 1 ∨ sqeOpc x = 2 ∨ sqeOpc x = 0x7D then leNat (sliceBytes x.bytes 48 2) + 1 else 1

/-- The admin queue has commands and WP1's host share a free slot. -/
def Chip.adminReady (c : Chip) (x : Fn) : Bool := x.sqs.any (fun q => q.qid == 0 && decide (0 < q.waits)) && ((c.pair 1).freeFor true).isSome

/-- The class of an I/O queue: 0 urgent, 1 high, 2 medium, 3 low; without CC.AMS 001b all are of one class. -/
def Fn.cls (x : Fn) (q : SQ) : Nat := if x.feat.wrr then q.prio else 3

/-- The non-empty I/O queues of a class. -/
def Fn.waitingIn (x : Fn) (k : Nat) : List SQ := x.sqs.filter (fun q => q.qid != 0 && decide (0 < q.waits) && x.cls q == k)

/-- A function that a fetch decision may choose. -/
def Chip.fetchable (c : Chip) (x : Fn) : Bool :=
  x.phase == .enabled && c.pmu.flush.isNone && x.reset.isNone && !x.fetchHold && x.rdy && !x.cfs && decide (1 ≤ x.balance) &&
    (c.adminReady x || x.sqs.any (fun q => q.qid != 0 && decide (0 < q.waits)))

/-- The next function in rotating order that may be chosen. -/
def Chip.nextFn (c : Chip) : Option Nat :=
  let ok := (c.fn.fns.filter (fun p => c.fetchable p.2)).map (·.1)
  match ok.find? (fun f => decide (c.fn.lastFn < f)) with
  | some f => some f
  | none => ok.head?

/-- The next queue of a class in round robin after the last one served. -/
def rrNext (last : Nat) (qs : List SQ) : Option SQ :=
  match minBy (·.qid) (qs.filter (fun q => decide (last < q.qid))) with
  | some q => some q
  | none => minBy (·.qid) qs

/-- The choice of a queue for a function (R286): queue, class of the round robin (4 admin), and the function with its credits. -/
def Chip.chooseQueue (c : Chip) (x : Fn) : Option (SQ × Nat × Fn) :=
  if c.adminReady x then (x.sqs.find? (fun q => q.qid == 0)).map (fun q => (q, 4, x))
  else
    let pick := fun (k : Nat) (x : Fn) => (rrNext (x.lastQ.getD k 0) (x.waitingIn k)).map (fun q => (q, k, x))
    if !x.feat.wrr then pick 3 x
    else if (x.waitingIn 0) != [] then pick 0 x
    else
      let can := fun (x : Fn) (k : Nat) => decide (0 < x.credit.getD (k - 1) 0) && (x.waitingIn k) != []
      let x1 := if [1, 2, 3].any (can x) then x else { x with credit := [x.feat.hpw + 1, x.feat.mpw + 1, x.feat.lpw + 1] }
      match [1, 2, 3].find? (can x1) with
      | some k => pick k { x1 with credit := updateAt x1.credit (k - 1) (· - 1) }
      | none => none

/-- Takes entries one by one: an admin command goes to WP1 while its share has a slot, an I/O command costs its tokens, and the burst ends once the balance
is 0 or below. Answers how many were taken. -/
def Chip.takeSqes (c : Chip) (f : Nat) (adm : Bool) : Nat → List Sqe → Nat × Chip
  | 0, _ => (0, c)
  | _, [] => (0, c)
  | n + 1, x :: xs =>
    if (c.func f).balance ≤ 0 then (0, c)
    else
      let (ok, c1) := if adm then c.mbxHost 8 1 (sqeCid x) f x.bytes else (true, c.updFn f (fun y => { y with balance := y.balance - sqeTokens x }))
      if !ok then (0, c)
      else
        let (m, c2) := c1.takeSqes f adm n xs
        (m + 1, c2)

/-- One fetch decision (R286). -/
def Chip.fetch (c : Chip) (xs : List Sqe) : Chip :=
  match c.nextFn with
  | none => c
  | some f =>
    match c.chooseQueue (c.func f) with
    | none => c
    | some (q, k, x) =>
      let burst := if x.feat.ab = 7 then q.waits else Nat.min (2 ^ x.feat.ab) q.waits
      let n := Nat.min (Nat.min burst (384 - c.fn.fetched)) x.balance.toNat
      if xs.length < n then c
      else
        let c0 := c.setFn f { x with lastQ := if k < 4 then updateAt x.lastQ k (fun _ => q.qid) else x.lastQ }
        let (m, c1) := c0.takeSqes f (k == 4) n xs
        let c2 := c1.updFn f (fun y => { y with sqs := updateWhere (fun z => z.qid == q.qid) (fun z => { z with head := (z.head + m) % z.size }) y.sqs })
        { c2 with fn := { c2.fn with lastFn := f, fetched := c2.fn.fetched + m } }

/-! DMA failures (R282, R337). -/

/-- The DMA of a command's data fails: its items that are under way end, or WP1 answers, with Data Transfer Error. -/
def Chip.dmaFail (c : Chip) (e : Env) (cmd : Cmd) : Chip :=
  let ids := (c.host.items.filter (fun x => x.cmd == cmd && x.stage != .done)).map (·.id)
  let c1 := ids.foldl (fun c i => c.endItem e i itDma 0 0) c
  c1.reply cmd stDma cstBus 0

/-- A translation ends; a denied one fails its command. -/
def Chip.ftuAnswer (c : Chip) (e : Env) (r : FtuReq) (res : AtsResult) : Chip :=
  let c1 := c.ftuEnd r res
  match res, r.cmd with
  | .denied, some cmd => c1.dmaFail e cmd
  | _, _ => c1

/-! Commands. -/

/-- HOST_LINK_UP. -/
def execHostLinkUp (link speed width : Nat) (s : State) : Host.Outcome State Fault Refusal := onItems (fun c => (c.wakeSee .link).linkUp s.env link speed width) s

/-- HOST_LINK_DOWN. -/
def execHostLinkDown (link : Nat) (s : State) : Host.Outcome State Fault Refusal := onItems (fun c => (c.wakeSee .link).linkDown s.env link) s

/-- DOORBELL_WRITE. -/
def execDoorbellWrite (fn qid : Nat) (isCq : Bool) (val : Nat) (s : State) : Host.Outcome State Fault Refusal :=
  onItems (fun c => (c.wakeSee .host).doorbell fn qid isCq val) s

/-- CMD_FETCH. The entries given are those at the head of the queue that the decision chooses; fewer of them than it fetches change nothing. -/
def execCmdFetch (sqes : List Sqe) (s : State) : Host.Outcome State Fault Refusal := onChip (fun c => c.fetch sqes) s

/-- HOST_DMA_FAILURE: of a command's data, or of a queue, which sets CSTS.CFS on the function alone. -/
def execHostDmaFailure (what : DmaFault) (s : State) : Host.Outcome State Fault Refusal :=
  match what with
  | .data cmd => onItems (fun c => c.dmaFail s.env cmd) s
  | .sqFetch f => onChip (fun c => c.fnFatal f) s
  | .cqWrite f => onChip (fun c => c.fnFatal f) s

/-- TRANSLATION_COMPLETION (R337). -/
def execTranslationCompletion (req : Nat) (res : AtsResult) (s : State) : Host.Outcome State Fault Refusal :=
  onItems (fun c =>
    match c.fn.ftuReqs.find? (fun r => r.id == req) with
    | none => c
    | some r => c.ftuAnswer s.env r res) s

/-- TRANSLATION_TIMEOUT (R337): no completion within TIMEOUT ticks. -/
def execTranslationTimeout (req : Nat) (s : State) : Host.Outcome State Fault Refusal :=
  onItems (fun c =>
    match c.fn.ftuReqs.find? (fun r => r.id == req) with
    | none => c
    | some r => if r.since + c.fld Reg.fnFtuCfg 11 0 ≤ c.tick then c.ftuAnswer s.env r .denied else c) s

end Sys2Proof.Machine
end

