-- ==== Sys2Proof/Machine/Host.lean ====
section
/-! DEFINITION. The I/O commands (R287-R304, R306): their checks, and how the host engine takes them. -/

namespace Sys2Proof.Machine

/-- Asymmetric Access Inaccessible (R283). -/
def stInaccessible : NStat := ⟨3, 0x02, false⟩
/-- Asymmetric Access Transition (R283). -/
def stTransition : NStat := ⟨3, 0x03, false⟩
/-- Sanitize In Progress (R312). -/
def stSanitize : NStat := ⟨0, 0x1D, false⟩
/-- Sanitize Failed (log entry 41). -/
def stSanitizeFailed : NStat := ⟨0, 0x1C, false⟩
/-- Format In Progress (R314). -/
def stFormat : NStat := ⟨0, 0x84, false⟩

/-! Gates. -/

/-- A sanitize runs (R312). -/
def Chip.sanitizing (c : Chip) : Bool := c.host.progress.state == 1 && decide (c.host.progress.action ≤ 2)

/-- The last sanitize failed (R312): until Exit Failure Mode I/O completes with Sanitize Failed (PRESUMED from NVMe, log entry 41). -/
def Chip.sanitizeFailed (c : Chip) : Bool := c.host.progress.state == 3 && decide (c.host.progress.action ≤ 2)

/-- A format of the namespace runs (R314). -/
def Chip.formatting (c : Chip) (nsx : Nat) : Bool :=
  c.host.progress.state == 1 && decide (3 ≤ c.host.progress.action) && c.host.progress.nss.contains nsx

/-- What stops every I/O command before its fields are looked at: the lifecycle (R377) and degraded hold (R466). DW0 carries a controller status. -/
def ioStop (s : State) : Option (NStat × Nat) :=
  if lifecycleRefuses s then some (nvmeOf .other cstLife, cstLife) else if s.chip.inHold then some (stNotReady, 0) else none

/-- What stops an I/O command on a namespace (R283, R287, R306, R312, R314): namespace, fields, ownership, sanitize and format. `zoned`: the command sets
that have the command, none for both. -/
def nsStop (s : State) (cmd : Cmd) (nsid psdt : Nat) (zoned : Option Bool) : Option (NStat × Nat) :=
  match s.chip.ns (nsxOf nsid) with
  | none => some (stNs, 0)
  | some n =>
    if nsid = 0 ∨ (n.owner ≠ some cmd.fn ∧ n.standby ≠ some cmd.fn) then some (stNs, 0)
    else if zoned.any (fun z => z != n.zoned) then some (stOpcode, 0)
    else if psdt ≠ 0 then some (stField, 0)
    else if n.move.isSome then some (stTransition, 0)
    else if n.owner ≠ some cmd.fn then some (stInaccessible, 0)
    else if s.chip.sanitizing then some (stSanitize, 0)
    else if s.chip.sanitizeFailed then some (stSanitizeFailed, 0)
    else if s.chip.formatting (nsxOf nsid) then some (stFormat, 0)
    else none

/-- A transfer of `n` sectors from `lba` (R287): beyond MDTS, or beyond the namespace. -/
def rangeStop (n : Ns) (lba k : Nat) : Option (NStat × Nat) :=
  if 512 < k then some (stField, 0) else if n.size < lba + k then some (stRange, 0) else none

/-- The deferred write error that an accepted command meets (R303): the command completes with it, the flag is cleared and the report counted. -/
def Chip.deferred (c : Chip) (cmd : Cmd) (nsx lba : Nat) : Option Chip :=
  match c.ns nsx with
  | none => none
  | some n =>
    let z := lba / Nat.max 1 n.zsze
    let due := fun (p : Option Nat) => p.any (fun t => decide (t < c.tick))
    let done := fun (c : Chip) => (c.bump Reg.hostDeferCnt 15 0 1).completeSt cmd .other cstParity
    if n.zoned then
      if due (n.zone z).parityLost then some (done (c.updZone nsx z (fun y => { y with parityLost := none }))) else none
    else if due n.parityLost then some (done (c.updNs nsx (fun n => { n with parityLost := none })))
    else none

/-- An I/O command of a function in service: its stops in order, then a deferred write error, then what it does. -/
def ioOp (cmd : Cmd) (stops : State → List (Option (NStat × Nat))) (nsx lba : Nat) (run : State → Chip → Chip) (s : State) :
    Host.Outcome State Fault Refusal :=
  onItems (fun c =>
    if (c.func cmd.fn).phase ≠ .enabled ∨ c.pmu.flush.isSome then c
    else
      match (ioStop s :: stops s).findSome? id with
      | some (st, d) => c.complete cmd st d 0
      | none =>
        match c.deferred cmd nsx lba with
        | some c1 => c1
        | none => run s c) s

/-! Items (R192). -/

/-- An item that has just been accepted. -/
def newItem (id : Nat) (cmd : Cmd) (write append : Bool) (nsx ltag nsect ph : Nat) (n : Ns) (k : Option Contract) (data : List Sector) (t : Nat) : Item :=
  { id := id, cmd := cmd, write := write, append := append, nsx := nsx, ltag := ltag, nsect := nsect, ph := ph, first := false, zoned := n.zoned,
    evid := n.zoned && (n.zone (ltag / Nat.max 1 n.zsze)).evid, contracted := !write && k.isSome,
    nowait := !write && (match k with | some k => k.nowait | none => n.nowait),
    chain := 0, tags := [], data := data, fx := ItemFx.none, stage := .waiting, laneLeft := [], laneFrom := 0, region := 0, lane := none, cluster := 0,
    pack := none, buffers := [], status := 0, block := 0, reason := 0, hint := 0, accept := t, deadline := 0, jobs := [], places := [], fails := [],
    leaves := [], excused := false, slips := 0, pads := [] }

/-- The extents of `k` sectors from `lba`: up to 16 sectors that do not cross a 16-sector boundary; `n` bounds them. -/
def extents : Nat → Nat → Nat → List (Nat × Nat)
  | 0, _, _ => []
  | n + 1, lba, k =>
    if k = 0 then []
    else
      let m := Nat.min k (16 - lba % 16)
      (lba, m) :: extents n (lba + m) (k - m)

/-- Host DMA staging of a write item (R323): its buffers, or the status that ends it. -/
def Chip.stageWrite (c : Chip) (e : Env) (id fn nsect : Nat) : Chip :=
  let take := fun (a : Nat × List Nat × Chip) (_ : Nat) =>
    if a.1 ≠ cstOk then a
    else
      let (st, h, c1) := a.2.2.alloc e 0 fn 0 false false false
      (st, if st = cstOk then a.2.1 ++ [h] else a.2.1, if st = cstOk then c1 else a.2.2)
  let (st, hs, c1) := (List.range (ceilDiv nsect 4)).foldl take (cstOk, [], c)
  let c2 := c1.updItem id (fun x => { x with buffers := hs })
  if st = cstOk then c2 else c2.endItem e id st 0 0

/-- The host engine takes a read or a write and splits it into items. -/
def Chip.acceptIo (c : Chip) (e : Env) (cmd : Cmd) (write : Bool) (nsx lba k ph : Nat) (assigned : Option Nat) (data : List Sector) : Chip :=
  match c.ns nsx with
  | none => c
  | some n =>
    let xs := extents (k + 1) lba k
    let ids := (List.range xs.length).map (c.host.nextItem + ·)
    let items := (xs.zip ids).map (fun p =>
      newItem p.2 cmd write assigned.isSome nsx p.1.1 p.1.2 ph n (c.contract nsx)
        (if write then (List.range p.1.2).map (fun i => data.getD (p.1.1 - lba + i) []) else []) c.tick)
    let c1 := { c with host := { c.host with
      items := c.host.items ++ items
      cmds := c.host.cmds ++ ([⟨cmd, write, nsx, lba, k, ids, assigned, c.tick, false⟩] : List Pend)
      nextItem := c.host.nextItem + xs.length } }
    let c2 := c1.ftuCommand cmd k
    if write then items.foldl (fun c x => if (c.item x.id).any (fun y => y.stage == .waiting) then c.stageWrite e x.id cmd.fn x.nsect else c) c2 else c2

/-- The zones that a namespace has. -/
def Ns.zoneCount (n : Ns) : Nat := n.size / Nat.max 1 n.zsze

/-- A command at an address of a zoned namespace crosses a zone boundary, or reaches past the capacity. -/
def Ns.crosses (n : Ns) (lba k cap : Nat) : Bool := n.zoned && decide (cap < lba % Nat.max 1 n.zsze + k)

/-- What stops a read on its addresses. A read may reach past the written sectors of its zone, but not into the next one (log entry 19). -/
def readStop (s : State) (nsid slba k : Nat) : Option (NStat × Nat) :=
  match s.chip.ns (nsxOf nsid) with
  | none => none
  | some n =>
    match rangeStop n slba k with
    | some x => some x
    | none => if n.crosses slba k n.zsze then some (stZoneBoundary, 0) else none

/-- READ (R289). `nlb` is 0-based, as in the command. -/
def execRead (cmd : Cmd) (nsid slba nlb psdt : Nat) (s : State) : Host.Outcome State Fault Refusal :=
  ioOp cmd (fun s => [nsStop s cmd nsid psdt none, readStop s nsid slba (nlb + 1)]) (nsxOf nsid) slba
    (fun s c => c.acceptIo s.env cmd false (nsxOf nsid) slba (nlb + 1) (if (c.ns (nsxOf nsid)).any (·.zoned) then 0xFFFF else 0) none []) s

/-- What stops a write on its addresses, its directive and its zone's state (R292, R295, R296, R300). -/
def writeStop (s : State) (nsid slba k dtype dspec : Nat) : Option (NStat × Nat) :=
  match s.chip.ns (nsxOf nsid) with
  | none => none
  | some n =>
    match rangeStop n slba k with
    | some x => some x
    | none =>
      if n.zoned then
        let z := slba / Nat.max 1 n.zsze
        let y := n.zone z
        if s.chip.zoneState (nsxOf nsid) z y = .full then some (stZoneFull, 0)
        else if n.crosses slba k n.zcap then some (stZoneBoundary, 0)
        else if slba % Nat.max 1 n.zsze ≠ y.assigned then some (stZoneWrite, 0)
        else none
      else if dtype ≠ 0 ∧ dtype ≠ 2 then some (stField, 0)
      else if dtype = 2 ∧ n.handles.length ≤ dspec then some (stField, 0)
      else none

/-- A write into a zone: the zone opens by R294, and the sectors are assigned to the command. -/
def Chip.acceptZoned (c : Chip) (e : Env) (cmd : Cmd) (nsx lba k : Nat) (append : Bool) (data : List Sector) : Chip :=
  match c.ns nsx with
  | none => c
  | some n =>
    let z := lba / Nat.max 1 n.zsze
    match c.openZone nsx z .impOpen with
    | .error x => c.completeSt cmd x cstLimit
    | .ok c1 =>
      (c1.updZone nsx z (fun y => { y with assigned := lba % Nat.max 1 n.zsze + k })).acceptIo e cmd true nsx lba k 0xFFFF
        (if append then some lba else none) data

/-- WRITE (R288). `nlb` is 0-based, as in the command. -/
def execWrite (cmd : Cmd) (nsid slba nlb psdt : Nat) (dtype dspec : Nat) (data : List Sector) (s : State) : Host.Outcome State Fault Refusal :=
  ioOp cmd (fun s => [nsStop s cmd nsid psdt none, writeStop s nsid slba (nlb + 1) dtype dspec]) (nsxOf nsid) slba
    (fun s c =>
      if (c.ns (nsxOf nsid)).any (·.zoned) then c.acceptZoned s.env cmd (nsxOf nsid) slba (nlb + 1) false data
      else c.acceptIo s.env cmd true (nsxOf nsid) slba (nlb + 1) (if dtype = 2 then dspec else 0) none data) s

/-- FLUSH (R288): it completes at once. NSID FFFFFFFFh names every namespace (NVMe). -/
def execFlush (cmd : Cmd) (nsid : Nat) (s : State) : Host.Outcome State Fault Refusal :=
  ioOp cmd (fun s => [if nsid = 0xFFFFFFFF then none else nsStop s cmd nsid 0 none]) (nsxOf nsid)
    (((s.chip.ns (nsxOf nsid)).map (·.size)).getD 0) (fun _ c => c.complete cmd stOk 0 0) s

/-- Sectors of a conventional namespace lose their data (R306): their entries point to nothing. -/
def Chip.deallocate (c : Chip) (e : Env) (nsx lba k : Nat) : Chip :=
  (List.range k).foldl (fun c i => if c.entryNow nsx (lba + i) = 0 then c else c.setEntry e nsx (lba + i) 0) c

/-- WRITE_ZEROES (R306), in conventional namespaces: sectors without data read as zeros. -/
def execWriteZeroes (cmd : Cmd) (nsid slba nlb : Nat) (s : State) : Host.Outcome State Fault Refusal :=
  ioOp cmd (fun s => [nsStop s cmd nsid 0 (some false),
      (s.chip.ns (nsxOf nsid)).bind (fun n => if n.size < slba + nlb + 1 then some (stRange, 0) else none)]) (nsxOf nsid) slba
    (fun s c => (c.deallocate s.env (nsxOf nsid) slba (nlb + 1)).complete cmd stOk 0 0) s

/-- DATASET_MANAGEMENT (R306): the ranges of a Deallocate, each a first LBA and a number of sectors. -/
def execDatasetManagement (cmd : Cmd) (nsid : Nat) (ranges : List (Nat × Nat)) (s : State) : Host.Outcome State Fault Refusal :=
  ioOp cmd (fun s => [nsStop s cmd nsid 0 (some false),
      (s.chip.ns (nsxOf nsid)).bind (fun n => if ranges.any (fun r => decide (n.size < r.1 + r.2)) then some (stRange, 0) else none)])
    (nsxOf nsid) ((ranges.headD (0, 0)).1)
    (fun s c => (ranges.foldl (fun c r => c.deallocate s.env (nsxOf nsid) r.1 r.2) c).complete cmd stOk 0 0) s

/-! Zones (R292-R298). -/

/-- The address of a zone command is not the first sector of a zone. -/
def zoneStop (s : State) (nsid zslba : Nat) (all : Bool) : Option (NStat × Nat) :=
  match s.chip.ns (nsxOf nsid) with
  | none => none
  | some n =>
    if all then none
    else if n.size ≤ zslba then some (stRange, 0)
    else if zslba % Nat.max 1 n.zsze ≠ 0 then some (stField, 0)
    else none

/-- What stops an append (R292, R298). -/
def appendStop (s : State) (nsid zslba k : Nat) : Option (NStat × Nat) :=
  match s.chip.ns (nsxOf nsid) with
  | none => none
  | some n =>
    let z := zslba / Nat.max 1 n.zsze
    let y := n.zone z
    if 512 < k then some (stField, 0)
    else if s.chip.zoneState (nsxOf nsid) z y = .full then some (stZoneFull, 0)
    else if n.zcap < y.assigned + k then some (stZoneBoundary, 0)
    else none

/-- ZONE_APPEND (R298): its LBA is assigned at acceptance. -/
def execZoneAppend (cmd : Cmd) (nsid zslba nlb psdt : Nat) (data : List Sector) (s : State) : Host.Outcome State Fault Refusal :=
  ioOp cmd (fun s => [nsStop s cmd nsid psdt (some true), zoneStop s nsid zslba false, appendStop s nsid zslba (nlb + 1)]) (nsxOf nsid) zslba
    (fun s c =>
      match c.ns (nsxOf nsid) with
      | none => c
      | some n => c.acceptZoned s.env cmd (nsxOf nsid) (zslba + (n.zone (zslba / Nat.max 1 n.zsze)).assigned) (nlb + 1) true data) s

/-- The zones that an operation with Select All works on, in ZSLBA order: open works on Closed zones, close on open ones, finish on open and Closed ones
(log entry 19), reset on all that hold anything (R297). -/
def Chip.zonesFor (c : Chip) (op nsx : Nat) : List Nat :=
  match c.ns nsx with
  | none => []
  | some n =>
    (n.zones.filter (fun p =>
      let st := c.zoneState nsx p.1 p.2
      match op with
      | 1 => st == .closed
      | 2 => st.isOpen
      | 3 => st.active
      | _ => st != .empty || decide (0 < p.2.assigned))).map (·.1)

/-- The first status that the lifecycle state HOLD gives a reset of the zones (R297). -/
def holdReset (s : State) (nsx : Nat) (zs : List Nat) : Option Nat :=
  if s.fuse.lifecycle ≠ .hold then none else zs.head?.map (fun z => if (s.chip.zone nsx z).protected then cstSealed else cstHold)

/-- A zone management operation is taken: it waits for what was accepted before it (R297, R361). A reset is decided by HOLD at its acceptance, and what is
accepted behind it finds the zone empty. -/
def zoneSend (op : Nat) (cmd : Cmd) (nsid zslba : Nat) (all : Bool) (s : State) : Host.Outcome State Fault Refusal :=
  ioOp cmd (fun s => [nsStop s cmd nsid 0 (some true), zoneStop s nsid zslba all]) (nsxOf nsid)
    (if all then ((s.chip.ns (nsxOf nsid)).map (·.size)).getD 0 else zslba)
    (fun s c =>
      match c.ns (nsxOf nsid) with
      | none => c
      | some n =>
        let nsx := nsxOf nsid
        let zs := if all then c.zonesFor op nsx else [zslba / Nat.max 1 n.zsze]
        match (if op = 4 then holdReset s nsx zs else none) with
        | some st => c.completeSt cmd .zoneReset st
        | none =>
          let clear := fun (c : Chip) (z : Nat) => if (c.zone nsx z).protected then c else c.updZone nsx z (fun y => { y with assigned := 0 })
          let c1 := { c with host := { c.host with zoneOps := c.host.zoneOps ++ ([⟨cmd, op, nsx, zs, all, c.host.nextItem⟩] : List ZoneOp) } }
          if op = 4 then zs.foldl clear c1 else c1) s

/-- ZONE_OPEN (R294). -/
def execZoneOpen (cmd : Cmd) (nsid zslba : Nat) (all : Bool) (s : State) : Host.Outcome State Fault Refusal := zoneSend 1 cmd nsid zslba all s

/-- ZONE_CLOSE (R361). -/
def execZoneClose (cmd : Cmd) (nsid zslba : Nat) (all : Bool) (s : State) : Host.Outcome State Fault Refusal := zoneSend 2 cmd nsid zslba all s

/-- ZONE_FINISH (R295). -/
def execZoneFinish (cmd : Cmd) (nsid zslba : Nat) (all : Bool) (s : State) : Host.Outcome State Fault Refusal := zoneSend 3 cmd nsid zslba all s

/-- ZONE_RESET (R297). -/
def execZoneReset (cmd : Cmd) (nsid zslba : Nat) (all : Bool) (s : State) : Host.Outcome State Fault Refusal := zoneSend 4 cmd nsid zslba all s

/-- ZONE_OFFLINE (R292): Invalid Field in Command. -/
def execZoneOffline (cmd : Cmd) (nsid zslba : Nat) (s : State) : Host.Outcome State Fault Refusal :=
  ioOp cmd (fun s => [nsStop s cmd nsid 0 (some true), some (stField, 0)]) (nsxOf nsid) zslba (fun _ c => c) s

/-- SET_ZONE_DESCRIPTOR_EXT (R292): Invalid Field in Command. -/
def execSetZoneDescriptorExt (cmd : Cmd) (nsid zslba : Nat) (s : State) : Host.Outcome State Fault Refusal :=
  ioOp cmd (fun s => [nsStop s cmd nsid 0 (some true), some (stField, 0)]) (nsxOf nsid) zslba (fun _ c => c) s

/-- A zone state's code in a zone descriptor. -/
def ZState.code : ZState → Nat
  | .empty => 1 | .impOpen => 2 | .expOpen => 3 | .closed => 4 | .full => 14

/-- The zone report from a zone on (log entry 26): the number of zones, then a 64-byte descriptor for each. -/
def Chip.zoneReport (c : Chip) (nsx z0 : Nat) : List Byte :=
  match c.ns nsx with
  | none => []
  | some n =>
    let zs := (List.range n.zoneCount).drop z0
    let one := fun (z : Nat) =>
      let y := n.zone z
      leBytes 1 2 ++ leBytes 1 (y.state.code * 16) ++ leBytes 6 0 ++ leBytes 8 n.zcap ++ leBytes 8 (z * n.zsze) ++ leBytes 8 (z * n.zsze + y.wp) ++ leBytes 32 0
    leBytes 8 zs.length ++ leBytes 56 0 ++ zs.flatMap one

/-- ZONE_MANAGEMENT_RECEIVE (R292): the report goes to the host. -/
def execZoneManagementReceive (cmd : Cmd) (nsid zslba : Nat) (s : State) : Host.Outcome State Fault Refusal :=
  ioOp cmd (fun s => [nsStop s cmd nsid 0 (some true), zoneStop s nsid zslba false]) (nsxOf nsid) zslba
    (fun _ c =>
      match c.ns (nsxOf nsid) with
      | none => c
      | some n => (c.answerDma cmd.fn (c.zoneReport (nsxOf nsid) (zslba / Nat.max 1 n.zsze))).complete cmd stOk 0 0) s

/-- INVALID_OPCODE (R306): an admin opcode on queue 0, an I/O opcode on another queue. -/
def execInvalidOpcode (cmd : Cmd) (_opc : Nat) (s : State) : Host.Outcome State Fault Refusal :=
  if cmd.sq = 0 then
    adminChip cmd (fun s c => if lifecycleRefuses s then c.replySt cmd .other cstLife else c.replyN cmd stOpcode) s
  else
    onItems (fun c =>
      if (c.func cmd.fn).phase ≠ .enabled then c
      else match ioStop s with
        | some (st, d) => c.complete cmd st d 0
        | none => c.complete cmd stOpcode 0 0) s

end Sys2Proof.Machine
end

