-- ==== Sys2Proof/Machine/Power.lean ====
section
/-! DEFINITION. The power manager: power states, DVFS, supply faults, hold-up energy and the rail ADC (R423-R437, R443, R444, R451, R452, R493). -/

namespace Sys2Proof.Machine

/-- A bit of PMU_FAULT is set, with the event "power fault" (R423, R434, R438, R445, R493). -/
def Chip.pmuFault (c : Chip) (bit : Nat) : Chip := (c.orReg Reg.pmuFault (2 ^ bit)).raise0 324

/-! The core clock (R435). -/

/-- The point the power manager wants: the ceiling in force, or the boot point of 1.0 GHz while it is not enabled. -/
def Chip.wantPoint (c : Chip) : Nat := if c.bit Reg.pmuCtrl 0 then c.ceiling else 2

/-- A vote stands on the hub or on a region (R437). -/
def Chip.voted (c : Chip) : Bool := c.reg Reg.pmuSvote != 0

/-- The VID of a point (R453). -/
def Env.vid (e : Env) (pt : Nat) : Nat := e.power.vid.getD pt 40

/-- The thermal ceiling alone holds the clock down: throttling acts whatever the votes (R437). -/
def Chip.throttled (c : Chip) : Bool := decide (Nat.max (psCeiling c.pmu.ps) c.pmu.ceiling < c.pmu.thermal)

/-- The request that runs ends: PMU_REQ_RES. -/
def Chip.pmuDone (c : Chip) (st : Nat) : Chip :=
  if c.pmu.req.isNone then c
  else
    let c1 := (c.setReg Reg.pmuReqRes (2 ^ 31 + st)).setBit Reg.pmuReq 31 false
    { c1 with pmu := { c1.pmu with req := none } }

/-- A request whose state and point are reached ends with OK. -/
def Chip.pmuSettle (c : Chip) : Chip :=
  let steady := decide (c.pmu.phase = .steady) && c.pmu.dvfs.isNone && decide (c.pmu.point = c.wantPoint)
  match c.pmu.req with
  | some (0, a) => if decide (c.pmu.ps = a) && decide (c.pmu.phase = .steady) && (decide (3 ≤ a) || steady) then c.pmuDone cstOk else c
  | some (_, _) => if steady then c.pmuDone cstOk else c
  | none => c

/-- A change of point starts (R435): lowering is announced for the tick after next; raising moves the VID first. -/
def Chip.dvfsStart (c : Chip) (e : Env) : Chip :=
  let w := c.wantPoint
  let x := c.pmu
  if x.dvfs.isSome || w == x.point || c.pmu.flush.isSome || decide (4 ≤ x.ps) || (c.voted && x.req.isNone && !c.throttled) then c
  else if x.point < w then { c with pmu := { x with dvfs := some ⟨w, x.point, some (c.tick + 2), c.tick⟩ } }
  else { c with pmu := { x with
    dvfs := some ⟨w, x.point, none, c.tick⟩
    vid := e.vid w } }

/-- A change of point whose boundary has come is made; a lowered one moves the VID after it. -/
def Chip.dvfsBoundary (c : Chip) (e : Env) : Chip :=
  match c.pmu.dvfs with
  | some d =>
    match d.effect with
    | some t =>
      if t ≤ c.tick then
        { c with pmu := { c.pmu with
          point := d.point
          vid := e.vid d.point
          dvfs := none } }.pmuSettle
      else c
    | none => c
  | none => c.pmuSettle

/-- DVFS_CHANGE (R435). -/
def execDvfsChange (s : State) : Host.Outcome State Fault Refusal := onChip (fun c => c.dvfsStart s.env) s

/-- VDD_SETTLED (R435): the raise is announced for the tick after next. -/
def execVddSettled (s : State) : Host.Outcome State Fault Refusal :=
  onChip (fun c =>
    match c.pmu.dvfs with
    | some d => if d.effect.isNone then { c with pmu := { c.pmu with dvfs := some { d with effect := some (c.tick + 2) } } } else c
    | none => c) s

/-! Requests and idleness (R424, R426, R427, R437). -/

/-- The request that runs is carried out, once the power manager is enabled. -/
def Chip.pmuAct (c : Chip) : Chip :=
  if !c.bit Reg.pmuCtrl 0 then c
  else
    match c.pmu.req with
    | some (0, a) =>
      if a < 3 ∧ c.pmu.ps < 3 then
        { c with pmu := { c.pmu with
          ps := a
          left := a
          target := a
          phase := .steady } }.pmuSettle
      else if c.pmu.ps < a then { c with pmu := { c.pmu with target := a } }
      else if c.pmu.ps = a then c.pmuSettle
      else { c with pmu := { c.pmu with
        phase := .exiting
        target := a
        left := if a < 3 then a else c.pmu.left } }
    | some (_, p) => { c with pmu := { c.pmu with ceiling := p } }.pmuSettle
    | none => c

/-- PMU_REQ.GO with its operands (R424, R437, R505). A normal-world request that would clock or gate a voted domain is refused whole; a point below the
floor is refused as a state below it is (log entry 29). -/
def Chip.pmuRequest (c : Chip) (secure : Bool) (op arg : Nat) : Chip :=
  if c.pmu.req.isSome then c
  else
    let floor := c.fld Reg.calFloor 1 0
    let moves := if op = 0 then decide (arg ≠ c.pmu.ps) else decide (Nat.max (psCeiling c.pmu.ps) (Nat.max arg c.pmu.thermal) ≠ c.ceiling)
    let st := firstFail [
      (!secure && c.voted && moves, cstSecure),
      (decide (2 ≤ op) || (op == 0 && decide (4 < arg)) || (op == 1 && decide (3 < arg)), cstBad),
      (c.contracts != [] && ((op == 0 && (decide (3 ≤ arg) || decide (floor < psCeiling arg))) || (op == 1 && decide (floor < arg))), cstContract)]
    let c1 := (c.setReg Reg.pmuReq (2 ^ 31 + op % 8 * 2 ^ 28 + arg % 8)).setReg Reg.pmuReqRes 0
    let c2 := { c1 with pmu := { c1.pmu with req := some (op, arg) } }
    if st ≠ cstOk then c2.pmuDone st else if secure then (c2.wakeSee .secure).pmuAct else c2.pmuAct

/-- PMU_SET_STATE (R437). -/
def execPmuSetState (acc : Access) (ps : Nat) (s : State) : Host.Outcome State Fault Refusal := onChip (fun c => c.pmuRequest acc.secure 0 ps) s

/-- PMU_SET_CEILING (R435). -/
def execPmuSetCeiling (acc : Access) (pt : Nat) (s : State) : Host.Outcome State Fault Refusal := onChip (fun c => c.pmuRequest acc.secure 1 pt) s

/-- The enabled PFs (R426). -/
def Chip.enabledPfs (c : Chip) : List Fn := (c.fn.fns.filter (fun p => p.2.phase == .enabled && p.2.vf == 0)).map (·.2)

/-- The package is idle in this tick (R427); an outstanding Asynchronous Event Request does not count. -/
def Chip.pkgIdle (c : Chip) : Bool :=
  c.host.cmds == [] && c.host.zoneOps == [] && c.host.admin == [] && !c.pmu.busy && c.boom.request.isNone && c.boom.svcs == [] &&
    !c.fn.fns.any (fun p => p.2.phase == .enabled && p.2.sqs.any (fun q => decide (0 < q.waits)))

/-- The state that a PF permits by its APST entry (R427): entry 3 in PS3. -/
def Chip.apstOf (c : Chip) (x : Fn) : Nat :=
  let (itps, itpt) := x.feat.apst.getD (Nat.min c.pmu.ps 3) (0, 0)
  if x.feat.apste ∧ itpt ≠ 0 ∧ itpt * 125 ≤ c.pmu.idle then itps else c.pmu.ps

/-- The state that the package moves to of its own (R427); a state that R424 refuses, or that a vote stands against, is skipped. -/
def Chip.apstWant (c : Chip) : Nat :=
  match (c.enabledPfs.map c.apstOf) with
  | [] => c.pmu.ps
  | x :: xs => if c.contracts != [] || c.voted then c.pmu.ps else xs.foldl Nat.min x

/-- The state that is to be entered: requested, or permitted. -/
def Chip.wantState (c : Chip) : Nat := if c.pmu.ps < c.pmu.target then c.pmu.target else c.apstWant

/-- PS3_ENTRY (R429): at a boundary at which the package is idle. No new best-effort work is booked and every FILLING group is padded. -/
def Chip.ps3Entry (c : Chip) (e : Env) : Chip :=
  let w := c.wantState
  if !c.bit Reg.pmuCtrl 0 || c.pmu.phase != .steady || decide (3 ≤ c.pmu.ps) || decide (w < 3) || !c.pkgIdle || c.pmu.flush.isSome ||
      c.contracts != [] then c
  else
    let c1 := { c with pmu := { c.pmu with
      phase := .entering
      target := w
      left := c.pmu.ps
      entryTick := c.tick
      commitDone := false } }
    (c1.map.groups.filter (fun g => g.phase == .filling)).foldl (fun c g => (c.padNow e g.id true).2) c1

/-- PS3_ENTRY (R429). -/
def execPs3Entry (s : State) : Host.Outcome State Fault Refusal := onItems (fun c => c.ps3Entry s.env) s

/-- Every booked operation has ended, nothing is dirty, and the grown table is in flash (R429). -/
def Chip.quiet (c : Chip) : Bool :=
  c.cal.jobs == [] && c.cal.starts == [] && decide (c.dirtyCount = 0) && c.map.groups == [] && c.map.grown.all (·.inFlash) &&
    !c.cal.dies.any (fun d => d.2.op.isSome || d.2.reading.isSome || d.2.entries != [])

/-- The commit point of PS3 (R429): the regions are gated, and the near pool is not retained. -/
def ps3Commit (s : State) : State :=
  let c := s.chip
  if c.pmu.phase = .entering ∧ c.pmu.ps < 3 ∧ c.quiet ∧ c.pmu.flush = none then
    let c1 := { c with
      buf := { c.buf with bufs := c.buf.bufs.filter (fun b => !isNear b.1) }
      pmu := { c.pmu with
        ps := 3
        commitDone := true
        phase := if c.pmu.target = 4 then .entering else .steady } }
    { s with
      mem := { s.mem with near := [] }
      chip := c1.pmuSettle }
  else s

/-- PS3_COMMIT_POINT (R429). -/
def execPs3CommitPoint (s : State) : Host.Outcome State Fault Refusal := .next (ps3Commit s)

/-- PS4_ENTRY (R430): from PS3, whether it was just entered on the way or stands. -/
def Chip.ps4Entry (c : Chip) : Chip :=
  let w := c.wantState
  if !c.bit Reg.pmuCtrl 0 || c.pmu.ps != 3 || w != 4 || c.pmu.flush.isSome || !(c.pmu.phase == .steady || (c.pmu.phase == .entering && c.pmu.commitDone)) then c
  else
    let c1 := { c with pmu := { c.pmu with
      phase := .entering
      target := 4
      entryTick := c.tick
      commitDone := false
      commits := [] } }
    c1.raise0 300

/-- PS4_ENTRY (R430). -/
def execPs4Entry (s : State) : Host.Outcome State Fault Refusal := onChip (fun c => c.ps4Entry) s

/-- IE of the world that a warden core runs in. -/
def WardenCore.ie (x : WardenCore) : Bool := bitOf (Tab.get (fun _ => (0 : Dword)) x.csr (if x.secure then 0 else 0x1000)).toNat 2

/-- Every active warden core has committed its mirror and executed WFI with IE = 0 (R430). -/
def Chip.coresReady (c : Chip) : Bool :=
  (List.range 4).all (fun p =>
    let w := c.warden (c.activeCore p)
    w.fenced || (c.pmu.commits.contains p && w.waiting && !w.ie))

/-- The PS4 entry runs, before its commit point. -/
def Chip.inPs4Entry (c : Chip) : Bool := c.pmu.phase == .entering && c.pmu.ps == 3 && !c.pmu.commitDone

/-- PS4_COMMIT_POINT (R430): DRAM self-refreshes, every key slot is zeroed, the hub is gated, and the Boom ports go DOWN. -/
def Chip.ps4Commit (c : Chip) : Chip :=
  if !c.inPs4Entry || !c.coresReady then c
  else
    let c1 := c.keyZero
    let c2 := (List.range 4).foldl (fun c n =>
      let p := (c.port n).phase
      if p = .up ∨ p = .keying ∨ p = .train then c.boomDown n else c) c1
    { c2 with pmu := { c2.pmu with
      ps := 4
      phase := .steady
      commitDone := true } }.pmuSettle

/-- PS4_COMMIT_POINT (R430). -/
def execPs4CommitPoint (s : State) : Host.Outcome State Fault Refusal := onChip (fun c => c.ps4Commit) s

/-- PS4_ENTRY_ABANDON (R430): some core is not ready 125 ticks after event 300. The status of a request that ends so is a free value (log entry 29). -/
def Chip.ps4Abandon (c : Chip) : Chip :=
  if !c.inPs4Entry || c.coresReady || decide (c.tick < c.pmu.entryTick + 125) then c
  else
    let (st, c1) := c.pick 20
    let c2 := { c1 with pmu := { c1.pmu with
      phase := .steady
      target := 3 } }
    (c2.pmuDone st).raise0 325

/-- PS4_ENTRY_ABANDON (R430). -/
def execPs4EntryAbandon (s : State) : Host.Outcome State Fault Refusal := onChip (fun c => c.ps4Abandon) s

/-- A wake abandons the entry of a request that runs: how it ends is a free value (log entry 29). -/
def Chip.wakeAct (c : Chip) (w : WakeSource) : Chip :=
  let c1 := c.wakeSee w
  if c.pmu.phase = .entering ∧ c1.pmu.phase ≠ .entering ∧ c1.pmu.req.isSome then
    let (st, c2) := c1.pick 20
    c2.pmuDone st
  else c1

/-- WAKE_EVENT (R433). A Boom order wakes in PS3 only. -/
def execWakeEvent (src : WakeSource) (s : State) : Host.Outcome State Fault Refusal :=
  onChip (fun c => if src = .boom ∧ c.pmu.ps ≠ 3 then c else c.wakeAct src) s

/-- PMU_TIMER_EXPIRY (R433): the tick that PMU_TIMER names has opened. -/
def execPmuTimerExpiry (s : State) : Host.Outcome State Fault Refusal :=
  onChip (fun c =>
    let t := c.reg Reg.pmuTimerLo + c.fld Reg.pmuTimerHi 15 0 * 2 ^ 32
    if t ≠ 0 ∧ t = c.tick then c.wakeAct .timer else c) s

/-- PF requests that named PS3 or PS4 become the operational state that the package left (R426). -/
def Chip.requestsLeft (c : Chip) (ps : Nat) : Chip :=
  { c with fn := { c.fn with
    fns := c.fn.fns.map (fun p => (p.1, { p.2 with feat := { p.2.feat with power := if 3 ≤ p.2.feat.power then ps else p.2.feat.power } })) } }

/-- The sensor that serves a node (R448, R454): a cluster sensor 0-31, or 32 + i for thermistor i of the node's group. -/
def Env.nodeSensor (e : Env) (k : Nat) : Option Nat :=
  let n := k % 40
  if n < 8 then some (k / 40 * 8 + n)
  else
    let mine := fun (i : Nat) =>
      let m := e.thermal.tmap.getD i 0
      bitOf m 7 && decide (bitsOf m 5 4 = k / 40) && decide (bitsOf m 1 0 = (n - 8) / 8)
    ((List.range 16).find? mine).map (· + 32)

/-- A sensor. -/
def Chip.sensor (c : Chip) (i : Nat) : Sensor := Tab.get (fun _ => Sensor.fresh) c.thm.sensors i

/-- Puts a sensor. -/
def Chip.setSensor (c : Chip) (i : Nat) (x : Sensor) : Chip :=
  { c with thm := { c.thm with sensors := Tab.set (fun _ => Sensor.fresh) c.thm.sensors i x } }

/-- A node of the thermal model, by region * 40 + node. -/
def Chip.node (c : Chip) (k : Nat) : Int := Tab.get (fun _ => 0) c.thm.nodes k

/-- Puts a node: signed, 32 bits (R447). -/
def Chip.setNode (c : Chip) (k : Nat) (t : Int) : Chip :=
  { c with thm := { c.thm with nodes := Tab.set (fun _ => 0) c.thm.nodes k (Int.bmod t (2 ^ 32)) } }

/-- Exit from PS3 (R432): the rail stands at the target's point, the regions are back, their nodes take their sensors' values or t_amb (R447), and planning
resumes. -/
def Chip.ps3Exit (c : Chip) (e : Env) : Chip :=
  if c.pmu.phase ≠ .exiting ∨ c.pmu.ps ≠ 3 then c
  else if 3 ≤ c.pmu.target then { c with pmu := { c.pmu with phase := .steady } }.pmuSettle
  else
    let value := fun (k : Nat) =>
      match (e.nodeSensor k).map c.sensor with
      | some s => if s.seen then s.val else c.thm.tAmb
      | none => c.thm.tAmb
    let c0 := (List.range (40 * e.part.regions)).foldl (fun c k => c.setNode k (value k)) c
    let c1 := { c0 with
      pmu := { c.pmu with
        ps := c.pmu.target
        phase := .steady
        wakePending := false
        retried := false
        dvfs := none
        commitDone := false } }
    let w := c1.wantPoint
    ({ c1 with pmu := { c1.pmu with
      point := w
      vid := e.vid w } }.requestsLeft c.pmu.target).pmuSettle.calStart

/-- PS3_EXIT (R432). -/
def execPs3Exit (s : State) : Host.Outcome State Fault Refusal := onItems (fun c => c.ps3Exit s.env) s

/-- Exit from PS4 (R432): the hub is back, the warden cores start in the boot ROM and WP0 reloads the key store; the exit from PS3 follows. -/
def Chip.ps4Exit (c : Chip) (kill : Bool) : Chip :=
  if c.pmu.phase ≠ .exiting ∨ c.pmu.ps ≠ 4 then c
  else
    let boot := (List.range 8).foldl (fun c w =>
      if (c.warden w).fenced then c else c.setWarden w { WardenCore.fresh with beat := c.tick }) c
    ({ boot with pmu := { boot.pmu with
      ps := 3
      commitDone := false } }).keyReloadAll kill

/-- PS4_EXIT (R432). -/
def execPs4Exit (s : State) : Host.Outcome State Fault Refusal := onChip (fun c => c.ps4Exit s.fuse.kill) s

/-- CAP_EXCEED (R423): the controller power of a tick; 125 ticks in a row above the state's cap set the fault. -/
def execCapExceed (mw : Nat) (s : State) : Host.Outcome State Fault Refusal :=
  onChip (fun c =>
    let cap := [55000, 40000, 25000, 2500, 180].getD c.pmu.ps 55000
    let run := if cap < mw then c.pmu.capRun + 1 else 0
    let c1 := { c with pmu := { c.pmu with capRun := if 125 ≤ run then 0 else run } }
    if 125 ≤ run then c1.pmuFault 0 else c1) s

/-- VCORE_PG_LOW (R493). -/
def execVcorePgLow (s : State) : Host.Outcome State Fault Refusal := onChip (fun c => if c.pmu.dvfs.isNone then c.pmuFault 1 else c) s

/-! Package faults (R44). -/

/-- A region, a channel die or the hub die is lost: it is fenced, and the controller enters degraded hold. -/
def Chip.packageFence (c : Chip) (e : Env) (p : PackageRef) : Chip :=
  let (bit, chans) := match p with
    | .region g => (g, (List.range 32).map (fun k => g * 32 + k))
    | .die d => (4 + d, (List.range 64).map (fun k => d * 64 + k))
    | .hub => (6, [])
  let c1 := { c with rcu := { c.rcu with package := c.rcu.package ||| 2 ^ bit } }
  ((chans.filter e.chanPresent).foldl (fun c n => c.fenceChan e n false) c1).enterHold 7

/-- The part has what is said to fail. -/
def Env.hasPackage (e : Env) : PackageRef → Bool
  | .region g => decide (g < e.part.regions)
  | .die d => decide (d * 2 < e.part.regions)
  | .hub => true

/-- PACKAGE_FAULT (R44). -/
def execPackageFault (p : PackageRef) (s : State) : Host.Outcome State Fault Refusal :=
  onItems (fun c => if s.env.hasPackage p then c.packageFence s.env p else c) s

/-- A supply or clock is not ready within its limit (R434). -/
def Chip.supplyFails (c : Chip) (e : Env) (what : SupplyFail) : Chip :=
  match what with
  | .raise exiting second =>
    let c1 := c.pmuFault 1
    if exiting then (if second then c1.enterHold 7 else { c1 with pmu := { c1.pmu with retried := true } })
    else
      match c.pmu.dvfs with
      | some d =>
        if d.effect.isSome then c1
        else { c1 with pmu := { c1.pmu with
          vid := e.vid d.old
          dvfs := none } }.pmuDone cstTimeout
      | none => c1
  | .lower => c.pmuFault 5
  | .regionSwitch g second => if second && e.hasPackage (.region g) then (c.pmuFault 2).packageFence e (.region g) else c.pmuFault 2
  | .pll second =>
    let c1 := c.pmuFault 3
    if second then
      { c1 with
        pmu := { c1.pmu with pllHeld := true }
        rcu := { c1.rcu with phase := .inReset } }
    else c1

/-- SUPPLY_TIMEOUT (R434). -/
def execSupplyTimeout (what : SupplyFail) (s : State) : Host.Outcome State Fault Refusal := onItems (fun c => c.supplyFails s.env what) s

/-! Hold-up energy (R443, R444). -/

/-- E_REQ in mJ (R443): of the committed budget, with whole watts as the manual's arithmetic gives them. -/
def Chip.eReq (c : Chip) (e : Env) : Nat := 8 * (40 + c.fld Reg.calNrgBudget 23 0 / 8000 + e.power.pBoard)

/-- Usable energy of the store in mJ at a voltage in mV (R443). -/
def PowerRec.usable (p : PowerRec) (mv : Nat) : Nat := p.capUf * (mv * mv - p.vMin * p.vMin) * p.eff / (200 * 10 ^ 9)

/-- The causes of SHORT stand (R444). -/
def Chip.shortCause (c : Chip) (e : Env) : Bool :=
  decide (c.pmu.emeas < c.eReq e) || c.pmu.vholdOver || decide (e.power.holdMj < c.eReq e)

/-- SHORT is set while a cause stands, with the event "hold-up short". -/
def Chip.holdCheck (c : Chip) (e : Env) : Chip :=
  if c.shortCause e && !c.pmu.short then
    { c with pmu := { c.pmu with
      short := true
      shortOk := 0 } }.raise0 299
  else c

/-- SHORT at a boundary (R444): it clears once E_MEAS has stood at 1.05 x E_REQ for 125 ticks in a row and no cause remains. -/
def Chip.shortBoundary (c : Chip) (e : Env) : Chip :=
  let c0 := c.holdCheck e
  let ok := if c0.eReq e * 105 ≤ c0.pmu.emeas * 100 then c0.pmu.shortOk + 1 else 0
  { c0 with pmu := { c0.pmu with
    shortOk := Nat.min ok 125
    short := c0.pmu.short && !(decide (125 ≤ ok) && !c0.shortCause e) } }

end Sys2Proof.Machine
end

