-- ==== Sys2Proof/Machine/Records.lean ====
section
/-! DEFINITION. The checks of the records of the option block at start-up (R8, R103, R139, R141, R410, R453, R454, R465). A record is held decoded:
its reserved bytes are not part of it (log entry 30). -/

namespace Sys2Proof.Machine

/-! The board, mode, power, thermal and Boom records. -/

/-- A mode's figures lie in the ranges of CAL_MODE_A and CAL_MODE_B (R465). -/
def ModeRec.ok (m : ModeRec) : Bool :=
  decide (1 ≤ m.tr) && decide (m.tr ≤ 255) && decide (1 ≤ m.tsus) && decide (m.tsus ≤ 15) && decide (1 ≤ m.tres) && decide (m.tres ≤ 15) &&
    decide (m.smax ≤ 6) && decide (1 ≤ m.lmin) && decide (m.lmin ≤ 4095) && decide (1 ≤ m.tprog) && decide (m.tprog ≤ 4095) &&
    decide (1 ≤ m.tbers) && decide (m.tbers ≤ 4095) && decide (m.eallow ≤ 15)

/-- The board record and the mode record hold values of R465. -/
def BoardRec.ok (b : BoardRec) : Bool :=
  decide (b.links < 16) && [128, 256].contains b.dramGib && [4800, 5600, 6400].contains b.ddrMts && decide (2 ≤ b.farGib) && decide (b.farGib ≤ 32) &&
    decide (1 ≤ b.mapGib) && decide (b.mapGib ≤ 128) && decide (1 ≤ b.patrol) && decide (b.patrol ≤ 60) && decide (b.floor ≤ 2) &&
    decide (1 ≤ b.deadline) && decide (b.deadline ≤ 199) && decide (b.modes.length = 3) && b.modes.all ModeRec.ok

/-- Every two neighbours of a list stand in the order `p`. -/
def inOrder {α : Type} (p : α → α → Bool) : List α → Bool
  | a :: b :: t => p a b && inOrder p (b :: t)
  | _ => true

/-- The power record holds values of R453. -/
def PowerRec.ok (p : PowerRec) : Bool :=
  decide (50 ≤ p.eff) && decide (p.eff ≤ 100) && decide (p.vMin < p.vFull) && decide (p.vid.length = 4) &&
    p.vid.all (fun v => decide (10 ≤ v) && decide (v ≤ 50)) && inOrder (fun a b => decide (b ≤ a)) p.vid

/-- The thermal record holds values of R454. -/
def ThermalRec.ok (t : ThermalRec) : Bool :=
  (decide (t.amb ≤ 15) || t.amb == 0xFF) && decide (1 ≤ t.gain) && decide (t.gain ≤ 16) && decide (1 ≤ t.nbDelta) && decide (t.nbDelta ≤ 30) &&
    decide (t.thTable.length = 16) && inOrder (fun a b => decide (b < a)) (t.thTable.map (·.1))

/-- No entry of a list stands in it twice. -/
def distinct : List Nat → Bool
  | [] => true
  | a :: t => !t.contains a && distinct t

/-- The Boom record holds values of R410; a part without Boom has none (R464). -/
def Env.boomOk (e : Env) : Bool :=
  let nbs := (e.boom.nb.take 4).filter (· != 0xFFFF)
  !e.part.full || (decide (e.boom.node ≤ 16383) && !nbs.contains e.boom.node && distinct nbs)

/-! Modes and the band tables. -/

/-- The program modes in use: SLC-mode and the native mode of every part (R465). -/
def Env.modeUsed (e : Env) (m : Nat) : Bool := m == 0 || e.nand.parts.any (fun p => p.cell == m)

/-- CAL_MODE_A of a mode by the mode record. -/
def Env.modeA (e : Env) (m : Nat) : Nat :=
  match e.board.modes[m]? with
  | some x => x.tr + x.tsus * 2 ^ 8 + x.tres * 2 ^ 12 + x.lmin * 2 ^ 16 + x.smax * 2 ^ 28
  | none => 0

/-- CAL_MODE_B of a mode by the mode record. -/
def Env.modeB (e : Env) (m : Nat) : Nat :=
  match e.board.modes[m]? with
  | some x => x.tprog + x.tbers * 2 ^ 12 + x.eallow * 2 ^ 24 + b2n (e.modeUsed m) * 2 ^ 28
  | none => 0

/-- CAL_NRG of a mode and kind by the NAND record, at index m * 4 + k (R100). -/
def Env.nrgWord (e : Env) (i : Nat) : Nat := match e.nand.energy[i]? with | some (issue, run) => issue * 65536 + run | none => 0

/-- 16-bit numbers that stand little-endian in bytes. -/
def halves (bs : List Byte) : List Nat := (List.range (bs.length / 2)).map (fun i => leNat (sliceBytes bs (2 * i) 2))

/-- A list is strictly ascending. -/
def ascending (xs : List Int) : Bool := inOrder (fun a b => decide (a < b)) xs

/-- An entry of a band table: DELTA 1-63, and 0 in the bytes above LEVELS (R139, R141). -/
def bandEntryOk (levels : Nat) (x : List Byte) : Bool :=
  let d := leNat (x.take 1)
  decide (1 ≤ d) && decide (d ≤ 63) && (x.drop (levels + 1)).all (fun b => b == 0)

/-- A band table passes the check of R141. -/
def bandOk (bs : List Byte) : Bool :=
  let at_ := fun (i : Nat) => leNat (sliceBytes bs i 1)
  let ints := fun (xs : List Nat) => xs.map (fun (n : Nat) => (n : Int))
  decide (bs.length = 4144) && decide (at_ 1 ≤ 2) && at_ 2 == [1, 7, 15].getD (at_ 1) 0 && at_ 3 == 0 && at_ 0x15 == 0 &&
    (sliceBytes bs 0x24 12).all (fun b => b == 0) && ascending (ints (halves (sliceBytes bs 0x04 14))) &&
    ascending ((sliceBytes bs 0x12 3).map BitVec.toInt) && ascending (ints (halves (sliceBytes bs 0x16 14))) &&
    (List.range 256).all (fun i => bandEntryOk (at_ 2) (sliceBytes bs (0x30 + 16 * i) 16))

/-- The band table slots in use, part * 3 + mode (R141, R464). -/
def Env.bandSlots (e : Env) : List Nat := e.nand.parts.zipIdx.flatMap (fun p => [p.2 * 3, p.2 * 3 + p.1.cell])

/-- Every part and mode in use has a band table, and each table passes its check (R141). -/
def Env.bandsOk (e : Env) : Bool :=
  e.bandSlots.all (fun i => e.bands.any (fun b => b.1 == i)) && e.bands.all (fun b => bandOk b.2)

/-- The record checks of step 3 that fail with cause 2 (R410, R453, R454, R465). -/
def Env.recordsOk (e : Env) : Bool := e.board.ok && e.power.ok && e.thermal.ok && e.boomOk

/-! The NAND record (R103). -/

/-- A failed check of R103: its number, the channel and the chip enable, 0xFF where it concerns neither, and the part descriptor's index. -/
structure NandFail where
  check : Nat
  chan : Nat
  ce : Nat
  part : Nat
  deriving DecidableEq, Repr

/-- The header passes check 1 (R100, R109). -/
def Env.nandHeadOk (e : Env) : Bool :=
  let fig := fun (m : Nat) => figOf (e.modeA m) (e.modeB m)
  let nrg := fun (m k : Nat) => nrgOf (e.nrgWord (m * 4 + k))
  e.nand.version == 1 && decide (1 ≤ e.nand.parts.length) && decide (e.nand.parts.length ≤ 4) && decide (1 ≤ e.nand.grownLimit) &&
    decide (e.nand.grownLimit ≤ 1024) && decide (e.nand.budget < 2 ^ 24) && decide (budgetFloor fig nrg ≤ e.nand.budget)

/-- A part descriptor passes check 1 (R101). -/
def NandPart.ok (p : NandPart) : Bool :=
  decide (p.iface ≤ 1) && decide (1 ≤ p.cell) && decide (p.cell ≤ 2) && decide (1 ≤ p.planes) && decide (p.planes ≤ 6) && decide (1 ≤ p.luns) &&
    decide (p.luns ≤ 8) && decide (2048 ≤ p.spare) && decide (1 ≤ p.blocks) && decide (p.blocks ≤ 65535) && decide (p.mark ≤ 3) && p.reserved == 0

/-- The checks that a channel entry fails (checks 2-4 of R103). -/
def Env.chanFails (e : Env) (n : Nat) : List NandFail :=
  let x := e.chan n
  let p := e.partDesc x.part
  let ext := bitOf x.flags 0
  let named := decide (x.part < e.nand.parts.length)
  if x.part = 0xFF then []
  else
    (if named && decide (0 < x.ceMask) && decide (x.ceMask < 16) && (rateCode x.rate).isSome then [] else [⟨2, n, 0xFF, 0⟩]) ++
    (if named && ((ext && p.rateExt == 0) || decide ((if ext then p.rateExt else p.rateStd) < x.rate) || (decide (3600 < x.rate) && !ext)) then
      [⟨3, n, 0xFF, 0⟩] else []) ++
    (if e.chanPresent n then [] else [⟨4, n, 0xFF, 0⟩])

/-- Every failure of R103, checks 5 and 6 as the start-up found them. -/
def Env.nandFails (e : Env) (found : List (Nat × Nat)) : List NandFail :=
  (if e.nandHeadOk then [] else [⟨1, 0xFF, 0xFF, 0⟩]) ++
    (e.nand.parts.zipIdx.filter (fun p => !p.1.ok)).map (fun p => ⟨1, 0xFF, 0xFF, p.2⟩) ++
    (List.range 128).flatMap e.chanFails ++
    (found.filter (fun f => e.dieDeclared f.1 && (f.2 == 5 || f.2 == 6))).map (fun f => ⟨f.2, f.1 / 32, f.1 % 32 / 8, 0⟩)

/-- The fault log entry of a failure (R103, R124). -/
def Chip.logNandFail (c : Chip) (f : NandFail) : Chip :=
  c.raise 326 (if f.check = 5 then 0x83 else if f.check = 6 then 0x84 else cstBad) 0xFFFF (f.chan + f.ce * 2 ^ 8 + f.check * 2 ^ 16) f.part

end Sys2Proof.Machine
end

