-- ==== Sys2Proof/Machine/Reset.lean ====
section
/-! DEFINITION. The landing flush, the reset sources, the wipes and the loss of power (R438-R445, R455-R461, R506). -/

namespace Sys2Proof.Machine

/-! The landing flush (R439-R441, R445). -/

/-- The pages of the open groups with what they hold: what the refuge keeps, with each page's origin (R440, R441, log entry 31). -/
def Chip.refugePages (c : Chip) : List RefugePage :=
  c.map.groups.flatMap (fun g => g.pages.map (fun p =>
    ⟨g.cls.bufKind, g.id, p, (List.range 4).map (c.landed p.buf), (c.buffer p.buf).since * 65536, false⟩))

/-- Buffers that the flush writes: dirty ones that hold no parity (R440). -/
def Chip.flushWrites (c : Chip) : Nat := c.countBufs (fun _ b => b.dirty && b.kind != 2)

/-- A die whose operations are given up (R440). -/
def Die.flushed (d : Die) : Die :=
  { Die.fresh with
    phase := if d.phase = .fenced then .fenced else .idle
    present := d.present
    retired := d.retired }

/-- Plans are abandoned and every running program or erase is broken off (R440). -/
def Chip.dropPlans (c : Chip) : Chip :=
  { c with cal := { c.cal with
    dies := c.cal.dies.map (fun p => (p.1, p.2.flushed))
    jobs := []
    starts := []
    committed := []
    queues := []
    delivered := []
    energy := []
    maint := none } }

/-- Host work that has not reached the landing is discarded and never acknowledged (R440). -/
def Chip.dropHostWork (c : Chip) : Chip :=
  { c with
    host := { c.host with
      items := []
      cmds := []
      zoneOps := []
      admin := []
      replies := [] }
    kerf := { c.kerf with cores := c.kerf.cores.map (fun p => (p.1, { p.2 with inv := none, core := KCore.fresh 0 })) }
    map := { c.map with missq := [] } }

/-- PMU_FLUSH_STAT: the cause, DONE, the ticks, saturating, and the buffers written. -/
def flushStat (cause : Nat) (done : Bool) (ticks written : Nat) : Nat :=
  cause % 8 * 2 ^ 29 + b2n done * 2 ^ 28 + satTo 1023 ticks * 2 ^ 16 + satTo 65535 written

/-- The regions' groups are gated, or a flush holds the refuge already: a trigger writes nothing (R445, R461). -/
def Chip.nothingToFlush (c : Chip) : Bool := decide (3 ≤ c.pmu.ps) || c.map.refugeHeld

/-- A trigger of the landing flush (R439): the first one starts it; a second one is recorded in PMU_FAULT only (R445). An announced change of point that
has not been made is cancelled. -/
def Chip.flushStart (c : Chip) (cause : Nat) : Chip :=
  match c.pmu.flush with
  | some _ => (c.orReg Reg.pmuFault (2 ^ (6 + cause - 1))).raise0 324
  | none =>
    let pages := if c.nothingToFlush then c.map.refuge else c.refugePages
    let n := if c.nothingToFlush then 0 else c.flushWrites
    let c1 := (c.dropPlans.dropHostWork.setReg Reg.pmuFlushStat (flushStat cause false 0 0)).pass
    { c1 with
      pmu := { c1.pmu with
        flush := some ⟨cause, c.tick, n⟩
        phase := .flushing
        dvfs := none
        req := none }
      dram := { c1.dram with flush := true }
      map := { c1.map with
        refuge := pages
        refugeTime := if c.nothingToFlush then c1.map.refugeTime else c.stamp } }

/-- The flush has programmed its last parity: DONE, and the grown entries of its manifests are in flash (R440, R441). -/
def Chip.flushDone (c : Chip) (f : Flush) : Chip :=
  let c1 := c.setReg Reg.pmuFlushStat (flushStat f.cause true (c.tick - f.started) f.written)
  { c1 with
    pmu := { c1.pmu with
      flush := none
      phase := .steady }
    dram := { c1.dram with flush := false }
    map := { c1.map with
      refugeHeld := decide (c1.map.refuge ≠ [])
      grown := c1.map.grown.map (fun g => { g with inFlash := true }) } }

/-! The wipes (R456, R459, R460). -/

/-- What a reset keeps of the mapping engine: the tables with every journalled change, and the sectors in flash (R174). `full`: MAP_CTRL.FULL, which takes effect now (R179). -/
def MapState.kept (m : MapState) (full : Bool) : MapState :=
  { Chip.reset.map with
    cords := m.cords
    spares := m.spares
    factory := m.factory
    grown := m.grown
    blocks := m.blocks
    cblks := m.cblks
    nextCblk := m.nextCblk
    groups := m.groups
    nextGroup := m.nextGroup
    flash := m.flash
    entries := m.slots.foldl (fun t p => p.2.held.foldl (fun t h => Tab.set (fun _ => 0) t h.1 h.2) t) m.entries
    packed := m.packed
    dir := m.dir
    full := full
    formed := m.formed
    mark := m.mark
    markSeq := m.markSeq
    refuge := m.refuge
    refugeHeld := m.refugeHeld
    refugeTime := m.refugeTime
    ratio := m.ratio
    sampled := m.sampled }

/-- A namespace as its table in flash holds it: contracts and moves end with the reset. -/
def Ns.kept (n : Ns) : Ns :=
  { n with
    move := none }

/-- What a reset keeps of the host engine: namespaces, placement, progress and firmware slots. -/
def HostState.kept (h : HostState) : HostState :=
  { Chip.reset.host with
    nss := h.nss.map (fun p => (p.1, p.2.map Ns.kept))
    fdp := h.fdp
    progress := { h.progress with cmd := none }
    fwActive := h.fwActive
    fwSlots := h.fwSlots }

/-- Programs and bindings that the tables in flash hold: those that drain are gone. -/
def KerfState.kept (k : KerfState) : KerfState :=
  { Chip.reset.kerf with
    slots := k.slots.filter (fun p => !p.2.any (·.draining))
    binds := k.binds.filter (fun p => !p.2.any (·.draining)) }

/-- What a reset keeps of the seal engine: the log, its epoch and the epoch records that wait for their signature. -/
def SealState.kept (x : SealState) : SealState :=
  { x with
    strike := none
    strikeSid := none
    from_ := []
    raw := [] }

/-- RCU_CAUSE and RCU_HELD, which say what the reset was, stay through a lifecycle reset (log entry 32). -/
def Chip.keepCause (old new : Chip) : Chip :=
  (new.setReg Reg.rcuCause (old.reg Reg.rcuCause)).setReg Reg.rcuHeld (old.reg Reg.rcuHeld)

/-- Every block returns to its reset values, except what R456 keeps: the tick, the fault log and the RWS fields in a warm reset, the flash tables and the
vault in every one. -/
def Chip.afterReset (c : Chip) : Chip :=
  let power := decide (c.rcu.kind = 0)
  let warm := decide (c.rcu.kind = 1)
  let z := Chip.reset
  let r : Chip := { z with
    regs := { z.regs with cur := if warm then keepRws c.regs.cur else [] }
    time := if power then z.time else c.time
    obs := { z.obs with
      log := if warm then c.obs.log.map (fun x => { x with warm := true }) else []
      logHead := if warm then c.obs.logHead else 0
      tallyStart := if power then 0 else c.tick * 65536
      tallyEnd := if power then z.obs.tallyEnd else c.tick + z.obs.tallyEnd }
    resp := c.resp
    host := c.host.kept
    kerf := c.kerf.kept
    map := c.map.kept (c.bit Reg.mapCtrl 2)
    key := { z.key with
      vault := c.key.vault
      locked := c.key.locked && !power
      entropy := c.key.entropy
      anchorWords := c.key.anchorWords }
    sealer := c.sealer.kept
    boom := { z.boom with align := if c.boom.align = 3 && !power then 3 else z.boom.align }
    pmu := { z.pmu with
      pwrLow := c.pmu.pwrLow && !power
      refLost := c.pmu.refLost && !power
      pllHeld := c.pmu.pllHeld && !power }
    rcu := { z.rcu with
      kind := c.rcu.kind
      cause := c.rcu.cause
      rstLow := c.rcu.rstLow
      rstLowSince := if power then 0 else c.rcu.rstLowSince
      rstTicks := if power then [] else c.rcu.rstTicks
      rstHighSince := if power then 0 else c.rcu.rstHighSince
      heldLog := c.rcu.heldLog && !power
      wiped := true }
    free := c.free }
  if warm || power then r else c.keepCause r

/-- The memories after the wipes: a warm reset zeroes the warden region of DRAM, any other one leaves nothing (R459, R460). -/
def Memories.wiped (m : Memories) (warm : Bool) : Memories :=
  { m with
    near := []
    sram := []
    dram := if warm then Mem.zeroRange m.dram 0 (2 ^ 30) else [] }

/-- Steps 2-4 of a reset (R459). -/
def resetWipe (s : State) : State :=
  { s with
    mem := s.mem.wiped (decide (s.chip.rcu.kind = 1))
    chip := s.chip.afterReset }

/-- The flush that runs ends, and the reset goes on with its wipes (R440, R459). -/
def flushEnd (s : State) : State :=
  match s.chip.pmu.flush with
  | none => s
  | some f => resetWipe { s with chip := s.chip.flushDone f }

/-- LANDING_FLUSH_END (R440). -/
def execLandingFlushEnd (s : State) : Host.Outcome State Fault Refusal := .next (flushEnd s)

/-- A flush with nothing to write ends at once (R445, R459). -/
def flushAtOnce (s : State) : State := if s.chip.nothingToFlush then flushEnd s else s

/-! Reset sources (R455-R461). -/

/-- The storm latch (R458): it clears at the first reset after RST_N has stood high for 125,000 ticks, and sets with the ninth warm reset that RST_N
starts within 125,000 ticks. -/
def Chip.storm (c : Chip) (byPin : Bool) : Chip :=
  let calm := (byPin || !c.rcu.rstLow) && decide (c.rcu.rstHighSince + 125000 ≤ c.tick)
  let old := if calm then [] else c.rcu.rstTicks.filter (fun t => decide (c.tick < t + 125000))
  let ticks := if byPin then old ++ [c.tick] else old
  let c1 := { c with rcu := { c.rcu with rstTicks := ticks } }
  let c2 := if calm then c1.setBit Reg.rcuStatus 16 false else c1
  if 8 < ticks.length then c2.setBit Reg.rcuStatus 16 true else c2

/-- A reset of a cause begins: RCU_CAUSE, and the phase (R455, R456, R501). -/
def Chip.resetBegins (c : Chip) (cause kind : Nat) : Chip :=
  let c1 := (c.setFld Reg.rcuCause 3 0 cause).bump Reg.rcuCause 31 16 1
  { c1 with rcu := { c1.rcu with
    cause := cause
    kind := kind } }

/-- The block enters reset: HOLD_N is released, and any degraded hold ends (R456, R501). -/
def Chip.enterReset (c : Chip) : Chip :=
  let c1 := c.setFld Reg.rcuCause 15 8 0
  { c1 with rcu := { c1.rcu with
    phase := .inReset
    holdCause := 0
    holdN := true
    kind := 1
    cause := 0
    wiped := false } }

/-- The cause of the flush that a reset runs (R438, R439, R450). -/
def flushCause (cause : Nat) : Nat := if cause = 6 then 3 else if cause = 7 then 4 else 5

/-- The kind of a reset (R455). -/
def resetKind (cause : Nat) : Nat := if cause = 5 then 2 else 1

/-- A reset source (R455). While a reset runs it is recorded in RCU_CAUSE.SEEN, and a lifecycle reset that meets a warm one before its wipes makes it a
lifecycle reset (R461). A flush that PLN_N or VIN started takes the first source that meets it as its reset's cause (log entry 33). -/
def resetSource (cause : Nat) (s : State) : State :=
  let c := s.chip
  if c.rcu.phase = .inReset then
    let c1 := if c.rcu.cause = 0 then (c.storm (cause == 2)).resetBegins cause c.rcu.kind else c.orReg Reg.rcuCause (2 ^ (7 + cause))
    let c2 := if cause = 5 && c.rcu.kind == 1 && !c.rcu.wiped then { c1 with rcu := { c1.rcu with kind := 2 } } else c1
    { s with chip := if c.pmu.flush.isSome then c2.flushStart (flushCause cause) else c2 }
  else
    let c1 := ((c.storm (cause == 2)).enterReset).resetBegins cause (resetKind cause)
    flushAtOnce { s with chip := c1.flushStart (flushCause cause) }

/-- RST_N_LOW (R457): the filter has passed a low pulse. -/
def execRstNLow (s : State) : Host.Outcome State Fault Refusal :=
  .next (if s.chip.rcu.rstLow then s
    else
      let t := resetSource 2 s
      { t with chip := { t.chip with rcu := { t.chip.rcu with
        rstLow := true
        rstLowSince := s.chip.tick } } })

/-- RST_N_HIGH (R457): RCU_HELD counts the pulse, which the fault log records when the controller leaves reset. -/
def execRstNHigh (s : State) : Host.Outcome State Fault Refusal :=
  onChip (fun c =>
    if !c.rcu.rstLow then c
    else
      let c1 := c.setReg Reg.rcuHeld (satTo 0xFFFFFFFF (c.tick - c.rcu.rstLowSince))
      { c1 with rcu := { c1.rcu with
        rstLow := false
        rstHighSince := c.tick
        heldLog := true } }) s

/-- RCU_WARM (R455). -/
def execRcuWarm (s : State) : Host.Outcome State Fault Refusal := .next (resetSource 3 s)

/-- RCU_LIFECYCLE (R455): a normal-world write is ignored. -/
def execRcuLifecycle (acc : Access) (s : State) : Host.Outcome State Fault Refusal := .next (if acc.secure then resetSource 5 s else s)

/-- SYSTEM_RESET_TICK (R419, R420): the agreed tick has opened. A strike that is due is made first; a LOCKED package resets, and its request, if it made
one, has ended with the order. -/
def systemReset (s : State) : State :=
  let c := s.chip
  match c.boom.resetTick with
  | none => s
  | some t =>
    if c.tick < t then s
    else
      let c0 := { c with boom := { c.boom with resetTick := none } }
      let c1 := if c0.sealReady && c0.strikeDue then (c0.strike s.env true).2 else c0
      let c2 := match c1.boom.request with
        | some (3, _) => c1.requestDone cstOk 0 0
        | _ => c1
      if c.boom.align = 1 then resetSource 4 { s with chip := c2 } else { s with chip := c2 }

/-- SYSTEM_RESET_TICK (R419). -/
def execSystemResetTick (s : State) : Host.Outcome State Fault Refusal := .next (systemReset s)

/-- REF_LOSS (R438): the fault, and the reset with its flush. -/
def execRefLoss (s : State) : Host.Outcome State Fault Refusal :=
  .next (if s.chip.pmu.refLost then s
    else
      let c := s.chip.pmuFault 4
      let t := resetSource 6 { s with chip := c }
      { t with chip := { t.chip with pmu := { t.chip.pmu with refLost := true } } })

/-- REF_RESTORED (R438): the reference has counted correctly for 125 ticks. -/
def execRefRestored (s : State) : Host.Outcome State Fault Refusal := onChip (fun c => { c with pmu := { c.pmu with refLost := false } }) s

/-- A loss of input power (R439, R445): the flush runs, and the controller then stays in reset as after a warm reset. In reset there is nothing to flush. -/
def powerTrigger (cause : Nat) (s : State) : State :=
  let c := s.chip
  let low := fun (t : State) => { t with chip := { t.chip with pmu := { t.chip.pmu with pwrLow := true } } }
  if c.rcu.phase = .inReset then
    low { s with chip := if c.pmu.flush.isSome then c.flushStart cause else c }
  else low (flushAtOnce { s with chip := c.enterReset.flushStart cause })

/-- PLN_N_LOW (R439). -/
def execPlnNLow (s : State) : Host.Outcome State Fault Refusal := .next (powerTrigger 1 s)

/-- VIN_TRIP (R439). -/
def execVinTrip (s : State) : Host.Outcome State Fault Refusal := .next (powerTrigger 2 s)

/-- POWER_RECOVERY (R445): PLN_N is high and VIN is back; a flush that runs goes on. -/
def execPowerRecovery (s : State) : Host.Outcome State Fault Refusal := onChip (fun c => { c with pmu := { c.pmu with pwrLow := false } }) s

/-! Loss of power (R456). -/

/-- A flush that power cut short has written its first `n` pages only (log entry 34). -/
def loseFrom (n : Nat) (rs : List RefugePage) : List RefugePage := rs.zipIdx.map (fun p => { p.1 with lost := p.1.lost || decide (n ≤ p.2) })

/-- What flash keeps of the landing when power goes: the refuge of a finished flush; a free number of pages of one that runs; of no flush, only pages
whose programs had passed (R456, R502, log entry 34). -/
def Chip.cutLanding (c : Chip) : Chip :=
  match c.pmu.flush with
  | some _ =>
    if c.map.refugeHeld then c
    else
      let (n, c1) := c.pick (c.map.refuge.length + 1)
      { c1 with map := { c1.map with
        refuge := loseFrom n c1.map.refuge
        refugeHeld := decide (c1.map.refuge ≠ []) } }
  | none =>
    if c.map.refugeHeld || c.map.groups == [] then c
    else { c with map := { c.map with
      refuge := c.refugePages.map (fun r => { r with lost := !r.page.passed })
      refugeHeld := true
      refugeTime := c.stamp } }

/-- The controller loses all that power holds, and stands in a power-on reset (R456). -/
def powerCycle (s : State) : State :=
  let c := s.chip.cutLanding
  resetWipe { s with chip := { c with rcu := { c.rcu with
    kind := 0
    cause := 1 } } }

/-- POWER_LOSS (R456): VDD_AON is below its level; nothing leaves reset before POWER_ON. -/
def execPowerLoss (s : State) : Host.Outcome State Fault Refusal :=
  let t := powerCycle s
  .next { t with chip := { t.chip with pmu := { t.chip.pmu with pllHeld := true } } }

/-- POWER_ON (R455): VDD_AON reaches its power-good level. -/
def execPowerOn (s : State) : Host.Outcome State Fault Refusal := .next (powerCycle s)

/-! Lifecycle (R374). -/

/-- LIFECYCLE_PROVISION (R374): the factory boot image on WP0 moves BLANK to PROVISIONED: slots zeroed, the vault created empty. The reset of R375
follows. -/
def lifecycleProvision (s : State) : State :=
  if s.fuse.lifecycle ≠ .blank then s
  else
    let c := s.chip.keyZero
    resetSource 5 { s with
      fuse := { s.fuse with provisioned := true }
      chip := { c with key := { c.key with vault := [] } } }

/-- LIFECYCLE_PROVISION (R374). -/
def execLifecycleProvision (s : State) : Host.Outcome State Fault Refusal := .next (lifecycleProvision s)

end Sys2Proof.Machine
end

