-- ==== Sys2Proof/Machine/Startup.lean ====
section
/-! DEFINITION. Start-up: its steps, the refuge replay and the causes of degraded hold (R103, R300-R301, R442-R444, R462-R470, R506). One command runs
every step, with what the outside found at each as its operand (log entry 35). -/

namespace Sys2Proof.Machine

/-! Contracts that a namespace saves (R177, R178, R218, R301). -/

/-- Every map page of a namespace is resident and pinned (R177, log entry 36). -/
def Chip.residentAll (c : Chip) (nsx : Nat) : Chip :=
  ((List.range (c.pinPages nsx)).map (fun i => nsx * 2 ^ 29 + i)).foldl (fun c p => c.fetchDone p) c

/-- The program of some binding of a namespace can reach SQZ (R218). -/
def Chip.sqzBound (c : Chip) (nsx : Nat) : Bool :=
  c.kerf.binds.any (fun p => p.2.any (fun b => b.nsx == nsx && !b.draining && (c.slotProg b.slot).any (fun g => bitOf g.effects 1)))

/-- A read contract is bound (R301): WP2 pins a conventional namespace's map and then binds through CAL_ADMIT_REQ. The status, and the chip. -/
def Chip.bindContract (c : Chip) (e : Env) (nsx cdw11 : Nat) : Nat × Chip :=
  match c.ns nsx with
  | none => (cstBad, c)
  | some n =>
    if c.sqzBound nsx then (cstContract, c)
    else if !n.zoned && c.pinCheck nsx != cstOk then (cstContract, c)
    else
      let c1 := if n.zoned then c else (c.pinNs nsx).residentAll nsx
      c1.admissionOp e 1 ⟨nsx, bitsOf cdw11 2 0, bitsOf cdw11 11 8, bitOf cdw11 7, 2 ^ n.mode⟩

/-- Saved contracts are bound again; a refused one leaves the namespace best effort, raises an asynchronous event and sets the contract state of log 0xC1
(R301). -/
def Chip.rebind (c : Chip) (e : Env) : Chip :=
  let one := fun (c : Chip) (nsx : Nat) =>
    match (c.ns nsx).bind (·.saved) with
    | none => c
    | some w =>
      let (st, c1) := c.bindContract e nsx w
      if st = cstOk then c1.updNs nsx (fun n => { n with refusedAtStart := false })
      else
        let c2 := c1.updNs nsx (fun n => { n with refusedAtStart := true })
        match (c2.ns nsx).bind (·.owner) with
        | none => c2
        | some f => (c2.updFn f (fun x => { x with contractLost := true })).asyncEvent f 7 0
  (c.host.nss.map (·.1)).foldl one c

/-! The refuge replay (R470). -/

/-- A buffer for a page of the refuge: in the near pool while it has one free, else in the far pool. -/
def Chip.replayBuf (c : Chip) (e : Env) (kind fn : Nat) : Nat × Chip :=
  let put := fun (h : Nat) (ch : Charge) (c : Chip) => c.setBuffer h ⟨kind, ownerFn kind fn, ch, 1, c.tick, true⟩
  match (List.range e.part.regions).find? (fun r => decide (c.nearUsed r < nearPerRegion)) with
  | some r =>
    let used := (c.buf.bufs.filter (fun x => isNear x.1 && handleRegion x.1 == r && decide (0 < x.2.refs))).map (fun x => x.1 % nearPerRegion)
    let (k, c1) := c.pick (nearPerRegion - c.nearUsed r)
    let h := nearHandle r (kthFree used 0 k)
    (h, put h (if kind = 0 then .shareNear else .nearReserve) c1)
  | none =>
    let used := (c.buf.bufs.filter (fun x => !isNear x.1 && decide (0 < x.2.refs))).map (fun x => x.1 - 2 ^ 31)
    let (k, c1) := c.pick (c.farCount - c.farUsed)
    let h := farHandle (kthFree used 0 k)
    (h, put h (if kind = 0 then .shareFar else .farReserve) c1)

/-- The owner function of a page's namespace. -/
def Chip.nsOwner (c : Chip) (nsx : Nat) : Nat := ((c.ns nsx).bind (·.owner)).getD 0

/-- Step 2 of R470: every page of the refuge is read into a landing buffer. The buffers by the pages' old ones, and the chip. -/
def Chip.replayPages (c : Chip) (e : Env) : List (Nat × Nat) × Chip :=
  c.map.refuge.foldl (fun (a : List (Nat × Nat) × Chip) r =>
    let (h, c1) := a.2.replayBuf e r.kind (a.2.nsOwner r.page.nsx)
    (a.1 ++ [(r.page.buf, h)], r.sectors.zipIdx.foldl (fun c x => c.setLanded h x.2 x.1) c1)) ([], c)

/-- A map entry that names an old landing buffer names the new one. -/
def remapWord (m : List (Nat × Nat)) (w : Nat) : Nat :=
  if bitOf w 63 && bitOf w 62 && !bitOf w 61 then
    match m.find? (fun p => p.1 == w % 2 ^ 32) with
    | some p => w - w % 2 ^ 32 + p.2
    | none => w
  else w

/-- The groups, the map and the directory name the new buffers. -/
def Chip.remap (c : Chip) (m : List (Nat × Nat)) : Chip :=
  let buf := fun (h : Nat) => ((m.find? (fun p => p.1 == h)).map (·.2)).getD h
  { c with map := { c.map with
    entries := c.map.entries.map (fun p => (p.1, remapWord m p.2))
    packed := c.map.packed.map (fun p => (p.1, p.2.1, remapWord m p.2.2.1, p.2.2.2.1, p.2.2.2.2))
    dir := c.map.dir.map (fun p => (p.1, remapWord m p.2))
    groups := c.map.groups.map (fun g => { g with pages := g.pages.map (fun p => { p with buf := buf p.buf }) }) } }

/-- Fresh parity buffers of a group: replay computes parity from the data (R440). -/
def Chip.replayParity (c : Chip) (e : Env) (g : Group) : Chip :=
  let (hs, c1) := (List.range g.parity.length).foldl (fun (a : List Nat × Chip) _ =>
    let (h, c1) := a.2.replayBuf e 2 0
    (a.1 ++ [h], c1)) ([], c)
  c1.updGroup g.id (fun g => { g with
    parity := hs
    lost := []
    plRows := [] })

/-- Pages of the refuge that are lost: those that the flush did not write, and those that did not decode. -/
def Chip.refugeGone (c : Chip) (bad : List Nat) : List RefugePage :=
  (c.map.refuge.zipIdx.filter (fun p => p.1.lost || (bad.contains p.2 && !p.1.page.passed))).map (·.1)

/-- A lost page takes steps 2-4 of R163 with every other lost page of its row. -/
def Chip.loseGone (c : Chip) (e : Env) (gone : List RefugePage) : Chip :=
  let mark := fun (c : Chip) (r : RefugePage) =>
    c.updGroup r.grp (fun g => { g with lost := g.lost ++ [(r.page.row, some r.page.slot, r.page.plane)] })
  let take := fun (c : Chip) (r : RefugePage) =>
    if (c.group r.grp).any (fun g => g.lost.any (fun l => l.1 == r.page.row)) then c.parityLost e r.grp r.page.row else c
  gone.foldl take (gone.foldl mark c)

/-- The placement of an aborted group found no cord block. -/
def Chip.unplaced (c : Chip) (g : Group) : Bool :=
  (c.group g.id).any (fun g => g.replace && (match g.zone with | some (z, l) => decide (((c.zone g.nsx z).lane l).length < 9) | none => true))

/-- The refuge replay (R470): whether it completes, and the chip. -/
def Chip.replay (c : Chip) (e : Env) (bad : List Nat) : Bool × Chip :=
  let gone := c.refugeGone bad
  let (m, c1) := c.replayPages e
  let c2 := c1.remap m
  let c3 := c2.map.groups.foldl (fun c g => c.replayParity e g) c2
  let c4 := c3.loseGone e gone
  let c5 := (c4.map.groups.map (·.id)).foldl (fun c i => c.replaceGroup e i) c4
  let ok := gone.all (fun r => r.kind == 0 || r.kind == 5) && c5.map.groups.all (fun g => !c5.unplaced g)
  (ok, { c5 with map := { c5.map with
    refuge := []
    refugeHeld := false } })

/-! The steps of start-up (R467). -/

/-- The controller leaves reset (R444, R457, R475): the fault log records it, and hold-up is short until the store has been measured. -/
def Chip.leaveReset (c : Chip) : Chip :=
  let c1 := c.raise 311 c.rcu.cause 0xFFFF 0 (c.reg Reg.rcuHeld)
  { c1 with
    rcu := { c1.rcu with
      phase := .starting
      heldLog := false }
    pmu := { c1.pmu with
      short := true
      shortOk := 0 } }

/-- Step 2 (R463, R339): firmware boots, key slots 2 and 3 are derived and the warden cores start. -/
def Chip.bootFirmware (c : Chip) (kill : Bool) (r : BootReport) : Chip :=
  let c1 := c.setReg Reg.rcuBoot (r.svn % 65536 * 65536 + b2n r.dirCopy * 256 + b2n r.fallback * 2 + r.slot % 2)
  let c2 := { c1 with rcu := { c1.rcu with
    bootSlot := r.slot % 2
    fallback := r.fallback
    dirCopy := r.dirCopy
    svn := r.svn } }
  let c3 := if kill || c2.key.locked then c2
    else (c2.setSlot 2 ⟨.valid, 3, sliceBytes (Config.derive 2) 0 32, 0, 0, 0⟩).setSlot 3 ⟨.valid, 3, sliceBytes (Config.derive 3) 0 48, 0, 0, 0⟩
  (List.range 8).foldl (fun c w => c.setWarden w { WardenCore.fresh with beat := c.tick }) c3

/-- Boot failure (R463). -/
def Chip.bootFails (c : Chip) : Chip :=
  { c with rcu := { c.rcu with
    phase := .bootFail
    holdN := false } }

/-- Step 3: the records' values are in the registers (R100, R435, R465). -/
def Chip.loadRecords (c : Chip) (e : Env) : Chip :=
  let c1 := (List.range 12).foldl (fun c i => c.loadFld (Reg.calNrg i) 31 0 (e.nrgWord i)) (c.loadFld Reg.calNrgBudget 23 0 e.nand.budget)
  let c2 := (List.range 3).foldl (fun c m => (c.loadFld (Reg.calModeA m) 31 0 (e.modeA m)).loadFld (Reg.calModeB m) 31 0 (e.modeB m)) c1
  let c3 := ((c2.loadFld Reg.calFloor 1 0 e.board.floor).loadFld Reg.calPlanWin 7 0 e.board.deadline).loadFld Reg.thmCheck 4 0 e.thermal.nbDelta
  { c3 with
    pmu := { c3.pmu with
      point := 2
      vid := e.vid 2 }
    thm := { c3.thm with tAmb := e.thermal.tAmb * 65536 } }

/-- The hold-up check of R443. -/
def Chip.holdUpOk (c : Chip) (e : Env) : Bool := decide (c.eReq e ≤ e.power.holdMj) && decide (e.power.holdMj ≤ e.power.usable e.power.vFull)

/-- WIDTH of a link by the board record (R277, R465): 2 for x16, 1 for x8. -/
def BoardRec.width (b : BoardRec) (l : Nat) : Nat :=
  let (there, split) := if l < 2 then (bitOf b.links 0, bitOf b.links 1) else (bitOf b.links 2, bitOf b.links 3)
  if !there then 0 else if l % 2 = 0 then (if split then 1 else 2) else b2n split

/-- Warden firmware writes the declaration of the links and enables them (R277, R467). -/
def Chip.startLinks (c : Chip) (e : Env) : Chip :=
  let b := e.board
  let put := fun (c : Chip) (l : Nat) =>
    if b.width l = 0 then c
    else c.setReg (Reg.hostLinkCfg l) (b.fnBase.getD l 0 % 256 + b.fnCount.getD l 0 % 512 * 256 + b.width l * 2 ^ 24)
  (((List.range 4).foldl put c).linkCheck).linkEnable e 0xF

/-- Step 4: the carve (R393): after a power-on or lifecycle reset by the board record, after a warm one by the values last written. -/
def Chip.carve (c : Chip) (e : Env) (rate : Nat) : Chip :=
  let fresh := c.rcu.kind != 1 || c.fld Reg.memCarve 5 0 == 0
  let c1 := if fresh then (c.setFld Reg.memCarve 5 0 e.board.farGib).setFld Reg.mapCacheCfg 7 0 e.board.mapGib else c
  let c2 := c1.setBit Reg.memCtrl 0 true
  { c2 with dram := { c2.dram with
    rate := rate
    farNow := c2.fld Reg.memCarve 5 0
    mapNow := c2.fld Reg.mapCacheCfg 7 0 } }

/-- DRAM is trained and its carve fits (R391, R393, R400). -/
def Chip.dramFits (c : Chip) (e : Env) (r : BootReport) : Bool :=
  r.dramOk && decide (0 < r.dramRate) && decide (r.dramRate ≤ 3) && decide (c.dram.farNow + c.dram.mapNow + 2 ≤ e.board.dramGib)

/-- Step 5: a channel's configuration by the NAND record, and its bring-up (R91, R102). -/
def Chip.bringChannel (c : Chip) (e : Env) (r : BootReport) (n : Nat) : Chip :=
  let x := e.chan n
  let p := e.partDesc x.part
  if !e.chanPresent n || x.part == 0xFF then c
  else
    let cfg := x.odt % 16 + x.drive % 16 * 2 ^ 4 + x.ceMask % 16 * 2 ^ 8 + p.luns % 16 * 2 ^ 12 + p.iface % 2 * 2 ^ 18 + b2n (bitOf x.flags 0) * 2 ^ 19 +
      (rateCode x.rate).getD 0 * 2 ^ 20
    let c1 := (c.setReg (Reg.chCfg n) cfg).chStart e n
    let best := fun (ce : Nat) => ((r.training.find? (fun t => t.1 == n * 4 + ce)).map (·.2)).getD 8
    c1.bringEnd e n ((c1.declaredCe n).map best)

/-- Step 5: the factory scan and the cords, at the first start-up in PROVISIONED only (R115, R150, R151). -/
def Chip.firstCords (c : Chip) (e : Env) (lc : Lifecycle) (marks : List (Nat × Nat)) : Chip :=
  if c.map.formed || lc != .provisioned then c
  else
    let bad := (marks.filter (fun m => e.dieDeclared m.1 && decide (m.2 < (e.diePartDesc m.1).blocks))).foldl (fun l m => insertNat (m.1 * 65536 + m.2) l) []
    { c with map := { c.map with factory := bad } }.formCords e

/-- The target of the tick step (R468). -/
def Chip.stepTarget (c : Chip) : Nat :=
  1 + maxNat ([maxNat (c.sealer.log.map (fun r => beNat (sliceBytes r.bytes 16 8) / 65536)), maxNat (c.map.grown.map (fun g => g.time / 65536)), c.map.mark] ++
    (if c.map.refugeHeld then [c.map.refugeTime / 65536 + 1000] else []))

/-- The tick number steps forward (R415, R468). -/
def Chip.stepTick (c : Chip) (t : Nat) : Chip :=
  { c with
    time := { c.time with
      tick := t
      cyc := 0 }
    obs := { c.obs with
      tallyStart := t * 65536
      tallyEnd := t + c.fld Reg.logTyPeriod 23 0 } }

/-- The words of a band table, at its place in DEC_BT (R141). -/
def bandWords (slot : Nat) (bs : List Byte) : Tab Word :=
  (List.range 1036).map (fun i => (slot * 0x500 + i, BitVec.ofNat 32 (leNat (sliceBytes bs (4 * i) 4))))

/-- Band tables load into every decoder complex and commit (R141). -/
def Chip.loadBands (c : Chip) (e : Env) : Chip :=
  let words := (e.bands.flatMap (fun b => bandWords b.1 b.2)).filter (fun p => p.2 != 0)
  (List.range (8 * e.part.regions)).foldl (fun c k => c.setDec k { c.dec k with stage := words, band := words }) c

/-- Step 6 (R345, R468, R469): the tick step of a power-on start-up, the keys, the band tables and the first tick mark. -/
def Chip.stepSix (c : Chip) (e : Env) (kill : Bool) : Chip :=
  let c1 := if c.rcu.kind = 0 && decide (c.tick < c.stepTarget) then c.stepTick c.stepTarget else c
  let c2 := if c1.key.locked then c1 else c1.keyReloadAll kill
  let c3 := c2.loadBands e
  if c3.map.formed && c3.map.mark == 0 then { c3 with map := { c3.map with
    mark := c3.tick + 125000
    markSeq := c3.map.markSeq + 1 } }
  else c3

/-- A zone as start-up restores it (R467, R506): an open one is Closed, or Empty at ZSLBA; nothing beyond the write pointer is assigned. -/
def Zone.restored (y : Zone) : Zone :=
  let z := { y with
    assigned := y.wp
    firstBusy := false }
  if z.state.isOpen then z.closed else z

/-- Step 7: the tables are restored, and WP2's programs and bindings stand. -/
def Chip.restoreZones (c : Chip) : Chip :=
  { c with host := { c.host with
    nss := c.host.nss.map (fun p => (p.1, p.2.map (fun n => { n with zones := n.zones.map (fun z => (z.1, z.2.restored)) }))) } }

/-- The flush capacity that the calendar master plans (R442, log entry 10). -/
def Chip.planFlush (c : Chip) : Chip :=
  let (n, t) := Config.flushPlan c.free
  { c with free := c.free + 1 }.setReg Reg.pmuFlushCap (n % 513 * 64 + t % 1000 * 2 ^ 16)

/-- Step 9: the power manager raises the clock, saved contracts are bound again and Boom is enabled (R301, R435, R467). -/
def Chip.stepNine (c : Chip) (e : Env) : Chip :=
  let c1 := c.setBit Reg.pmuCtrl 0 true
  let c2 := { c1 with pmu := { c1.pmu with
    point := c1.ceiling
    vid := e.vid c1.ceiling } }
  let c3 := c2.rebind e
  if e.part.full then (c3.setBit Reg.boomCtrl 0 true).boomEnable e true else c3

/-- Step 10: CAL, MAP and the host engine serve, and CSTS.RDY answers CC.EN (R467). A reset storm or a thermal trip ends in degraded hold (R455, R458). -/
def Chip.stepTen (c : Chip) : Chip :=
  let c1 := ((c.setBit Reg.calCtrl 0 true).setBit Reg.mapCtrl 0 true).planFlush.calStart
  let c2 := { c1 with
    fn := { c1.fn with fns := c1.fn.fns.map (fun (p : Nat × Fn) => (p.1, { p.2 with rdy := p.2.rdy || p.2.ccEn })) }
    rcu := { c1.rcu with
      calSince := true
      phase := .ready } }
  if c2.bit Reg.rcuStatus 16 then c2.enterHold 10 else if c2.rcu.cause = 7 then c2.enterHold 9 else c2

/-- A start-up step with the cause of degraded hold that it fails with: the chip goes on, or has stopped (R467). -/
abbrev StartRes := Except Chip Chip

/-- A check of start-up: where it fails, start-up ends in degraded hold with the cause. -/
def Chip.orHold (c : Chip) (ok : Bool) (cause : Nat) : StartRes := if ok then .ok c else .error (c.enterHold cause)

/-- Steps 3 and 4 (R464, R465, R443, R393, R400). The links run in degraded hold too, once the option block is known. -/
def Chip.startHub (c : Chip) (e : Env) (r : BootReport) : StartRes :=
  if !r.optionBlockOk then c.orHold false 1
  else
    let c1 := c.loadRecords e
    if !e.recordsOk then (c1.startLinks e).orHold false 2
    else if !c1.holdUpOk e then (c1.startLinks e).orHold false 5
    else
      let c2 := (c1.carve e r.dramRate).startLinks e
      c2.orHold (c2.dramFits e r) 4

/-- Step 5 (R91-R93, R103, R151): on a mismatch one entry for each failure. -/
def Chip.startNand (c : Chip) (e : Env) (lc : Lifecycle) (r : BootReport) : StartRes :=
  let fails := e.nandFails r.nandMismatch
  let c1 := fails.foldl Chip.logNandFail c
  if fails ≠ [] then c1.orHold false 3
  else
    let c2 := ((List.range 128).foldl (fun c n => c.bringChannel e r n) c1).firstCords e lc r.factoryMarks
    c2.orHold (!(c2.map.formed && c2.map.cords == [])) 6

/-- Steps 6-8 (R141, R468-R470). The buffer pool manager and the transform complexes are enabled before the replay (log entry 35). -/
def Chip.startTables (c : Chip) (e : Env) (kill : Bool) (r : BootReport) : StartRes :=
  if !e.bandsOk then c.orHold false 2
  else
    let c1 := (c.stepSix e kill).setBit Reg.bpmCtrl 0 true
    let c2 := (List.range e.part.regions).foldl (fun c g => c.setBit (Reg.tfCtrl g) 0 true) c1
    let (ok, c3) := c2.restoreZones.replay e r.refugeLost
    c3.orHold ok 11

/-- Start-up from step 3 on. -/
def Chip.startUp (c : Chip) (e : Env) (lc : Lifecycle) (kill : Bool) (r : BootReport) : Chip :=
  match c.startHub e r with
  | .error c1 => c1
  | .ok c1 =>
    match c1.startNand e lc r with
    | .error c2 => c2
    | .ok c2 =>
      match c2.startTables e kill r with
      | .error c3 => c3
      | .ok c3 => (c3.stepNine e).stepTen

/-- Start-up may begin: the reset's steps have ended, RST_N is high, power and the reference are good (R438, R445, R467). -/
def Chip.mayStart (c : Chip) : Bool :=
  c.rcu.phase == .inReset && c.rcu.wiped && c.pmu.flush.isNone && !c.rcu.rstLow && !c.pmu.pwrLow && !c.pmu.refLost && !c.pmu.pllHeld

/-- START_UP (R467). -/
def execStartUp (rep : BootReport) (s : State) : Host.Outcome State Fault Refusal :=
  onItems (fun c =>
    if !c.mayStart then c
    else if !rep.firmwareOk then c.leaveReset.bootFails
    else (c.leaveReset.bootFirmware s.fuse.kill rep).startUp s.env s.fuse.lifecycle s.fuse.kill rep) s

end Sys2Proof.Machine
end

