-- ==== Sys2Proof/Machine/Thermal.lean ====
section
/-! DEFINITION. The thermal model, its sensors and limits, the rail ADC, and the end of a tick's planning (R49, R50, R446-R452). -/

namespace Sys2Proof.Machine

/-! Arithmetic of the node values. -/

/-- A quotient. The manual does not say which way one that is not whole rounds: that is a free value, and so is a quotient by 0 (log entry 37). -/
def Chip.quot (c : Chip) (n : Int) (d : Nat) : Int × Chip :=
  if d = 0 then
    let (v, c1) := c.pick (2 ^ 32)
    ((v : Int), c1)
  else if n % (d : Int) = 0 then (n / (d : Int), c)
  else
    let (v, c1) := c.pick 2
    (n / (d : Int) + (v : Int), c1)

/-- Whole degrees of a node value (R450). -/
def degrees (t : Int) : Int := t / 65536

/-- The silicon nodes of the package, by region * 40 + node (R446). -/
def Env.siNodes (e : Env) : List Nat := (List.range e.part.regions).flatMap (fun g => (List.range 8).map (fun n => g * 40 + n))

/-- The NAND nodes. -/
def Env.nandNodes (e : Env) : List Nat := (List.range e.part.regions).flatMap (fun g => (List.range 32).map (fun n => g * 40 + 8 + n))

/-- The neighbours of a node: those with the adjacent index among the nodes of its kind and region (R446). -/
def nodeNbs (k : Nat) : List Nat :=
  let n := k % 40
  let (lo, hi) := if n < 8 then (0, 7) else (8, 39)
  (if lo < n then [k - 1] else []) ++ (if n < hi then [k + 1] else [])

/-- The sum over a node's neighbours of how far it stands above each. -/
def Chip.aboveNbs (c : Chip) (k : Nat) : Int := (nodeNbs k).foldl (fun s j => s + (c.node k - c.node j)) 0

/-- The models run and the limits act (THM_CTRL.ENABLE), and the regions are not gated (R447). -/
def Chip.modelsRun (c : Chip) : Bool := c.bit Reg.thmCtrl 0 && decide (c.pmu.ps < 3)

/-! The limits (R450). -/

/-- A NAND node is at or above NAND_THR. -/
def Chip.nandHot (c : Chip) (e : Env) : Bool := e.nandNodes.any (fun k => decide ((c.fld Reg.thmLimit 7 0 : Int) ≤ degrees (c.node k)))

/-- A NAND node is at or above NAND_CRIT. -/
def Chip.nandCrit (c : Chip) (e : Env) : Bool := e.nandNodes.any (fun k => decide ((c.fld Reg.thmLimit 15 8 : Int) ≤ degrees (c.node k)))

/-- A silicon node is at or above SI_THR. -/
def Chip.siHot (c : Chip) (e : Env) : Bool := e.siNodes.any (fun k => decide ((c.fld Reg.thmLimit 23 16 : Int) ≤ degrees (c.node k)))

/-- A silicon node whose sensor is not SUSPECT is at or above SI_CRIT. -/
def Chip.siCrit (c : Chip) (e : Env) : Bool :=
  e.siNodes.any (fun k => decide ((c.fld Reg.thmLimit 31 24 : Int) ≤ degrees (c.node k)) && !(c.sensor (k / 40 * 8 + k % 40)).suspect)

/-- The nodes have moved from those of `old`: a limit that is newly reached raises its event, and the thermal trip resets the controller (R450). -/
def thermalLimits (old : Chip) (s : State) : State :=
  let c := s.chip
  let e := s.env
  if !c.modelsRun then s
  else
    let newly := (c.nandHot e && !old.nandHot e) || (c.nandCrit e && !old.nandCrit e) || (c.siHot e && !old.siHot e)
    let c1 := if newly then c.raise0 302 else c
    if c.siCrit e && !c.thm.trip then
      let c2 := c1.orReg Reg.thmStatus (2 ^ 3)
      resetSource 7 { s with chip := { c2 with thm := { c2.thm with trip := true } } }
    else { s with chip := c1 }

/-- A command that moves nodes, followed by what the limits do. -/
def onNodes (f : Chip → Chip) (s : State) : Host.Outcome State Fault Refusal := .next (thermalLimits s.chip { s with chip := f s.chip })

/-- THERMAL_STEP (R450): every 125 ticks the thermal budget and the thermal ceiling move by one step. -/
def Chip.thermalStep (c : Chip) (e : Env) : Chip :=
  if !c.modelsRun then c
  else
    let budget := c.fld Reg.calNrgBudget 23 0
    let step := budget / 16
    let cool := e.nandNodes.all (fun k => decide (degrees (c.node k) ≤ (c.fld Reg.thmLimit 7 0 : Int) - 3))
    let cut := if c.nandHot e then Nat.max c.thm.cut (Nat.min (c.thm.cut + step) (budget - budgetFloor c.fig c.nrg))
      else if cool then c.thm.cut - step else c.thm.cut
    let siCool := e.siNodes.all (fun k => decide (degrees (c.node k) ≤ (c.fld Reg.thmLimit 23 16 : Int) - 5))
    let run := if siCool then c.thm.cool + 1 else 0
    let low := if c.contracts != [] then c.fld Reg.calFloor 1 0 else 3
    let ceil := if c.siHot e then Nat.max c.pmu.thermal (Nat.min (c.pmu.thermal + 1) low)
      else if 10 ≤ run then c.pmu.thermal - 1 else c.pmu.thermal
    { c with
      thm := { c.thm with
        cut := cut
        cool := if 10 ≤ run then 0 else run }
      pmu := { c.pmu with thermal := ceil } }

/-- THERMAL_STEP (R450). -/
def execThermalStep (s : State) : Host.Outcome State Fault Refusal := onChip (fun c => c.thermalStep s.env) s

/-! The models (R447). -/

/-- LEAK at a node value, in 1/65,536,000 nJ: interpolated between the bands. Outside -20 to 120 degC the manual gives none: a free value (log entry 37). -/
def Chip.leakAt (c : Chip) (e : Env) (t : Int) : Int × Chip :=
  let row := e.thermal.leak.getD c.pmu.point []
  let d := t + 20 * 65536
  if d < 0 ∨ 140 * 65536 < d then
    let (v, c1) := c.pick (2 ^ 32)
    ((v : Int), c1)
  else
    let i := Nat.min 6 (d / (20 * 65536)).toNat
    let l0 : Int := row.getD i 0
    let l1 : Int := row.getD (i + 1) 0
    (l0 * 65536000 + (l1 - l0) * (d - (i : Int) * (20 * 65536)) * 50, c)

/-- One step of one silicon node from the values of `old`. `act` counts events of a unit class by (region * 8 + local cluster) * 8 + class; classes 4-7 belong to
the region's transform complex, and its eight nodes share them. -/
def Chip.siliconNode (old : Chip) (e : Env) (act : List (Nat × Nat)) (c : Chip) (k : Nat) : Chip :=
  let g := k / 40
  let coef := fun (u : Nat) => e.thermal.ecoef.getD u 0
  let own := sumNat (act.map (fun a => if a.1 / 64 = g ∧ a.1 / 8 % 8 = k % 40 ∧ a.1 % 8 < 4 then a.2 * coef (a.1 % 8) else 0))
  let shared := sumNat (act.map (fun a => if a.1 / 64 = g ∧ 4 ≤ a.1 % 8 then a.2 * coef (a.1 % 8) else 0))
  let (leak, c1) := c.leakAt e (old.node k)
  let gain : Int := (own * 8 + shared : Nat) * 65536 + leak * 8
  let loss : Int := (e.thermal.gAmbSi : Int) * (old.node k - old.thm.tAmb) * 4000 + (e.thermal.gNbSi : Int) * old.aboveNbs k * 4000
  let (dt, c2) := c1.quot (gain - loss) (8000 * e.thermal.cSi)
  c2.setNode k (old.node k + dt)

/-- Energy of kind `k` of a mode as its tick of issue costs it. -/
def Chip.issueCost (c : Chip) (m k : Nat) : Nat := (c.nrg m k).1 + (c.nrg m k).2

/-- Energy booked on a die for tick `t` (R105, R447). -/
def Chip.dieEnergy (c : Chip) (die t : Nat) : Nat :=
  let d := c.dieAt die t
  let cost := fun (x : CalEntry) =>
    match x.figures with
    | some (_, i, r) => i + r
    | none =>
      match x.kind with
      | .read => c.issueCost x.mode 0
      | .program => c.issueCost x.mode 1
      | .erase => c.issueCost x.mode 2
      | .suspend => (c.nrg x.mode 3).1
      | .resume => (c.nrg x.mode 3).1
      | .maint => 0
  let read := match d.reading with
    | some x => (match x.figures with | some (_, _, r) => r | none => (c.nrg x.mode 0).2)
    | none => 0
  let op := match d.op with
    | some o => (c.nrg o.mode (if d.phase == .runOpen || d.phase == .runLock || d.phase == .runSpent then (if o.kind = .erase then 2 else 1) else 3)).2
    | none => 0
  sumNat ((d.entries.filter (fun x => x.tick == t)).map cost) + read + op

/-- Energy booked on a channel's dies for tick `t`. -/
def Chip.chanEnergy (c : Chip) (chan t : Nat) : Nat := sumNat ((c.cal.dies.filter (fun p => p.1 / 32 == chan)).map (fun p => c.dieEnergy p.1 t))

/-- One step of one NAND node from the values of `old`, with the bookings of tick `t`. -/
def Chip.nandNodeStep (old : Chip) (e : Env) (t : Nat) (c : Chip) (k : Nat) : Chip :=
  let chan := k / 40 * 32 + (k % 40 - 8)
  let gain : Int := (old.chanEnergy chan t * 65536 : Nat)
  let loss : Int := (e.thermal.gAmbNand : Int) * (old.node k - old.thm.tAmb) * 8 + (e.thermal.gNbNand : Int) * old.aboveNbs k * 8
  let (dt, c1) := c.quot (gain - loss) e.thermal.cNand
  c1.setNode k (old.node k + dt)

/-- The NAND nodes step once per tick (R447), on the bookings of the tick that was planned (log entry 37). -/
def Chip.nandStep (c : Chip) (e : Env) : Chip :=
  if !c.modelsRun || decide (c.tick < c.thm.nandTick) then c
  else
    let c1 := e.nandNodes.foldl (Chip.nandNodeStep c e (c.tick + 2)) c
    { c1 with thm := { c1.thm with nandTick := c.tick + 1 } }

/-- SILICON_MODEL_STEP (R447): the silicon nodes, and the NAND nodes in a tick in which nothing is planned. -/
def execSiliconModelStep (act : List (Nat × Nat)) (s : State) : Host.Outcome State Fault Refusal :=
  onNodes (fun c =>
    if c.modelsRun then
      let c1 := s.env.siNodes.foldl (Chip.siliconNode c s.env act) c
      if c.bit Reg.calCtrl 0 then c1 else c1.nandStep s.env
    else c) s

/-! Sensors (R448, R449). -/

/-- A fresh reading moves the nodes that its sensor serves. -/
def Chip.correct (c : Chip) (e : Env) (i : Nat) (nodes : List Nat) : Chip :=
  let x := c.sensor i
  if x.suspect || !c.modelsRun then c
  else nodes.foldl (fun c k =>
    let (dt, c1) := c.quot ((x.val - c.node k) * (e.thermal.gain : Int)) 16
    c1.setNode k (c.node k + dt)) c

/-- The NAND nodes that thermistor `i` serves (R454). -/
def Env.thNodes (e : Env) (i : Nat) : List Nat :=
  let m := e.thermal.tmap.getD i 0
  if bitOf m 7 ∧ bitsOf m 5 4 < e.part.regions then (List.range 8).map (fun k => bitsOf m 5 4 * 40 + 8 + bitsOf m 1 0 * 8 + k) else []

/-- The region of a sensor: of cluster sensor 0-31, or of thermistor `i` as 32 + i. -/
def Env.sensorRegion (e : Env) (i : Nat) : Nat := if i < 32 then i / 8 else bitsOf (e.thermal.tmap.getD (i - 32) 0) 5 4

/-- The sensor stands in the package. -/
def Env.hasSensor (e : Env) (i : Nat) : Bool := if i < 32 then decide (i / 8 < e.part.regions) else decide (e.thNodes (i - 32) ≠ [])

/-- A sensor becomes SUSPECT until the next reset. -/
def Chip.suspect (c : Chip) (e : Env) (i : Nat) : Chip :=
  if (c.sensor i).suspect || !e.hasSensor i then c
  else (c.setSensor i { c.sensor i with suspect := true }).raise0 (260 + e.sensorRegion i)

/-- A reading of a sensor. -/
def Chip.reading (c : Chip) (e : Env) (i : Nat) (v : Int) (nodes : List Nat) : Chip :=
  (c.setSensor i { c.sensor i with val := v, seen := true }).correct e i nodes

/-- SENSOR_READ (R448): readings of cluster sensors, in 1/65,536 degC. A gated region's sensors are not read. -/
def execSensorRead (readings : List (Nat × Int)) (s : State) : Host.Outcome State Fault Refusal :=
  onNodes (fun c => readings.foldl (fun c r =>
    if r.1 < 32 ∧ s.env.hasSensor r.1 ∧ c.pmu.ps < 3 then c.reading s.env r.1 (Int.bmod r.2 (2 ^ 32)) [r.1 / 8 * 40 + r.1 % 8] else c) c) s

/-- The neighbours of a sensor (R449). -/
def Env.sensorNbs (e : Env) (i : Nat) : List Nat :=
  ((if 0 < i then [i - 1] else []) ++ [i + 1]).filter
    (fun j => e.hasSensor j && decide (j < 48) && (decide (j < 32) == decide (i < 32)) && decide (e.sensorRegion j = e.sensorRegion i))

/-- The nodes that a sensor serves. -/
def Env.sensorNodes (e : Env) (i : Nat) : List Nat := if i < 32 then [i / 8 * 40 + i % 8] else e.thNodes (i - 32)

/-- The check of one sensor against those of `old` (R449). A thermistor differs from its own node when it differs from every node that it serves
(log entry 37). -/
def Chip.crossCheck (old : Chip) (e : Env) (c : Chip) (i : Nat) : Chip :=
  let x := c.sensor i
  let nbs := ((e.sensorNbs i).map old.sensor).filter (fun y => y.seen && !y.suspect)
  let delta : Int := (c.fld Reg.thmCheck 4 0 : Int) * 65536
  let vals := nbs.map (·.val)
  let agree := vals.all (fun a => vals.all (fun b => decide (a - b ≤ delta)))
  if !x.seen || x.suspect || vals.isEmpty || !agree then c
  else
    let n : Int := (vals.length : Int)
    let far := decide (delta * n < (x.val * n - vals.foldl (· + ·) 0).natAbs) &&
      (e.sensorNodes i).all (fun k => decide (delta < (x.val - old.node k).natAbs))
    if !far then c.setSensor i { x with disagree := 0 }
    else if x.disagree + 1 < 3 then c.setSensor i { x with disagree := x.disagree + 1 }
    else (c.setSensor i { x with disagree := 0 }).suspect e i

/-- SENSOR_CROSS_CHECK (R449). -/
def execSensorCrossCheck (s : State) : Host.Outcome State Fault Refusal :=
  onChip (fun c => if c.modelsRun then ((List.range 48).filter s.env.hasSensor).foldl (Chip.crossCheck c s.env) c else c) s

/-! The rail ADC (R451, R452). -/

/-- An input of the rail ADC. -/
def Chip.adc (c : Chip) (i : Nat) : Adc := Tab.get (fun _ => Adc.fresh) c.thm.adc i

/-- Puts an input. -/
def Chip.setAdc (c : Chip) (i : Nat) (x : Adc) : Chip := { c with thm := { c.thm with adc := Tab.set (fun _ => Adc.fresh) c.thm.adc i x } }

/-- The code of a fixed rail at its nominal voltage: inputs 3-9 (R451, R491). -/
def railNominal (i : Nat) : Option Nat := if i < 3 then none else [3000, 2400, 2200, 3400, 2400, 1800, 3200][i - 3]?

/-- The temperature of a thermistor code by TH_TABLE, in 1/65,536 degC, linear between two points (log entry 37). Outside the table: a free value. -/
def Chip.thTemp (c : Chip) (e : Env) (code : Nat) : Int × Chip :=
  match (e.thermal.thTable.zip (e.thermal.thTable.drop 1)).find? (fun p => decide (code ≤ p.1.1) && decide (p.2.1 ≤ code)) with
  | some ((k0, t0), (k1, t1)) =>
    let (d, c1) := c.quot ((t1 - t0) * 4096 * ((k0 - code : Nat) : Int)) (k0 - k1)
    (t0 * 4096 + d, c1)
  | none =>
    let (v, c1) := c.pick (2 ^ 32)
    ((v : Int), c1)

/-- A kept conversion (R448, R451, R452). -/
def Chip.adcSample (e : Env) (c : Chip) (x : AdcSample) : Chip :=
  let i := x.input
  let code := x.code % 4096
  if 28 ≤ i then c
  else if code = 0 ∨ code = 0xFFF then
    let c1 := (c.orReg Reg.thmAdcOvr (2 ^ i)).setAdc i { c.adc i with stale := (c.adc i).valid }
    let c2 := if i = 10 then { c1 with pmu := { c1.pmu with vholdOver := true } } else c1
    if 12 ≤ i then c2.suspect e (32 + (i - 12)) else c2
  else
    let out := (railNominal i).any (fun n => decide (code * 20 < n * 19) || decide (n * 21 < code * 20))
    let run := if out then Nat.min 5 ((c.adc i).outRun + 1) else 0
    let c1 := c.setAdc i ⟨code, true, false, run⟩
    let c2 := if run = 4 then c1.raise0 301 else c1
    if i = 10 then { c2 with pmu := { c2.pmu with
      vholdOver := false
      emeas := e.power.usable (code * e.power.divHold / 1000) } }
    else if 12 ≤ i then
      let (t, c3) := c2.thTemp e code
      let c4 := if e.thermal.amb = i - 12 then { c3 with thm := { c3.thm with tAmb := t } } else c3
      c4.reading e (32 + (i - 12)) t (e.thNodes (i - 12))
    else c2

/-- RAIL_ADC_ROUND (R451): a round's kept codes; the hold-up check follows (R444). -/
def execRailAdcRound (samples : List AdcSample) (s : State) : Host.Outcome State Fault Refusal :=
  onNodes (fun c => (samples.foldl (Chip.adcSample s.env) c).holdCheck s.env) s

/-! The end of a tick's planning (R49, R50). -/

/-- The plan of this tick can still end at reference cycle `cycle`. -/
def Chip.planOpen (c : Chip) (cycle : Nat) : Bool :=
  c.bit Reg.calCtrl 0 && !c.cal.planDone && !c.cal.restarting && decide (c.time.cyc ≤ cycle) && decide (cycle ≤ c.fld Reg.calPlanWin 7 0) &&
    decide (cycle < c.time.len)

/-- The reserved windows of the planned tick that no contracted or peer read claims go to unreserved work (R96, R98, log entry 45). -/
def Chip.giveWindows (c : Chip) (e : Env) : Chip :=
  ((List.range (e.part.regions * 32)).filter (fun n => (c.chan n).phase == .running && decide (3 ≤ (c.chan n).rateNow))).foldl
    (fun d n => d.bump (Reg.chXfer n) 15 0 (2 - c.windows n (c.tick + 2))) c

/-- PLAN_COMMIT (R49): the plan for the tick after next is committed; while the calendar starts nothing it books nothing (R440, R466). -/
def Chip.planCommit (c : Chip) (e : Env) (cycle : Nat) : Chip :=
  if !c.planOpen cycle then c
  else
    let c1 := if c.held then c else ((c.plan e).giveWindows e).endDead e
    let c2 := (({ c1 with
      time := { c1.time with cyc := cycle }
      cal := { c1.cal with
        planDone := true
        committed := c1.cal.committed ++ [c1.tick + 2] } }.setFld Reg.calPlanWin 15 8 cycle).raiseTo Reg.calPlanWin 23 16 cycle).tally 40 cycle
    c2.nandStep e

/-- PLAN_COMMIT (R49). -/
def execPlanCommit (cycle : Nat) (s : State) : Host.Outcome State Fault Refusal :=
  match onItems (fun c => c.planCommit s.env cycle) s with
  | .next s1 => .next (thermalLimits s.chip s1)
  | r => r

/-- PLAN_ABANDON (R50): the plan that runs in this tick has not committed. -/
def execPlanAbandon (s : State) : Host.Outcome State Fault Refusal :=
  onNodes (fun c => if c.bit Reg.calCtrl 0 && !c.cal.planDone then ({ c with cal := { c.cal with planDone := true } }.pass).nandStep s.env else c) s

end Sys2Proof.Machine
end

