-- ==== Sys2Proof/Machine/Security.lean ====
section
/-! DEFINITION. Tokens and the lifecycle, the alarms of the key store, and what Security Receive returns of sealed sectors and of the dirty-page log
(R335, R357-R359, R370-R377). -/

namespace Sys2Proof.Machine

/-! Tokens (R371, R372). -/

/-- A big-endian field of a token. -/
def tokField (tok : List Byte) (o n : Nat) : Nat := beNat ((tok.drop o).take n)

/-- The format of a token of an action. -/
def tokFormat (act : Nat) (tok : List Byte) : Bool :=
  decide (tok.length = 192) && tokField tok 0 4 == 0x5A594E54 && tokField tok 4 1 == 1 && tokField tok 5 1 == act && tokField tok 7 1 == 0 &&
    tokField tok 0x1A 6 == 0 && tokField tok 0x30 48 == 0 &&
    (act == 1 || (tokField tok 0x18 2 == 0 && tokField tok 0x20 8 == 0 && tokField tok 0x28 8 == 0))

/-- The anchor that a token names: none where it is no programmed anchor of 4-7. -/
def tokAnchor (f : Fuses) (tok : List Byte) : Option (List Byte) :=
  let a := tokField tok 6 1
  let k := Tab.get (fun _ => []) f.anchors a
  if 4 ≤ a ∧ a ≤ 7 ∧ k ≠ [] then some k else none

/-- The zone that a release token names: its namespace, its number and SEQ of its seal record, where it has one (R371). -/
def tokZone (c : Chip) (tok : List Byte) : Option (Nat × Nat × Nat) :=
  let nsx := tokField tok 0x18 2
  let lba := tokField tok 0x20 8
  match c.ns nsx with
  | none => none
  | some n =>
    let z := lba / Nat.max 1 n.zsze
    if !n.zoned || lba % Nat.max 1 n.zsze ≠ 0 then none else (n.zone z).sealed.map (fun q => (nsx, z, q))

/-- The first check of a token that fails, by SEAL_TOKEN_STAT.REASON; 0 for none. -/
def tokReason (s : State) (act : Nat) (tok : List Byte) : Nat :=
  let anchor := tokAnchor s.fuse tok
  let signed := anchor.any (fun k => Config.ecdsaOk k (Config.sha384 (tok.take 0x60)) (tok.drop 0x60))
  firstFail [
    (!tokFormat act tok, 1), (tokField tok 8 8 != s.env.serial, 2), (tokField tok 0x10 8 != s.fuse.nonce, 3), (anchor.isNone, 4), (!signed, 5),
    (act == 1 && (tokZone s.chip tok).map (fun p => p.2.2) != some (tokField tok 0x28 8), 6)]

/-- The lifecycle state forbids a transition's action (R374). -/
def actForbidden (lc : Lifecycle) (act : Nat) : Bool :=
  match act with
  | 2 => lc != .deployed
  | 3 => lc != .hold
  | 4 => lc != .deployed && lc != .provisioned
  | 5 => lc != .provisioned
  | _ => false

/-- Records that an accepted token appends: a release or lifecycle record, and at a retirement from DEPLOYED the final epoch (R372, R374). -/
def actRecords (lc : Lifecycle) (act : Nat) : Nat :=
  if act ≤ 3 then 1 else if act = 4 ∧ lc = .deployed then 2 else 0

/-- The status of a token, in the order of R39, and its REASON (log entry 38). -/
def tokCheck (s : State) (act : Nat) (tok : List Byte) : Nat × Nat :=
  let lc := s.fuse.lifecycle
  let n := actRecords lc act
  let r := tokReason s act tok
  let st := firstFail [
    (actForbidden lc act, cstLife), (r != 0, cstBad), (act == 1 && lc == .hold, cstHold),
    (decide (0 < n) && (s.chip.slot 0).state != .valid, cstKey),
    (decide (2 ^ 64 - 1 ≤ s.fuse.nonce) || (decide (2 ≤ act) && decide (4096 ≤ s.fuse.lcCount)) || decide (2 ^ 64 - 1 < s.chip.sealer.seq + n) ||
      (n == 2 && decide (2 ^ 32 - 1 ≤ s.chip.sealer.epoch)), cstWrap)]
  (st, if st = cstOk then 0 else if st = cstBad then r else 7)

/-- SEAL_TOKEN_STAT. -/
def Chip.tokStat (c : Chip) (st reason : Nat) : Chip := c.setReg Reg.sealTokenStat (reason * 256 + st)

/-- A release (R365, R372): its record repeats the zone's seal record, and the zone is released. -/
def Chip.tokRelease (c : Chip) (e : Env) (tok : List Byte) : Chip :=
  match tokZone c tok with
  | none => c
  | some (nsx, z, q) =>
    let bytes := ((c.sealer.log.find? (fun r => r.seq == q)).map (·.bytes)).getD []
    let b : RecBody := { RecBody.blank 2 with
      fn := tokField bytes 0x27 1
      nsx := nsx
      zslba := tokField tok 0x20 8
      sectors := tokField bytes 0x38 8
      zdigest := (bytes.drop 0x40).take 32
      aux := sha256 tok }
    (((c.sealAppend e c.stamp b).2).updZone nsx z (fun y => { y with released := true })).pass

/-- A lifecycle record (R365): LC after the event, and the token's digest. -/
def Chip.lifeRecord (c : Chip) (e : Env) (lc : Lifecycle) (tok : List Byte) : Chip :=
  ((c.sealAppend e c.stamp { RecBody.blank 5 with lc := lc.code, aux := sha256 tok }).2).pass

/-- The final epoch of a retirement (R374): struck, and every epoch that waits is signed before the slots are zeroed. -/
def Chip.finalEpoch (c : Chip) (e : Env) : Chip :=
  let c1 := (c.strike e false).2
  c1.sealer.signing.foldl (fun c _ => c.signEpoch) c1

/-- The move to DEPLOYED (R339, R369, R374): every slot is zeroed and the user keys leave the vault; slots 0 and 1 are generated fresh, the key object is made
and the chain begins with the genesis record. -/
def Chip.deploy (c : Chip) (e : Env) : Chip :=
  let identity := (c.slot 3).key
  let (k0, c1) := c.keyZero.freshKey 2
  let k1 := sliceBytes (Config.drbg c1.free 48) 0 48
  let obj := keyObject e k1 identity (c1.free + 1)
  let c2 := ({ c1 with free := c1.free + 2 }.setSlot 0 ⟨.valid, 3, k0, 0, 0, 0⟩).setSlot 1 ⟨.valid, 3, k1, 0, 0, 0⟩
  let keep := c2.key.vault.filter (fun v => decide (v.slot < 128) && decide (2 ≤ v.slot))
  let c3 := { c2 with
    key := { c2.key with vault := ([⟨256, 0, 0, 3, k0, 0⟩, ⟨256, 1, 1, 3, k1, 0⟩] : List VaultKey) ++ keep }
    sealer := { Chip.reset.sealer with keyObj := obj } }
  ((c3.sealAppend e c3.stamp { RecBody.blank 4 with aux := sha256 obj }).2).pass

/-- Step 1 of R375: records, key slots and vault as the table of R374 gives them, and the fuses or the counter. -/
def transition (act : Nat) (tok : List Byte) (s : State) : State :=
  let c := s.chip
  let e := s.env
  let f := { s.fuse with nonce := s.fuse.nonce + 1 }
  match act with
  | 2 => { s with
      chip := c.lifeRecord e .hold tok
      fuse := { f with lcCount := f.lcCount + 1 } }
  | 3 => { s with
      chip := c.lifeRecord e .deployed tok
      fuse := { f with lcCount := f.lcCount + 1 } }
  | 4 =>
    let c1 := if s.fuse.lifecycle = .deployed then (c.lifeRecord e .retired tok).finalEpoch e else c
    { s with
      chip := { c1 with key := { c1.key with vault := [] } }
      fuse := { f with retired := true } }
  | _ => { s with
      chip := c.deploy e
      fuse := { f with deployed := true } }

/-- WP0's check of a token and what an accepted one does (R372, R374, R375): a transition completes its Security Send, and then resets the controller. -/
def tokenCmd (act : Nat) (cmd : Cmd) (tok : List Byte) (s : State) : State :=
  if lifecycleRefuses s then { s with chip := s.chip.replySt cmd .other cstLife }
  else if !s.chip.isPf cmd.fn then { s with chip := s.chip.replyN cmd stField }
  else
    let (st, r) := tokCheck s act tok
    let c := s.chip.tokStat st r
    if st ≠ cstOk then { s with chip := c.replySt cmd .other st }
    else if act = 1 then { s with
      chip := (c.tokRelease s.env tok).replyN cmd stOk
      fuse := { s.fuse with nonce := s.fuse.nonce + 1 } }
    else
      let s1 := transition act tok { s with chip := c }
      let c1 := { s1.chip with host := { s1.chip.host with admin := s1.chip.host.admin.erase cmd } }
      resetSource 5 { s1 with chip := c1.complete cmd stOk 0 0 }

/-- TOKEN_RELEASE_ZONE (R372). -/
def execTokenReleaseZone (cmd : Cmd) (tok : List Byte) (s : State) : Host.Outcome State Fault Refusal := .next (adminOp cmd (tokenCmd 1 cmd tok) s)

/-- TOKEN_ENTER_HOLD (R374). -/
def execTokenEnterHold (cmd : Cmd) (tok : List Byte) (s : State) : Host.Outcome State Fault Refusal := .next (adminOp cmd (tokenCmd 2 cmd tok) s)

/-- TOKEN_LEAVE_HOLD (R374). -/
def execTokenLeaveHold (cmd : Cmd) (tok : List Byte) (s : State) : Host.Outcome State Fault Refusal := .next (adminOp cmd (tokenCmd 3 cmd tok) s)

/-- TOKEN_RETIRE (R374). -/
def execTokenRetire (cmd : Cmd) (tok : List Byte) (s : State) : Host.Outcome State Fault Refusal := .next (adminOp cmd (tokenCmd 4 cmd tok) s)

/-- TOKEN_DEPLOY (R374). -/
def execTokenDeploy (cmd : Cmd) (tok : List Byte) (s : State) : Host.Outcome State Fault Refusal := .next (adminOp cmd (tokenCmd 5 cmd tok) s)

/-- TOKEN_CHALLENGE (R371): SERIAL then the current nonce, big-endian. -/
def execTokenChallenge (cmd : Cmd) (s : State) : Host.Outcome State Fault Refusal :=
  pfOnly cmd (fun s c =>
    if lifecycleRefuses s then c.replySt cmd .other cstLife
    else (c.answerDma cmd.fn (beBytes 8 s.env.serial ++ beBytes 8 s.fuse.nonce)).replyN cmd stOk) s

/-! What Security Receive returns besides. -/

/-- RAW_SECTOR_RECEIVE (R370): the stored DATA of the range that a Send named. A range that was not named, or has left the sealed zone, completes with Invalid Field
in Command; a sector that is unreadable fails the read (R163). -/
def execRawSectorReceive (cmd : Cmd) (nsid : Nat) (s : State) : Host.Outcome State Fault Refusal :=
  adminChip cmd (fun s c =>
    let (nsx, lba, k) := Tab.get (fun _ => (0, 0, 0)) c.sealer.raw cmd.fn
    if lifecycleRefuses s then c.replySt cmd .other cstLife
    else
      match c.ns nsx with
      | none => c.replyN cmd stField
      | some n =>
        let z := n.zone (lba / Nat.max 1 n.zsze)
        if k = 0 || nsx != nsxOf nsid || n.owner != some cmd.fn || !n.zoned || z.sealed.isNone || decide (z.wp < lba % Nat.max 1 n.zsze + k) then
          c.replyN cmd stField
        else
          let srcs := (List.range k).map (fun i => c.sectorSrc s.env nsx (lba + i) n)
          if srcs.any (fun x => x == .unreadable) then c.reply cmd (nvmeDetail 3 0x80) (0x80 + 3 * 65536) 0
          else (c.answerDma cmd.fn (srcs.flatMap (fun x => fullSector (c.srcData x)))).replyN cmd stOk) s

/-- Records of a logging slot's ring from HEAD up to `till`, modulo the ring, as bytes (R332, R334). -/
def dlogRecords (c : Chip) (dram : Mem) (i till : Nat) : List Byte :=
  let n := c.dlogSize i
  let h := c.fld (Reg.fnDlogHead i) 23 0 % n
  (List.range ((till + n - h) % n)).flatMap (fun k =>
    let a := c.reg (Reg.fnDlogBase i) / 8 * 8 + (h + k) % n * 8
    if 0x80000000 ≤ a then Mem.readBytes dram (a - 0x80000000) 8 else List.replicate 8 0)

/-- DIRTY_LOG_RECEIVE (R335): on link 0's PF, the records below CUTIDX that HEAD has not passed, unchanged; a function that no slot follows has none
(log entry 38). -/
def execDirtyLogReceive (cmd : Cmd) (fn : Nat) (s : State) : Host.Outcome State Fault Refusal :=
  adminChip cmd (fun s c =>
    if lifecycleRefuses s then c.replySt cmd .other cstLife
    else if !(c.isPf cmd.fn && decide ((c.func cmd.fn).link = 0)) then c.replyN cmd stField
    else
      match firstIdx (fun (x : DlogSlot) => x.fn == fn % 256 && x.cutDone) c.fn.dlog with
      | none => (c.answerDma cmd.fn []).replyN cmd stOk
      | some i => (c.answerDma cmd.fn (dlogRecords c s.mem.dram i (c.dlogSlot i).cutIdx)).replyN cmd stOk) s

/-- SECURITY_PROTOCOL_INVALID (R373). -/
def execSecurityProtocolInvalid (cmd : Cmd) (_secp : Nat) (s : State) : Host.Outcome State Fault Refusal :=
  adminChip cmd (fun s c => if lifecycleRefuses s then c.replySt cmd .other cstLife else c.replyN cmd stField) s

/-! Alarms (R357-R359, R376). -/

/-- A source's bit number. -/
def alarmBit : AlarmSource → Nat
  | .vglitch => 0 | .cglitch => 1 | .temp => 2 | .mesh => 3 | .rail => 4 | .lockstep => 5 | .repeat16 => 6

/-- What an alarm does in the key store (R358, R359): `act` 0 logs; every other action zeroes the slots and counts, and only an ERASE outside a lock has WP0
reload the keys. -/
def Chip.alarmZero (c : Chip) (e : Env) (bit act : Nat) : Chip :=
  let c1 := (c.orReg Reg.keyAlarmStat (2 ^ bit)).raise0 298
  if act = 0 then c1
  else
    let c2 := (c1.keyZero.setFld Reg.keyAlarmCnt 4 0 (satTo 16 (c1.fld Reg.keyAlarmCnt 4 0 + 1))).boomRekey e
    let lock := c2.key.locked || decide (2 ≤ act)
    let (n, c3) := c2.pick 250
    { c3 with key := { c3.key with
      locked := lock
      reload := if lock then none else some (c3.tick + 1 + n) } }

/-- The action of a source: of KEY_ALARM_CFG; KILL acts as LOCK in HOLD (R358). -/
def alarmAction (s : State) (bit : Nat) : Nat :=
  let act := s.chip.fld Reg.keyAlarmCfg (2 * bit + 1) (2 * bit)
  if act = 3 ∧ s.fuse.lifecycle = .hold then 2 else act

/-- A source fires: its action, and the KILL transition (R358, R376). -/
def alarmOne (bit : Nat) (s : State) : State :=
  let act := alarmAction s bit
  let s1 := { s with chip := s.chip.alarmZero s.env bit act }
  if act ≠ 3 then s1
  else
    let s2 := { s1 with fuse := { s1.fuse with kill := true, retired := true } }
    if s.fuse.lifecycle = .retired then s2 else resetSource 5 s2

/-- An alarm, and REPEAT where the count of erases has just reached 16 (R357). -/
def keyAlarm (src : AlarmSource) (s : State) : State :=
  let s1 := alarmOne (alarmBit src) s
  if src ≠ .repeat16 ∧ s.chip.fld Reg.keyAlarmCnt 4 0 < 16 ∧ s1.chip.fld Reg.keyAlarmCnt 4 0 = 16 then alarmOne 6 s1 else s1

/-- KEY_ALARM (R358). -/
def execKeyAlarm (src : AlarmSource) (s : State) : Host.Outcome State Fault Refusal := .next (keyAlarm src s)

end Sys2Proof.Machine
end

