-- ==== Sys2Proof/Machine/Features.lean ====
section
/-! DEFINITION. Admin commands on queues, features, ownership and asynchronous events (R284-R286, R289, R299, R301, R305, R306, R310, R426, R427, R478). -/

namespace Sys2Proof.Machine

/-- An admin command that the lifecycle states BLANK and RETIRED refuse (R377). -/
def admin (cmd : Cmd) (f : State → Chip → Chip) (s : State) : Host.Outcome State Fault Refusal :=
  adminChip cmd (fun s c => if lifecycleRefuses s then c.replySt cmd .other cstLife else f s c) s

/-- The same, for a command that lets items move. -/
def adminItems (cmd : Cmd) (f : State → Chip → Chip) (s : State) : Host.Outcome State Fault Refusal :=
  admin cmd (fun s c => (f s c).settle s.env) s

/-! Queues (R285, R306, R478). Statuses of the NVMe Base Specification by name (log entry 19). -/

/-- Completion Queue Invalid. -/
def stCqInvalid : NStat := ⟨1, 0x00, true⟩
/-- Invalid Queue Size. -/
def stQueueSize : NStat := ⟨1, 0x02, true⟩
/-- Invalid Queue Identifier. -/
def stQueueId : NStat := ⟨1, 0x01, true⟩
/-- Invalid Queue Deletion. -/
def stQueueDel : NStat := ⟨1, 0x0C, true⟩
/-- Invalid Interrupt Vector (R478). -/
def stVector : NStat := ⟨1, 0x08, true⟩
/-- Command Aborted due to SQ Deletion. -/
def stSqDeleted : NStat := ⟨0, 0x08, false⟩
/-- Command Sequence Error. -/
def stSequence : NStat := ⟨0, 0x0C, true⟩
/-- Asynchronous Event Request Limit Exceeded. -/
def stAerLimit : NStat := ⟨1, 0x05, true⟩
/-- Feature Identifier Not Saveable. -/
def stNotSaveable : NStat := ⟨1, 0x0D, true⟩

/-- The last I/O queue identifier that a function may create: the grant of Number of Queues, or its share before one is granted. -/
def Chip.queueLimit (c : Chip) (granted : Nat) : Nat := if granted = 0 then c.fn.shares.qp else Nat.min granted c.fn.shares.qp

/-- CREATE_IO_CQ (R285, R478). `size` is 0-based. -/
def execCreateIoCq (cmd : Cmd) (qid size iv : Nat) (ien contiguous : Bool) (s : State) : Host.Outcome State Fault Refusal :=
  admin cmd (fun _ c =>
    let x := c.func cmd.fn
    if qid = 0 ∨ x.cqs.any (fun k => k.qid == qid) then c.replyN cmd stQueueId
    else if c.queueLimit x.feat.ncq < qid then c.replySt cmd .queue cstLimit
    else if size = 0 ∨ 4095 < size then c.replyN cmd stQueueSize
    else if !contiguous then c.replyN cmd stField
    else if 1024 ≤ iv ∨ (x.vf ≠ 0 ∧ 64 ≤ iv) then c.replyN cmd stVector
    else (c.setFn cmd.fn { x with cqs := x.cqs ++ ([⟨qid, size + 1, 0, iv, ien, []⟩] : List CQ) }).replyN cmd stOk) s

/-- CREATE_IO_SQ (R285). -/
def execCreateIoSq (cmd : Cmd) (qid size cqid prio : Nat) (contiguous : Bool) (s : State) : Host.Outcome State Fault Refusal :=
  admin cmd (fun _ c =>
    let x := c.func cmd.fn
    if cqid = 0 ∨ !x.cqs.any (fun k => k.qid == cqid) then c.replyN cmd stCqInvalid
    else if qid = 0 ∨ x.sqs.any (fun k => k.qid == qid) then c.replyN cmd stQueueId
    else if c.queueLimit x.feat.nsq < qid then c.replySt cmd .queue cstLimit
    else if size = 0 ∨ 4095 < size then c.replyN cmd stQueueSize
    else if !contiguous then c.replyN cmd stField
    else (c.setFn cmd.fn { x with sqs := x.sqs ++ ([⟨qid, size + 1, 0, 0, cqid, prio % 4⟩] : List SQ) }).replyN cmd stOk) s

/-- Commands of a function that `p` holds of leave the host engine with a status; what they hold is released. -/
def Chip.dropCmds (c : Chip) (e : Env) (st : NStat) (p : Pend → Bool) (z : ZoneOp → Bool) : Chip :=
  let gone := c.host.cmds.filter p
  let ids := gone.flatMap (·.items)
  let zops := c.host.zoneOps.filter z
  let held := (c.host.items.filter (fun x => ids.contains x.id && x.write && x.zoned && x.stage != .done)).map (fun x => (x.nsx, (c.itemZone x).1))
  let c1 := ids.foldl (fun c i => c.releaseItem e i) c
  let c2 := { c1 with
    host := { c1.host with
      items := c1.host.items.filter (fun x => !ids.contains x.id)
      cmds := c1.host.cmds.filter (fun q => !p q)
      zoneOps := c1.host.zoneOps.filter (fun o => !z o) }
    map := { c1.map with missq := c1.map.missq.filter (fun q => !ids.contains q.1) } }
  let c3 := held.foldl (fun c q => c.updZone q.1 q.2 (fun y => { y with
    assigned := y.wp
    firstBusy := false
    state := if y.wp = 0 && y.lanes == [] && y.state == .impOpen then .empty else y.state })) c2
  (gone.map (·.cmd) ++ zops.map (·.cmd)).foldl (fun c x => c.complete x st 0 0) c3

/-- DELETE_IO_SQ (R306): the queue's commands end with Command Aborted due to SQ Deletion. -/
def execDeleteIoSq (cmd : Cmd) (qid : Nat) (s : State) : Host.Outcome State Fault Refusal :=
  adminItems cmd (fun s c =>
    let x := c.func cmd.fn
    if qid = 0 ∨ !x.sqs.any (fun k => k.qid == qid) then c.replyN cmd stQueueId
    else
      let mine := fun (y : Cmd) => y.fn == cmd.fn && y.sq == qid
      ((c.dropCmds s.env stSqDeleted (fun p => mine p.cmd) (fun o => mine o.cmd)).updFn cmd.fn
        (fun x => { x with sqs := x.sqs.filter (fun k => k.qid != qid) })).replyN cmd stOk) s

/-- DELETE_IO_CQ (R306): a queue that a submission queue still uses is not deleted. -/
def execDeleteIoCq (cmd : Cmd) (qid : Nat) (s : State) : Host.Outcome State Fault Refusal :=
  admin cmd (fun _ c =>
    let x := c.func cmd.fn
    if qid = 0 ∨ !x.cqs.any (fun k => k.qid == qid) then c.replyN cmd stQueueId
    else if x.sqs.any (fun k => k.cqid == qid) then c.replyN cmd stQueueDel
    else (c.setFn cmd.fn { x with cqs := x.cqs.filter (fun k => k.qid != qid) }).replyN cmd stOk) s

/-- NVME_ABORT (R289): only a command that waits in the host engine ends; DW0 bit 0 says that it was not aborted. -/
def execNvmeAbort (cmd : Cmd) (sqid cid : Nat) (s : State) : Host.Outcome State Fault Refusal :=
  adminItems cmd (fun s c =>
    let victim : Cmd := ⟨cmd.fn, sqid, cid⟩
    let waits := fun (p : Pend) => p.cmd == victim && p.items.all (fun i => (c.item i).all (fun x => x.stage == .waiting))
    if c.host.cmds.any waits then (c.dropCmds s.env stAborted waits (fun _ => false)).reply cmd stOk 0 0 else c.reply cmd stOk 1 0) s

/-- ASYNC_EVENT_REQUEST (R306): at most four are outstanding (AERL = 3). -/
def execAsyncEventRequest (cmd : Cmd) (s : State) : Host.Outcome State Fault Refusal :=
  admin cmd (fun _ c =>
    if 4 ≤ (c.func cmd.fn).aers.length then c.replyN cmd stAerLimit
    else
      let c1 := { c with host := { c.host with admin := c.host.admin.erase cmd } }
      (c1.updFn cmd.fn (fun x => { x with aers := x.aers ++ [cmd] })).aerPump cmd.fn 1) s

/-- ADMIN_COMPLETION (R305): the oldest reply is posted. -/
def execAdminCompletion (s : State) : Host.Outcome State Fault Refusal :=
  onHost (fun c =>
    match c.host.replies with
    | [] => c
    | r :: rest => if c.pmu.flush.isSome then c else { c with host := { c.host with replies := rest } }.postCqe r.1 r.2) s

/-- NVME_MI_SEND (R306). The message itself is WP1's. -/
def execNvmeMiSend (cmd : Cmd) (_payload : List Byte) (s : State) : Host.Outcome State Fault Refusal :=
  admin cmd (fun _ c => (c.wakeSee .mi).replyN cmd stOk) s

/-- NVME_MI_RECEIVE (R306): the answer that WP1 holds goes to the host. -/
def execNvmeMiReceive (cmd : Cmd) (payload : List Byte) (s : State) : Host.Outcome State Fault Refusal :=
  admin cmd (fun _ c => ((c.wakeSee .mi).answerDma cmd.fn payload).replyN cmd stOk) s

/-! Features (R310). -/

/-- Changes a function's features and answers success. -/
def Chip.feature (c : Chip) (cmd : Cmd) (g : FnFeatures → FnFeatures) : Chip :=
  (c.updFn cmd.fn (fun x => { x with feat := g x.feat })).replyN cmd stOk

/-- Feature 0x01, Arbitration (R286). -/
def Chip.arbitration (c : Chip) (cmd : Cmd) (ab lpw mpw hpw : Nat) : Chip :=
  c.feature cmd (fun f => { f with
    ab := ab % 8
    lpw := lpw % 256
    mpw := mpw % 256
    hpw := hpw % 256 })

/-- SET_FEATURE_ARBITRATION (R286). -/
def execSetFeatureArbitration (cmd : Cmd) (ab lpw mpw hpw : Nat) (s : State) : Host.Outcome State Fault Refusal :=
  admin cmd (fun _ c => c.arbitration cmd ab lpw mpw hpw) s

/-- Feature 0x07, Number of Queues (R285): the grant is the smaller of the request and the share, and is reported 0-based. -/
def Chip.numberOfQueues (c : Chip) (cmd : Cmd) (nsqr ncqr : Nat) : Chip :=
  let x := c.func cmd.fn
  let share := Nat.max 1 c.fn.shares.qp
  let a := Nat.min (nsqr + 1) share
  let b := Nat.min (ncqr + 1) share
  if x.sqs.any (fun q => q.qid != 0) ∨ x.cqs.any (fun q => q.qid != 0) then c.replyN cmd stSequence
  else if 65535 ≤ nsqr ∨ 65535 ≤ ncqr then c.replyN cmd stField
  else (c.updFn cmd.fn (fun x => { x with feat := { x.feat with nsq := a, ncq := b } })).reply cmd stOk ((b - 1) * 65536 + (a - 1)) 0

/-- SET_FEATURE_NUMBER_OF_QUEUES (R285). -/
def execSetFeatureNumberOfQueues (cmd : Cmd) (nsqr ncqr : Nat) (s : State) : Host.Outcome State Fault Refusal :=
  admin cmd (fun _ c => c.numberOfQueues cmd nsqr ncqr) s

/-- Feature 0x02, Power Management (R426): WP1 carries the lowest request of the enabled PFs out through PMU_REQ; a refusal is the command's, and nothing
changes. -/
def Chip.powerFeature (c : Chip) (cmd : Cmd) (ps : Nat) : Chip :=
  if !c.isPf cmd.fn || decide (4 < ps) then c.replyN cmd stField
  else if c.pmu.req.isSome then c.replySt cmd .other cstBusy
  else
    let c1 := c.updFn cmd.fn (fun x => { x with feat := { x.feat with power := ps } })
    let want := (c1.enabledPfs.map (fun x => x.feat.power)).foldl Nat.min 4
    let c2 := c1.pmuRequest false 0 want
    let st := c2.fld Reg.pmuReqRes 7 0
    if c2.pmu.req.isNone ∧ st ≠ cstOk then (c2.updFn cmd.fn (fun x => { x with feat := (c.func cmd.fn).feat })).replySt cmd .other st
    else c2.replyN cmd stOk

/-- SET_FEATURE_POWER_MANAGEMENT (R426). -/
def execSetFeaturePowerManagement (cmd : Cmd) (ps : Nat) (s : State) : Host.Outcome State Fault Refusal :=
  admin cmd (fun _ c => c.powerFeature cmd ps) s

/-- SET_FEATURE_APST (R427): a used entry (ITPT above 0) names PS3 or PS4, deeper than its own state; PFs only (R426). -/
def execSetFeatureApst (cmd : Cmd) (apste : Bool) (entries : List (Nat × Nat)) (s : State) : Host.Outcome State Fault Refusal :=
  admin cmd (fun _ c =>
    let bad := ((entries.take 5).zipIdx).any (fun p => p.1.2 != 0 && ((p.1.1 != 3 && p.1.1 != 4) || decide (p.1.1 ≤ p.2)))
    if !c.isPf cmd.fn || bad then c.replyN cmd stField
    else c.feature cmd (fun f => { f with
      apste := apste
      apst := entries.take 5 })) s

/-- Feature 0x1D, Flexible Data Placement (R299). -/
def Chip.fdpFeature (c : Chip) (cmd : Cmd) (enable : Bool) : Chip :=
  if c.host.nss.any (fun p => p.2.isSome) then c.replyN cmd stField
  else { c with host := { c.host with fdp := enable } }.replyN cmd stOk

/-- SET_FEATURE_FDP (R299). -/
def execSetFeatureFdp (cmd : Cmd) (enable : Bool) (s : State) : Host.Outcome State Fault Refusal := admin cmd (fun _ c => c.fdpFeature cmd enable) s

/-- The namespace of an NSID that a function is attached to. -/
def Chip.attached (c : Chip) (fn nsid : Nat) : Option Ns :=
  if nsid = 0 then none
  else match c.ns (nsxOf nsid) with
    | some n => if n.owner = some fn ∨ n.standby = some fn then some n else none
    | none => none

/-- Feature 0xC0, Read Contract (R301). -/
def Chip.contractFeature (c : Chip) (e : Env) (cmd : Cmd) (nsid w : Nat) (save : Bool) : Chip :=
  let nsx := nsxOf nsid
  let cls := bitsOf w 2 0
  let keep := fun (v : Option Nat) (c : Chip) => if save then c.updNs nsx (fun n => { n with saved := v }) else c
  match c.attached cmd.fn nsid with
  | none => c.replyN cmd stNs
  | some _ =>
    if w - (w &&& 0xF87) ≠ 0 ∨ cls = 5 ∨ cls = 6 ∨ (cls ≤ 4 ∧ bitsOf w 11 8 = 0) then c.replyN cmd stField
    else if cls = 7 then
      let c1 := if (c.contract nsx).isSome then (c.admissionOp e 2 ⟨nsx, 0, 0, false, 0⟩).2 else c
      (keep none (c1.updNs nsx (fun n => { n with nowait := bitOf w 7 }))).replyN cmd stOk
    else
      let (st, c1) := c.bindContract e nsx w
      let t := c1.fld Reg.calAdmitRes 15 8
      if st = cstOk then ((keep (some w) c1).updNs nsx (fun n => { n with refusedAtStart := false })).reply cmd stOk t 0
      else if st = cstContract then c1.reply cmd (nvmeOf .other st) (t * 2 ^ 24 + st) 0
      else c1.replySt cmd .other st

/-- SET_FEATURE_READ_CONTRACT (R301). -/
def execSetFeatureReadContract (cmd : Cmd) (nsid : Nat) (cdw11 : Word) (save : Bool) (s : State) : Host.Outcome State Fault Refusal :=
  admin cmd (fun s c => c.contractFeature s.env cmd nsid cdw11.toNat save) s

/-! Ownership (R284). -/

/-- SET_FEATURE_OWNERSHIP (R284): the standby's request starts a move and completes when the roles have swapped; the owner's own request moves nothing. -/
def execSetFeatureOwnership (cmd : Cmd) (nsid : Nat) (s : State) : Host.Outcome State Fault Refusal :=
  admin cmd (fun _ c =>
    match c.attached cmd.fn nsid with
    | none => c.replyN cmd stNs
    | some n =>
      if n.move.isSome then c.replySt cmd .other cstBusy
      else if n.owner = some cmd.fn then c.replyN cmd stOk
      else c.updNs (nsxOf nsid) (fun n => { n with move := some ⟨c.tick, some cmd⟩ })) s

/-- OWNERSHIP_AUTO_MOVE (R284): the owner's link has been down for HOST_OWN.DOWN_TICKS ticks while the standby's is up. -/
def execOwnershipAutoMove (nsid : Nat) (s : State) : Host.Outcome State Fault Refusal :=
  onChip (fun c =>
    match c.ns (nsxOf nsid) with
    | some n =>
      match n.owner, n.standby with
      | some o, some b =>
        let lim := c.fld Reg.hostOwn 11 0
        let down := (c.link (c.func o).link).downSince.any (fun t => decide (t + lim ≤ c.tick))
        if nsid ≠ 0 ∧ lim ≠ 0 ∧ down ∧ (c.link (c.func b).link).state = 2 ∧ n.move = none then
          c.updNs (nsxOf nsid) (fun n => { n with move := some ⟨c.tick, none⟩ })
        else c
      | _, _ => c
    | none => c) s

/-- OWNERSHIP_SWAP (R284): every command of the namespace has completed; the roles swap, and both functions hear of it. -/
def execOwnershipSwap (nsid : Nat) (s : State) : Host.Outcome State Fault Refusal :=
  onItems (fun c =>
    let nsx := nsxOf nsid
    match c.ns nsx with
    | some n =>
      match n.move with
      | some m =>
        if nsid = 0 ∨ c.host.cmds.any (fun p => p.nsx == nsx) ∨ c.host.zoneOps.any (fun o => o.nsx == nsx) then c
        else
          let c1 := c.setNs nsx (some { n with
            owner := n.standby
            standby := n.owner
            move := none })
          let c2 := (n.owner.toList ++ n.standby.toList).foldl (fun c f => (c.asyncEvent f 2 3).aerPump f 1) c1
          match m.cmd with
          | some cmd => c2.replyN cmd stOk
          | none => c2
      | none => c
    | none => c) s

/-! The features without a row of their own (R310). -/

/-- SET_FEATURES (R310). Features 0x0C, 0xC0 and 0xC1 carry more than CDW11 and have rows of their own: here the entries of 0x0C stay, and 0xC0 and 0xC1 name
no namespace (log entry 39). Only 0xC0 can be saved. -/
def execSetFeatures (cmd : Cmd) (fid : Nat) (cdw11 : Word) (save : Bool) (s : State) : Host.Outcome State Fault Refusal :=
  admin cmd (fun _ c =>
    let w := cdw11.toNat
    if fid = 0xC0 ∨ fid = 0xC1 then c.replyN cmd stNs
    else if !([0x01, 0x02, 0x04, 0x07, 0x08, 0x09, 0x0B, 0x0C, 0x1D].contains fid) then c.replyN cmd stField
    else if save then c.replyN cmd stNotSaveable
    else
      match fid with
      | 0x01 => c.arbitration cmd (bitsOf w 2 0) (bitsOf w 15 8) (bitsOf w 23 16) (bitsOf w 31 24)
      | 0x02 => c.powerFeature cmd (bitsOf w 4 0)
      | 0x04 => c.feature cmd (fun f => { f with temp := bitsOf w 21 0 })
      | 0x07 => c.numberOfQueues cmd (bitsOf w 15 0) (bitsOf w 31 16)
      | 0x08 => c.feature cmd (fun f => { f with coal := bitsOf w 15 0 })
      | 0x09 => c.feature cmd (fun f => { f with vectorCfg := Tab.set (fun _ => 0) f.vectorCfg (bitsOf w 15 0) (bitsOf w 16 16) })
      | 0x0B => c.feature cmd (fun f => { f with aerMask := w })
      | 0x0C => if c.isPf cmd.fn then c.feature cmd (fun f => { f with apste := bitOf w 0 }) else c.replyN cmd stField
      | _ => c.fdpFeature cmd (bitOf w 0)) s

/-- GET_FEATURES (R310, R426): DW0 in the layout of Set Features' CDW11. What the manual does not say, the value of 0xC1 and the vector of 0x09, is a free
value (log entry 39). -/
def execGetFeatures (cmd : Cmd) (fid nsid : Nat) (s : State) : Host.Outcome State Fault Refusal :=
  admin cmd (fun _ c =>
    let f := (c.func cmd.fn).feat
    let ok := fun (v : Nat) => c.reply cmd stOk v 0
    match fid with
    | 0x01 => ok (f.ab + f.lpw * 2 ^ 8 + f.mpw * 2 ^ 16 + f.hpw * 2 ^ 24)
    | 0x02 => ok f.power
    | 0x04 => ok f.temp
    | 0x07 => ok (if f.nsq = 0 then 0 else (f.ncq - 1) * 65536 + (f.nsq - 1))
    | 0x08 => ok f.coal
    | 0x09 =>
      let (v, c1) := c.pick (2 ^ 17)
      c1.reply cmd stOk v 0
    | 0x0B => ok f.aerMask
    | 0x0C => (c.answerDma cmd.fn ((List.range 32).flatMap (fun i =>
        let (p, t) := f.apst.getD i (0, 0)
        leBytes 8 (p * 8 + t * 256)))).reply cmd stOk (b2n f.apste) 0
    | 0x1D => ok (b2n c.host.fdp)
    | 0xC0 =>
      match c.attached cmd.fn nsid with
      | none => c.replyN cmd stNs
      | some n => ok (match c.contract (nsxOf nsid) with
        | some k => k.cls + 128 * b2n k.nowait + k.q * 256
        | none => 7 + 128 * b2n n.nowait)
    | 0xC1 =>
      match c.attached cmd.fn nsid with
      | none => c.replyN cmd stNs
      | some _ =>
        let (v, c1) := c.pick (2 ^ 32)
        c1.reply cmd stOk v 0
    | _ => c.replyN cmd stField) s

end Sys2Proof.Machine
end

