-- ==== Sys2Proof/Machine/LogPages.lean ====
section
/-! DEFINITION. Get Log Page and Identify (R292, R293, R300, R304, R307-R309, R313, R425, R446). -/

namespace Sys2Proof.Machine

/-- Invalid Log Page (R308). -/
def stLogPage : NStat := ⟨1, 0x09, true⟩

/-- Bytes whose contents the manual leaves to the NVMe specifications: free values (log entry 40). -/
def Chip.openBytes (c : Chip) (n : Nat) : List Byte × Chip :=
  ((List.range n).map (fun i => BitVec.ofNat 8 (Config.open_ (c.free + i))), { c with free := c.free + n })

/-- `bs` with the bytes `v` at offset `o`. -/
def putBytes (bs : List Byte) (o : Nat) (v : List Byte) : List Byte := bs.take o ++ v ++ bs.drop (o + v.length)

/-- `n` zero bytes with little-endian fields (offset, length, value). -/
def fieldsOf (n : Nat) (fs : List (Nat × Nat × Nat)) : List Byte :=
  fs.foldl (fun bs f => putBytes bs f.1 (leBytes f.2.1 f.2.2)) (List.replicate n 0)

/-! Temperatures. -/

/-- The hottest node of the present regions (R446): its number, by region * 40 + node. -/
def Chip.hottest (c : Chip) (e : Env) : Nat :=
  (List.range (40 * e.part.regions)).foldl (fun b k => if c.node b < c.node k then k else b) 0

/-- The composite temperature in kelvin, whole degrees (log entry 40). -/
def Chip.composite (c : Chip) (e : Env) : Nat := (degrees (c.node (c.hottest e)) + 273).toNat

/-! Logs. -/

/-- Log 0xBF (R309). -/
def Chip.contractLog (c : Chip) (fn : Nat) : List Byte :=
  let mine := c.host.nss.filterMap (fun p =>
    match p.2 with
    | some n => if (n.owner == some fn || n.standby == some fn) && ((c.contract p.1).isSome || n.saved.isSome) then some (p.1, n) else none
    | none => none)
  let pt := c.fld Reg.calFloor 1 0
  let one := fun (p : Nat × Ns) =>
    let n := p.2
    let w := n.saved.getD 0
    let (cls, nowait, q, t, reads, exc, miss, bt) := match c.contract p.1 with
      | some k => (k.cls, k.nowait, k.q, satTo 255 k.t, k.reads, k.excused, k.missed, k.bindTime)
      | none => (7, bitOf w 7, bitsOf w 11 8, 0, 0, 0, 0, 0)
    leBytes 4 (p.1 + 1) ++ leBytes 1 cls ++
      leBytes 1 (b2n nowait + 2 * b2n n.saved.isSome + 4 * b2n (c.contract p.1).isSome + 8 * b2n n.refusedAtStart) ++ leBytes 1 q ++ leBytes 1 t ++
      leBytes 8 reads ++ leBytes 4 exc ++ leBytes 4 miss ++ leBytes 8 bt
  leBytes 4 mine.length ++ leBytes 1 pt ++ leBytes 1 (kOf pt) ++ leBytes 10 0 ++ mine.flatMap one

/-- Log 0xC1 (R304): the header and the newest 64 entries. -/
def Chip.lossLog (c : Chip) (fn : Nat) : List Byte :=
  let x := c.func fn
  let es := x.logC1.take 64
  leBytes 4 es.length ++ leBytes 1 (b2n x.contractLost) ++ leBytes 11 0 ++
    es.flatMap (fun (a, b, z, l, t) => leBytes 4 a ++ leBytes 4 b ++ leBytes 8 z ++ leBytes 8 l ++ leBytes 8 t)

/-- Log 0xC0 (R308): the header and the ring's records, oldest first. -/
def Chip.emitLog (c : Chip) (fn : Nat) : List Byte :=
  let (rs, i, d) := c.ring fn
  leBytes 4 (i % 2 ^ 32) ++ leBytes 4 rs.length ++ leBytes 4 d ++ leBytes 4 0 ++ rs.flatten

/-- Log 0x0C, Asymmetric Namespace Access, in the layout of the NVMe Base Specification (log entry 40): the ANA state of every group of the function. -/
def Chip.anaLog (c : Chip) (fn : Nat) : List Byte :=
  let mine := c.host.nss.filterMap (fun p =>
    match p.2 with
    | some n =>
      if n.move.isSome ∧ (n.owner = some fn ∨ n.standby = some fn) then some (p.1, 0x0F)
      else if n.owner = some fn then some (p.1, 0x01)
      else if n.standby = some fn then some (p.1, 0x03)
      else none
    | none => none)
  leBytes 8 0 ++ leBytes 2 mine.length ++ leBytes 6 0 ++
    mine.flatMap (fun (x, st) => leBytes 4 (x + 1) ++ leBytes 4 1 ++ leBytes 8 0 ++ leBytes 1 st ++ leBytes 15 0 ++ leBytes 4 (x + 1))

/-- Log 0x81, Sanitize Status (R313): SPROG and the state of the last sanitize; the rest is open (log entry 40). -/
def Chip.sanitizeLog (c : Chip) : List Byte × Chip :=
  let p := c.host.progress
  let mine := decide (p.action = 1) || decide (p.action = 2)
  let sprog := if mine && p.state == 1 then p.done * 65536 / Nat.max 1 p.total else 0xFFFF
  let sstat := if !mine then 0 else if p.state = 1 then 2 else if p.state = 2 then 1 else if p.state = 3 then 3 else 0
  let (bs, c1) := c.openBytes 508
  (leBytes 2 sprog ++ leBytes 2 sstat ++ bs, c1)

/-- The bytes of a log, or none where it is not supported (R308). -/
def Chip.logPage (c : Chip) (e : Env) (fn lid : Nat) : Option (List Byte × Chip) :=
  match lid with
  | 0x01 => some (c.openBytes 4096)
  | 0x02 =>
    let (bs, c1) := c.openBytes 512
    some (putBytes bs 1 (leBytes 2 (c.composite e)), c1)
  | 0x03 => some (c.openBytes 512)
  | 0x04 => some (c.openBytes 4096)
  | 0x05 => some (c.openBytes 4096)
  | 0x0C => some (c.anaLog fn, c)
  | 0x20 => some (c.openBytes 4096)
  | 0x21 => some (c.openBytes 4096)
  | 0x22 => some (c.openBytes 64)
  | 0x81 => some c.sanitizeLog
  | 0xBF => some (c.contractLog fn, c)
  | 0xC0 => some (c.emitLog fn, c)
  | 0xC1 => some (c.lossLog fn, c)
  | _ => none

/-- GET_LOG_PAGE (R308). -/
def execGetLogPage (cmd : Cmd) (lid : Nat) (s : State) : Host.Outcome State Fault Refusal :=
  adminChip cmd (fun s c =>
    match c.logPage s.env cmd.fn lid with
    | none => c.replyN cmd stLogPage
    | some (bs, c1) => (c1.answerDma cmd.fn bs).replyN cmd stOk) s

/-- GET_LOG_EMIT_RING (R308): `len` bytes from the start of log 0xC0; with LSP bit 0 the records that lie wholly within them are consumed. -/
def execGetLogEmitRing (cmd : Cmd) (lsp len : Nat) (s : State) : Host.Outcome State Fault Refusal :=
  adminChip cmd (fun _ c =>
    let (rs, i, d) := c.ring cmd.fn
    let k := if bitOf lsp 0 then Nat.min rs.length ((len - 16) / 32) else 0
    ((c.answerDma cmd.fn ((c.emitLog cmd.fn).take len)).setRing cmd.fn (rs.drop k, (i + k) % 2 ^ 32, d)).replyN cmd stOk) s

/-! Identify (R307). Offsets are those of the NVMe specifications (log entry 40). -/

/-- The model number of a part, 40 characters. -/
def Part.model (p : Part) : List Byte :=
  let name := match p with
    | .crn7128 => "CORANE CRN-7128"
    | .crn7128S => "CORANE CRN-7128S"
    | .crn7064 => "CORANE CRN-7064"
  let cs := name.toList.map (fun ch => BitVec.ofNat 8 ch.toNat)
  cs ++ List.replicate (40 - cs.length) 0x20

/-- The power state descriptor of a state (R425); ENLAT of PS3 and PS4 by the committed figures. -/
def Chip.psd (c : Chip) (i : Nat) : List Byte :=
  let l3 := 2 * maxNat ((inUseModes c.fig).map (fun m => (c.fig m).tprog)) + maxNat ((inUseModes c.fig).map (fun m => (c.fig m).tbers)) + 25
  let mp := [5500, 4000, 2500, 250, 18].getD i 0
  let en := [0, 16, 16, 8 * l3, 8 * (l3 + 125)].getD i 0
  let ex := [0, 200, 200, 400, 5000].getD i 0
  leBytes 2 mp ++ leBytes 1 0 ++ leBytes 1 (if 3 ≤ i then 2 else 0) ++ leBytes 4 en ++ leBytes 4 ex ++ leBytes 20 0

/-- The Identify Controller data of a function. -/
def Chip.identifyController (c : Chip) (e : Env) (fn : Nat) : List Byte :=
  let vf := !c.isPf fn
  let fs := [(0, 2, e.board.vid), (2, 2, e.board.ssvid), (76, 1, 0xB + 4 * b2n vf), (77, 1, 9), (78, 2, fn), (80, 4, 0x00020000), (256, 2, 0x4F),
    (259, 1, 3), (260, 1, 4), (263, 1, 4), (265, 1, 1), (319, 1, 1), (328, 4, if vf then 0 else 3), (342, 1, 1), (343, 1, 0x55),
    (344, 4, 1024), (348, 4, 1024), (512, 1, 0x66), (513, 1, 0x44), (516, 4, 1024), (520, 2, 0x0C)]
  putBytes (putBytes (fieldsOf 4096 fs) 24 e.part.model) 2048 ((List.range 5).flatMap c.psd)

/-- The Identify Namespace data; zeros for a namespace that the function is not attached to. -/
def Chip.identifyNamespace (c : Chip) (fn nsid : Nat) : List Byte :=
  match c.attached fn nsid with
  | none => List.replicate 4096 0
  | some n => fieldsOf 4096 [(0, 8, n.size), (8, 8, n.size), (16, 8, n.size), (46, 2, 16), (92, 4, nsid), (128, 4, 12 * 65536)]

/-- The data of a zoned namespace: MAR and MOR, 0-based, and the zone size (R292, R293). -/
def Chip.identifyZoned (c : Chip) (fn nsid : Nat) : List Byte :=
  match c.attached fn nsid with
  | none => List.replicate 4096 0
  | some n =>
    if n.zoned then fieldsOf 4096 [(4, 4, c.fn.shares.az - 1), (8, 4, c.fn.shares.oz - 1), (2816, 8, n.zsze)] else List.replicate 4096 0

/-- The namespaces of a function above an NSID. -/
def Chip.nsList (c : Chip) (fn nsid : Nat) : List Nat :=
  ((c.host.nss.map (fun p => p.1 + 1)).filter (fun i => decide (nsid < i) && (c.attached fn i).isSome)).take 1024

/-- IDENTIFY (R307). -/
def execIdentify (cmd : Cmd) (cns nsid : Nat) (s : State) : Host.Outcome State Fault Refusal :=
  adminChip cmd (fun s c =>
    let ok := fun (bs : List Byte) => (c.answerDma cmd.fn bs).replyN cmd stOk
    match cns with
    | 0x00 => ok (c.identifyNamespace cmd.fn nsid)
    | 0x01 => ok (c.identifyController s.env cmd.fn)
    | 0x02 => ok (fieldsOf 4096 ((c.nsList cmd.fn nsid).zipIdx.map (fun p => (4 * p.2, 4, p.1))))
    | 0x05 => ok (c.identifyZoned cmd.fn nsid)
    | 0x06 => ok (fieldsOf 4096 [(0, 1, 9)])
    | _ => c.replyN cmd stField) s

end Sys2Proof.Machine
end

