-- ==== Sys2Proof/Machine/Namespaces.lean ====
section
/-! DEFINITION. Namespace management, firmware, format and sanitize (R179, R283, R299, R311-R315, R322, R350). -/

namespace Sys2Proof.Machine

/-! Statuses of the NVMe Base Specification by name (log entry 19). -/

/-- Namespace Already Attached. -/
def stAttached : NStat := ⟨1, 0x18, true⟩
/-- Namespace Not Attached. -/
def stNotAttached : NStat := ⟨1, 0x1A, true⟩
/-- Controller List Invalid (R283). -/
def stCtrlList : NStat := ⟨1, 0x1C, true⟩
/-- Overlapping Range (R311). -/
def stOverlap : NStat := ⟨1, 0x14, true⟩
/-- Invalid Firmware Image (R311). -/
def stImage : NStat := ⟨1, 0x07, true⟩
/-- Invalid Firmware Slot. -/
def stFwSlot : NStat := ⟨1, 0x06, true⟩
/-- Invalid Format (R314). -/
def stBadFormat : NStat := ⟨0, 0x0A, true⟩

/-! What a namespace holds. -/

/-- The namespace holds a sealed evidence zone with no accepted release (R315). -/
def Ns.holdsSeal (n : Ns) : Bool := n.zones.any (fun z => z.2.evid && z.2.sealed.isSome && !z.2.released)

/-- Groups that `p` holds of are given up: their buffers are released and their programs are not started. -/
def Chip.dropGroups (c : Chip) (e : Env) (p : Group → Bool) : Chip :=
  let gone := c.map.groups.filter p
  let ids := gone.map (·.id)
  let c1 := (gone.flatMap (fun g => g.pages.map (·.buf) ++ g.parity)).foldl (fun c h => c.releaseLanding e h) c
  { c1 with
    map := { c1.map with groups := c1.map.groups.filter (fun g => !p g) }
    cal := { c1.cal with starts := c1.cal.starts.filter (fun r => !(r.owner.group.any ids.contains)) } }

/-- Every sector of a conventional namespace loses its data: its map entries, directory places and packed extents go, and its cache slots hold nothing (R314). -/
def Chip.unmapNs (c : Chip) (nsx : Nat) : Chip :=
  { c with map := { c.map with
    entries := c.map.entries.filter (fun p => p.1 / 2 ^ 40 != nsx)
    packed := c.map.packed.filter (fun p => p.1 / 2 ^ 40 != nsx)
    journal := c.map.journal.filter (fun p => p.1 / 2 ^ 40 != nsx)
    dir := c.map.dir.filter (fun p => p.1 / 2 ^ 29 != nsx)
    missq := c.map.missq.filter (fun q => q.2 / 2 ^ 29 != nsx)
    slots := c.map.slots.filterMap (fun p =>
      if p.1 / 2 ^ 29 ≠ nsx then some p else if p.2.pin then some (p.1, { MapSlot.free with state := .clean, pin := true }) else none) } }

/-- The work of unit 0 of a format on one namespace (R314): every zone is reset, or the map is emptied. -/
def Chip.clearNs (c : Chip) (e : Env) (nsx : Nat) : Chip :=
  match c.ns nsx with
  | none => c
  | some n => if n.zoned then (n.zones.map (·.1)).foldl (fun c z => c.resetZone e nsx z c.host.nextItem) c else c.unmapNs nsx

/-- The pages of a cord block that hold sectors of conventional namespaces: the namespaces, without repeats. -/
def Chip.cblkOwners (c : Chip) (b : CordBlk) : List Nat :=
  (c.map.entries.filter (fun p => bitOf p.2 63 && !bitOf p.2 62 && bitsOf p.2 45 38 == b.cord && bitsOf p.2 37 22 == b.idx)).foldl
    (fun l p => insertNat (p.1 / 2 ^ 40) l) []

/-- The cord blocks of namespaces (R314): those of their zones, and the conventional ones in which nothing else is valid (log entry 41). -/
def Chip.nsCblks (c : Chip) (nss : List Nat) : List (Nat × Nat) :=
  (nss.flatMap (fun x => match c.ns x with
    | some n => n.zones.flatMap (fun z => z.2.lanes.flatMap (fun l => l.map (fun s => (s.1, s.2.1))))
    | none => [])) ++
  ((c.map.cblks.filter (fun b => b.conventional && c.cblkQuiet b.cord b.idx && c.cblkOwners b != [] && (c.cblkOwners b).all nss.contains)).map
    (fun b => (b.cord, b.idx)))

/-! Namespace Management and Attachment (R283, R322). -/

/-- The smallest power of two at or above `n`: `k` bounds its exponent. -/
def pow2From (n : Nat) : Nat → Nat → Nat
  | 0, p => p
  | k + 1, p => if n ≤ p then p else pow2From n k (2 * p)

/-- Conventional sectors that the namespaces hold, and their map pages. -/
def Chip.convTotal (c : Chip) : Nat × Nat :=
  c.host.nss.foldl (fun a p => match p.2 with
    | some n => if n.zoned then a else (a.1 + n.size, a.2 + pagesIn n.size)
    | none => a) (0, 0)

/-- Full-table mode holds no further namespace of a size (R179). -/
def Chip.fullRefuses (c : Chip) (size : Nat) : Bool :=
  let (a, b) := c.convTotal
  c.map.full && (decide (2 ^ 34 < a + size) || decide (c.cacheSlots < b + pagesIn size))

/-- A namespace as it is created (R169, R322). -/
def newNs (e : Env) (zoned : Bool) (size mode w creator : Nat) (handles : List Nat) : Ns :=
  let p := (e.nand.parts.find? (fun p => p.cell == mode)).getD NandPart.none
  let zcap := w * p.rows mode * p.sRow
  { zoned := zoned, mode := mode, w := w, size := size, zcap := if zoned then zcap else 0, zsze := if zoned then pow2From zcap 64 1 else 0,
    creator := creator, owner := none, standby := none, handles := handles, nowait := false, saved := none, refusedAtStart := false,
    parityLost := none, move := none, zones := [], changed := [], part := 0 }

/-- The fields of a creation are not as R169 and R299 have them, or the size is no whole number of zones (log entry 41). -/
def createBad (c : Chip) (e : Env) (zoned : Bool) (size mode w : Nat) (handles : List Nat) : Bool :=
  let n := newNs e zoned size mode w 0 handles
  !e.nand.parts.any (fun p => p.cell == mode) || size == 0 ||
    (if zoned then !([1, 2, 4, 8].contains w) || handles != [] || n.zsze == 0 || decide (size % Nat.max 1 n.zsze ≠ 0)
     else decide (16 < handles.length) || handles.any (fun h => decide (128 ≤ h)) || (handles != [] && !c.host.fdp))

/-- Namespace Management, SEL 0 (R322): the lowest free index; DW0 holds the NSID. -/
def Chip.createNs (c : Chip) (e : Env) (cmd : Cmd) (zoned : Bool) (size mode w : Nat) (handles : List Nat) : Chip :=
  let mine := (c.host.nss.filter (fun p => p.2.any (fun n => n.creator == cmd.fn))).length
  if createBad c e zoned size mode w handles then c.replyN cmd stField
  else if c.fn.shares.ns ≤ mine then c.replySt cmd .nsCount cstLimit
  else
    match (List.range 1024).find? (fun i => (c.ns i).isNone) with
    | none => c.replySt cmd .nsCount cstLimit
    | some i =>
      if !zoned && c.fullRefuses size then c.replySt cmd .nsCapacity cstLimit
      else (c.setNs i (some (newNs e zoned size mode w cmd.fn handles))).reply cmd stOk (i + 1) 0

/-- A namespace is deleted: its commands end, its data is unmapped, its pin and its bindings go. -/
def Chip.deleteNs (c : Chip) (e : Env) (nsx : Nat) : Chip :=
  let c1 := c.dropCmds e stNs (fun p => p.nsx == nsx) (fun o => o.nsx == nsx)
  let c2 := (c1.clearNs e nsx).unpinNs nsx
  let keys := c2.kerf.binds.filterMap (fun p => match p.2 with
    | some b => if b.nsx = nsx then some (b.ph, p.1) else none
    | none => none)
  let c3 := keys.foldl (fun c k => c.addChange ⟨nsx, k.1, none, k.2⟩) (c2.unmapNs nsx)
  (c3.setNs nsx none).setContract nsx none

/-- Namespace Management, SEL 1; NSID FFFFFFFFh names every namespace. A namespace that holds a sealed evidence zone is not deleted, nor any under HOLD
(log entry 41). -/
def deleteCmd (s : State) (cmd : Cmd) (nsid : Nat) (c : Chip) : Chip :=
  let all := c.host.nss.filterMap (fun p => if p.2.isSome then some p.1 else none)
  let nss := if nsid = 0xFFFFFFFF then all else if nsid ≠ 0 ∧ (c.ns (nsxOf nsid)).isSome then [nsxOf nsid] else []
  if nss = [] ∧ nsid ≠ 0xFFFFFFFF then c.replyN cmd stNs
  else if nss.any (fun x => (c.ns x).any (·.holdsSeal)) then c.replySt cmd .other cstSealed
  else if s.fuse.lifecycle = .hold then c.replySt cmd .other cstHold
  else (nss.foldl (fun c x => c.deleteNs s.env x) c).replyN cmd stOk

/-- NAMESPACE_MANAGEMENT (R322). -/
def execNamespaceManagement (cmd : Cmd) (sel nsid : Nat) (zoned : Bool) (size : Nat) (mode w : Nat) (handles : List Nat) (s : State) :
    Host.Outcome State Fault Refusal :=
  adminItems cmd (fun s c =>
    match sel with
    | 0 => c.createNs s.env cmd zoned size mode w handles
    | 1 => deleteCmd s cmd nsid c
    | _ => c.replyN cmd stField) s

/-- One controller is attached (R283): the first is the owner, the second the standby. -/
def Ns.attach (n : Ns) (f : Nat) : Ns := if n.owner.isNone && n.standby.isNone then { n with owner := some f } else
  if n.owner.isNone then { n with owner := some f } else { n with standby := some f }

/-- The attachments of a list fail (R283). -/
def Chip.attachStop (c : Chip) (n : Ns) (ctrls : List Nat) : Option NStat :=
  let have_ := n.owner.toList ++ n.standby.toList
  let after := have_ ++ ctrls
  if ctrls = [] ∨ ctrls.any (fun f => !(c.func f).present) then some stCtrlList
  else if ctrls.any have_.contains then some stAttached
  else if 2 < after.length ∨ (after.length = 2 ∧ (c.func (after.getD 0 0)).link = (c.func (after.getD 1 0)).link) then some stCtrlList
  else none

/-- NAMESPACE_ATTACHMENT (R283). -/
def execNamespaceAttachment (cmd : Cmd) (sel nsid : Nat) (ctrls : List Nat) (s : State) : Host.Outcome State Fault Refusal :=
  adminItems cmd (fun s c =>
    let nsx := nsxOf nsid
    match (if nsid = 0 then none else c.ns nsx) with
    | none => c.replyN cmd stNs
    | some n =>
      match sel with
      | 0 =>
        match c.attachStop n ctrls with
        | some st => c.replyN cmd st
        | none => (c.updNs nsx (fun n => ctrls.foldl Ns.attach n)).replyN cmd stOk
      | 1 =>
        if ctrls = [] ∨ ctrls.any (fun f => n.owner != some f && n.standby != some f) then c.replyN cmd stNotAttached
        else
          let c1 := c.dropCmds s.env stNs (fun p => p.nsx == nsx && ctrls.contains p.cmd.fn) (fun o => o.nsx == nsx && ctrls.contains o.cmd.fn)
          (c1.updNs nsx (fun n => { n with
            owner := if n.owner.any ctrls.contains then none else n.owner
            standby := if n.standby.any ctrls.contains then none else n.standby
            move := none })).replyN cmd stOk
      | _ => c.replyN cmd stField) s

/-! Firmware (R311, R350). -/

/-- FIRMWARE_IMAGE_DOWNLOAD (R311): pieces in units of 4 KiB, up to 16 MiB. -/
def execFirmwareImageDownload (cmd : Cmd) (off len : Nat) (s : State) : Host.Outcome State Fault Refusal :=
  admin cmd (fun _ c =>
    if len = 0 ∨ off % 4096 ≠ 0 ∨ len % 4096 ≠ 0 ∨ 2 ^ 24 < off + len then c.replyN cmd stField
    else if c.host.fwPieces.any (fun p => decide (off < p.1 + p.2) && decide (p.1 < off + len)) then c.replyN cmd stOverlap
    else { c with host := { c.host with fwPieces := insertBy (fun p => p.1) (off, len) c.host.fwPieces } }.replyN cmd stOk) s

/-- The pieces received make one image from offset 0 without a gap. -/
def fwWhole (ps : List (Nat × Nat)) : Bool :=
  ps != [] && (ps.foldl (fun (a : Bool × Nat) p => (a.1 && decide (p.1 = a.2), p.1 + p.2)) (true, 0)).1

/-- Firmware Commit (R311): CA 0 and 1 write the image into a slot, CA 1 and 2 activate a slot from the next reset; an activation raises the minimum security
version of its key (R350). Slot 0 names the slot that is not active. -/
def firmwareCommit (cmd : Cmd) (ca fs keyid svn : Nat) (sigOk : Bool) (s : State) : State :=
  let c := s.chip
  let slot := if fs = 0 then 1 - c.host.fwActive % 2 else fs - 1
  let answer := fun (c : Chip) => { s with chip := c }
  if lifecycleRefuses s then answer (c.replySt cmd .other cstLife)
  else if 3 ≤ ca then answer (c.replyN cmd stField)
  else if 2 < fs then answer (c.replyN cmd stFwSlot)
  else if (ca ≤ 1 && !fwWhole c.host.fwPieces) || !sigOk || 4 ≤ keyid || svn < s.fuse.svn.getD keyid 0 then answer (c.replyN cmd stImage)
  else
    let h := { c.host with
      fwPieces := if ca ≤ 1 then [] else c.host.fwPieces
      fwSlots := if ca ≤ 1 then updateAt c.host.fwSlots slot (fun _ => svn) else c.host.fwSlots
      fwActive := if 1 ≤ ca then slot else c.host.fwActive }
    { s with
      chip := { c with host := h }.replyN cmd stOk
      fuse := if 1 ≤ ca then { s.fuse with svn := updateAt s.fuse.svn keyid (Nat.max svn) } else s.fuse }

/-- FIRMWARE_COMMIT (R311). -/
def execFirmwareCommit (cmd : Cmd) (ca fs : Nat) (keyid svn : Nat) (sigOk : Bool) (s : State) : Host.Outcome State Fault Refusal :=
  .next (adminOp cmd (firmwareCommit cmd ca fs keyid svn sigOk) s)

/-! Format and sanitize (R312-R315). -/

/-- Starts the progress record (R313). -/
def Chip.startProgress (c : Chip) (action nsx total : Nat) (cmd : Cmd) (nss : List Nat) : Chip :=
  { c with host := { c.host with progress := ⟨action, 1, nsx, total, 0, c.stamp, c.host.progress.seq + 1, 0, some cmd, nss⟩ } }.pass

/-- A format or sanitize is refused (R312, R314, R315): one that runs, a sealed zone, HOLD. -/
def wipeStop (s : State) (c : Chip) (nss : List Nat) : Option (NStat × Nat) :=
  if c.host.progress.state = 1 then some (if c.host.progress.action ≤ 2 then (stSanitize, 0) else (stFormat, 0))
  else if nss.any (fun x => (c.ns x).any (·.holdsSeal)) then some (nvmeOf .other cstSealed, cstSealed)
  else if s.fuse.lifecycle = .hold then some (nvmeOf .other cstHold, cstHold)
  else none

/-- FORMAT_NVM (R314): it completes with its last unit. -/
def execFormatNvm (cmd : Cmd) (nsid lbaf ses : Nat) (s : State) : Host.Outcome State Fault Refusal :=
  admin cmd (fun s c =>
    let owned := c.host.nss.filterMap (fun p => if p.2.any (fun n => n.owner == some cmd.fn) then some p.1 else none)
    let nss := if nsid = 0xFFFFFFFF then owned else if (c.attached cmd.fn nsid).isSome then [nsxOf nsid] else []
    if lbaf ≠ 0 then c.replyN cmd stBadFormat
    else if 2 ≤ ses then c.replyN cmd stField
    else if nss = [] then c.replyN cmd stNs
    else
      match wipeStop s c nss with
      | some (st, d) => c.reply cmd st d 0
      | none => c.startProgress (3 + ses) (nss.headD 0) (if ses = 0 then 1 else 1 + (c.nsCblks nss).length) cmd nss) s

/-- A unit can end: the commands that were accepted before the start are done (log entry 41). -/
def Chip.unitReady (c : Chip) (nss : List Nat) (all : Bool) : Bool :=
  !c.host.cmds.any (fun p => all || nss.contains p.nsx) && !c.host.zoneOps.any (fun o => all || nss.contains o.nsx)

/-- A unit of the record is done: the record is rewritten, and its last unit ends it with what `done` does. -/
def Chip.unitDone (c : Chip) (done : Chip → Chip) : Chip :=
  let p := c.host.progress
  let n := p.done + 1
  let c1 := { c with host := { c.host with progress := { p with
    done := n
    seq := p.seq + 1
    fails := 0
    state := if p.total ≤ n then 2 else 1 } } }
  if p.total ≤ n then done c1 else c1

/-- A unit's erase failed on one of its blocks (R118, R312): which one is open; the block is retired, and a third failure ends the run as failed. -/
def Chip.unitFailed (c : Chip) (e : Env) (blocks : List (Nat × Nat)) (failed : Chip → Chip) : Chip :=
  let p := c.host.progress
  let (i, c0) := c.pick (Nat.max 1 blocks.length)
  let c1 := match blocks[i]? with
    | some (d, b) => (c0.addGrown d (2 ^ (e.diePartDesc d).planes - 1) 2 b).retireCheck e d
    | none => c0
  let c2 := { c1 with host := { c1.host with progress := { c1.host.progress with
    fails := p.fails + 1
    seq := p.seq + 1
    state := if 3 ≤ p.fails + 1 then 3 else 1 } } }
  if 3 ≤ p.fails + 1 then failed c2 else c2

/-- The first cord block that a format still erases: one of its namespaces' zones, or a conventional one without a valid sector. -/
def Chip.formatTarget (c : Chip) : Option CordBlk :=
  c.map.cblks.find? (fun b => b.conventional && c.cblkQuiet b.cord b.idx && decide (c.validCount b.cord b.idx = 0) && decide (0 < b.groups))

/-- The format command ends. -/
def Chip.formatEnd (c : Chip) (st : NStat) : Chip :=
  match c.host.progress.cmd with
  | some cmd => { c with host := { c.host with progress := { c.host.progress with cmd := none } } }.replyN cmd st
  | none => c

/-- FORMAT_UNIT_DONE (R313, R314). Unit 0 unmaps or resets; each later unit erases one cord block. -/
def execFormatUnitDone (ok : Bool) (s : State) : Host.Outcome State Fault Refusal :=
  onItems (fun c =>
    let p := c.host.progress
    let e := s.env
    if p.state ≠ 1 ∨ p.action < 3 ∨ !c.unitReady p.nss false then c
    else if p.done = 0 then (p.nss.foldl (fun c x => c.clearNs e x) c).unitDone (fun c => c.formatEnd stOk)
    else
      match c.formatTarget with
      | none => c.unitDone (fun c => c.formatEnd stOk)
      | some b =>
        if ok then (c.eraseCblk e b.cord b.idx).unitDone (fun c => c.formatEnd stOk)
        else c.unitFailed e b.members (fun c => c.formatEnd (stInternal true))) s

/-- Sanitize starts (R312): its command completes at once, and the units follow. Only PFs sanitize. -/
def sanitize (action : Nat) (cmd : Cmd) (s : State) : Host.Outcome State Fault Refusal :=
  admin cmd (fun s c =>
    let all := c.host.nss.map (·.1)
    if !c.isPf cmd.fn then c.replyN cmd stOpcode
    else
      match wipeStop s c all with
      | some (st, d) => c.reply cmd st d 0
      | none => (c.startProgress action 0 (c.map.cords.length + action) cmd []).replyN cmd stOk) s

/-- SANITIZE_BLOCK_ERASE (R312). -/
def execSanitizeBlockErase (cmd : Cmd) (s : State) : Host.Outcome State Fault Refusal := sanitize 1 cmd s

/-- SANITIZE_CRYPTO_ERASE (R312). -/
def execSanitizeCryptoErase (cmd : Cmd) (s : State) : Host.Outcome State Fault Refusal := sanitize 2 cmd s

/-- SANITIZE_OVERWRITE (R312): Invalid Field in Command. -/
def execSanitizeOverwrite (cmd : Cmd) (s : State) : Host.Outcome State Fault Refusal :=
  admin cmd (fun _ c => c.replyN cmd (if c.isPf cmd.fn then stField else stOpcode)) s

/-- SANITIZE_EXIT_FAILURE_MODE (R312): a failed sanitize stands no longer. -/
def execSanitizeExitFailureMode (cmd : Cmd) (s : State) : Host.Outcome State Fault Refusal :=
  admin cmd (fun _ c =>
    let p := c.host.progress
    if !c.isPf cmd.fn then c.replyN cmd stOpcode
    else if p.state = 1 then c.replyN cmd (if p.action ≤ 2 then stSanitize else stFormat)
    else
      let c1 := if p.state = 3 ∧ p.action ≤ 2 then { c with host := { c.host with progress := { p with
        state := 0
        seq := p.seq + 1 } } } else c
      c1.replyN cmd stOk) s

/-- Unit 0 of a sanitize (R312): the map, directory, journal, packed-extent index, zone table, FDP state, emit rings and log 0xC1 are empty. -/
def Chip.sanitizeMap (c : Chip) (e : Env) : Chip :=
  let c1 := c.dropGroups e (fun g => g.cls == .host || g.cls == .gc || g.cls == .map || g.cls == .journal)
  let nss := c1.host.nss.map (·.1)
  let c2 := nss.foldl (fun c x => (c.unmapNs x).updNs x (fun n => { n with
    zones := []
    changed := []
    parityLost := none })) c1
  { c2 with
    host := { c2.host with emit := [] }
    fn := { c2.fn with fns := c2.fn.fns.map (fun p => (p.1, { p.2 with logC1 := [] })) }
    map := { c2.map with
      journal := []
      dir := []
      ratio := [] } }

/-- Every key of the 256 cipher user pages is erased (R312). -/
def Chip.eraseUserKeys (c : Chip) : Chip :=
  { c with key := { c.key with
    slots := c.key.slots.filter (fun p => decide (p.1 < 128))
    pages := []
    vault := c.key.vault.filter (fun v => decide (128 ≤ v.slot) == false) } }

/-- The cord blocks of a cord that a sanitize erases. -/
def Chip.sanitizeCblks (c : Chip) (cord : Nat) : List CordBlk :=
  c.map.cblks.filter (fun b => b.cord == cord && (b.cls == .host || b.cls == .gc || b.cls == .map || b.cls == .journal))

/-- The sanitize has ended: the PF that started it hears of it (log entry 20). -/
def Chip.sanitizeEnd (c : Chip) : Chip :=
  match c.host.progress.cmd with
  | some cmd => ({ c with host := { c.host with progress := { c.host.progress with cmd := none } } }.asyncEvent cmd.fn 6 1).aerPump cmd.fn 1
  | none => c

/-- SANITIZE_UNIT_DONE (R312, R313). -/
def execSanitizeUnitDone (ok : Bool) (s : State) : Host.Outcome State Fault Refusal :=
  onItems (fun c =>
    let p := c.host.progress
    let e := s.env
    if p.state ≠ 1 ∨ 2 < p.action ∨ !c.unitReady [] true then c
    else if p.done = 0 then (c.sanitizeMap e).unitDone Chip.sanitizeEnd
    else if p.action = 2 ∧ p.done = 1 then c.eraseUserKeys.unitDone Chip.sanitizeEnd
    else
      match c.map.cords[p.done - p.action]? with
      | none => c.unitDone Chip.sanitizeEnd
      | some x =>
        let bs := c.sanitizeCblks x.id
        if ok then (bs.foldl (fun c b => c.eraseCblk e b.cord b.idx) c).unitDone Chip.sanitizeEnd
        else c.unitFailed e (bs.flatMap (·.members)) Chip.sanitizeEnd) s

end Sys2Proof.Machine
end

