-- ==== Sys2Proof/Machine/Rings.lean ====
section
/-! DEFINITION. The descriptor rings of the transform complexes (R264-R275): fetch, the operations of R269, write-back, halt and resume,
and the fencing of lanes (R248). A descriptor's operation and its write-back are one command (log entry 24). -/

namespace Sys2Proof.Machine

/-! Where a range lies. -/

/-- A range of a descriptor: bytes of the DRAM by offset, or bytes of a buffer. -/
inductive Place where
  | dram (off : Nat)
  | buf (h off : Nat)
  deriving DecidableEq, Repr

/-- The place that a descriptor or a gather entry names; none where a handle is not valid or not the region's, or where an address lies outside the
aperture or carries an offset (R268, R269, R271). -/
def placeOf (e : Env) (c : Chip) (g : Nat) (isBuf : Bool) (a off n : Nat) : Option Place :=
  if isBuf then
    if handleValid e c a && (!isNear a || handleRegion a == g) && decide (off + n ≤ 16384) then some (.buf a off) else none
  else if off = 0 ∧ 0x40000000 ≤ a ∧ a + n ≤ 0x80000000 then some (.dram (a - 0x40000000)) else none

/-- The DRAM offset of a place, none in the near pool. -/
def Place.offset : Place → Option Nat
  | .dram o => some o
  | .buf h o => if isNear h then none else some (farOffset h + o)

/-- `n` bytes of a place. -/
def Place.read (m : Memories) (n : Nat) : Place → List Byte
  | .dram o => Mem.readBytes m.dram o n
  | .buf h o => bufBytes m h o n

/-- Bytes written to a place. -/
def Place.write (m : Memories) (bs : List Byte) : Place → Memories
  | .dram o => { m with dram := Mem.writeBytes m.dram o bs }
  | .buf h o => setBufBytes m h o bs

/-- A read of the DRAM meets a burst that ECC cannot correct (R392). -/
def Chip.dramReadBad (c : Chip) (o n : Nat) : Bool := c.dram.poison.any (fun b => decide (b * 64 < o + n) && decide (o < b * 64 + 64))

/-- A write of the DRAM covers only a part of a burst that ECC cannot correct. -/
def Chip.dramWriteBad (c : Chip) (o n : Nat) : Bool :=
  c.dram.poison.any (fun b => decide (b * 64 < o + n) && decide (o < b * 64 + 64) && !(decide (o ≤ b * 64) && decide (b * 64 + 64 ≤ o + n)))

/-- A write of whole bursts ends their errors. -/
def Chip.dramHeal (c : Chip) (o n : Nat) : Chip :=
  { c with dram := { c.dram with poison := c.dram.poison.filter (fun b => !(decide (o ≤ b * 64) && decide (b * 64 + 64 ≤ o + n))) } }

/-- A read of a place completes with BUS_ERROR (R273). -/
def Place.readBad (c : Chip) (n : Nat) (p : Place) : Bool := p.offset.any (fun o => c.dramReadBad o n)

/-- A write of a place completes with BUS_ERROR. -/
def Place.writeBad (c : Chip) (n : Nat) (p : Place) : Bool := p.offset.any (fun o => c.dramWriteBad o n)

/-- Bytes written to a place of the state. -/
def State.put (s : State) (p : Place) (bs : List Byte) : State :=
  { s with
    mem := p.write s.mem bs
    chip := match p.offset with
      | some o => s.chip.dramHeal o bs.length
      | none => s.chip }

/-! Rings. -/

/-- Ring q of region g. -/
def Chip.tring (c : Chip) (g q : Nat) : Ring := Tab.get (fun _ => Ring.idle) c.tf.rings (g * 4 + q)

/-- Puts a ring. -/
def Chip.setTring (c : Chip) (g q : Nat) (r : Ring) : Chip :=
  { c with tf := { c.tf with rings := Tab.set (fun _ => Ring.idle) c.tf.rings (g * 4 + q) r } }

/-- The number of descriptors of a ring. -/
def Chip.tringSize (c : Chip) (g q : Nat) : Nat := 2 ^ c.fld (Reg.tqSize g q) 3 0

/-- A ring halts (R274): HALT, its event and a log entry. -/
def Chip.tringHalt (c : Chip) (g q cause : Nat) : Chip :=
  ((c.setTring g q Ring.idle).setFld (Reg.tqStat g q) 10 8 cause).raise (240 + 4 * g + q) cause 0xFFFF 0 0

/-- The write-back of a descriptor (R272): results, CTRL, HEAD, the event. A write-back that completes with BUS_ERROR halts the ring. -/
def tringBack (g q : Nat) (d : Desc) (st r0 r1 r2 : Nat) (bad : Bool) (s : State) : State :=
  let c := s.chip
  if c.dramWriteBad (d.addr + 0x30) 16 || c.dramWriteBad d.addr 4 then { s with chip := c.tringHalt g q 2 }
  else
    let ctrl := putBits (putBits (putBits d.ctrl 23 16 st) 31 31 0) 30 30 (if bad then 1 else bitsOf d.ctrl 30 30)
    let m := Mem.writeBytes s.mem.dram (d.addr + 0x30) (leBytes 4 r0 ++ leBytes 4 r1 ++ leBytes 8 r2)
    let c1 := (c.setTring g q Ring.idle).setFld (Reg.tqHead g q) 11 0 ((c.reg (Reg.tqHead g q) + 1) % c.tringSize g q)
    let c2 := (c1.bump (Reg.tqStat g q) 31 16 1).setFld (Reg.tqStat g q) 7 0 st
    { s with
      mem := { s.mem with dram := Mem.writeLe m d.addr 4 ctrl }
      chip := if bitOf d.ctrl 29 then c2.raise (224 + 4 * g + q) st 0xFFFF 0 0 else c2 }

/-- The descriptor at a DRAM offset. -/
def readDesc (m : Memories) (o : Nat) : Desc :=
  let le := fun a n => Mem.readLe m.dram (o + a) n
  ⟨le 0 4, le 8 4, le 12 4, le 4 4, le 0x14 4, le 0x18 8, le 0x20 8, le 0x28 8, le 0x10 4, o⟩

/-- A ring can start its descriptor HEAD (R267). -/
def Chip.tringReady (c : Chip) (g q : Nat) : Bool :=
  c.bit (Reg.tqCtrl g q) 0 && c.fld (Reg.tqStat g q) 10 8 == 0 && (c.tring g q).running == none &&
    c.reg (Reg.tqHead g q) % c.tringSize g q != c.reg (Reg.tqTail g q) % c.tringSize g q

/-- The next ring of a region in rotation that can start (R267). -/
def Chip.tringNext (c : Chip) (g : Nat) : Option Nat :=
  ((List.range 4).map (fun i => (Tab.get (fun _ => 0) c.tf.next g + i) % 4)).find? (c.tringReady g)

/-- A ring reads the descriptor at HEAD and starts it (R267, R274): a halt, a write-back at once where CTRL refuses it, or the descriptor runs. -/
def tringFetch (g q : Nat) (s : State) : State :=
  let c := s.chip
  let b := c.reg (Reg.tqBase g q)
  let a := b + c.reg (Reg.tqHead g q) % c.tringSize g q * 64
  if b < 0x40000000 ∨ 0x80000000 ≤ b then { s with chip := c.tringHalt g q 4 }
  else if 0x80000000 < a + 64 ∨ c.dramReadBad (a - 0x40000000) 64 then { s with chip := c.tringHalt g q 1 }
  else
    let d := readDesc s.mem (a - 0x40000000)
    let op := bitsOf d.ctrl 3 0
    if !bitOf d.ctrl 31 then { s with chip := c.tringHalt g q 3 }
    else
      let c1 := { c with tf := { c.tf with next := Tab.set (fun _ => 0) c.tf.next g ((q + 1) % 4) } }
      let s1 := { s with chip := c1.setTring g q ⟨some d⟩ }
      if bitOf d.ctrl 30 || op == 0 || decide (11 < op) || bitsOf d.ctrl 26 24 != 0 || bitsOf d.ctrl 15 4 != 0 ||
          bitsOf d.offs 15 14 != 0 || bitsOf d.offs 31 30 != 0 then
        tringBack g q d cstBad 0 0 0 false s1
      else s1

/-- A fetch by the rings of a region; none starts in degraded hold. -/
def tqFetch (g : Nat) (s : State) : State :=
  if s.chip.held || decide (s.env.part.regions ≤ g) then s
  else
    match s.chip.tringNext g with
    | none => s
    | some q => tringFetch g q s

/-! Operations. -/

/-- What a descriptor names, once its ranges are known good. -/
structure QArgs where
  g : Nat
  q : Nat
  d : Desc
  src : Place
  dst : Place
  key : List Byte
  slot : Nat

/-- How an operation ends: status, RES0, RES1, RES2, whether a data access met BUS_ERROR, and the state. -/
structure QRes where
  st : Nat
  r0 : Nat
  r1 : Nat
  r2 : Nat
  bad : Bool
  s : State

/-- An operation that met BUS_ERROR before it wrote a byte (R273). -/
def QRes.bus (s : State) : QRes := ⟨cstBus, 0, 0, 0, true, s⟩

/-- The lane kind of an operation code (R269): as `laneBits` numbers them. -/
def opLane (op : Nat) : Nat := if op ≤ 4 then 0 else if op ≤ 6 then 1 else if op ≤ 8 then 2 else if op ≤ 10 then 4 else 3

/-- Lane l of a kind is there and not fenced. -/
def Chip.ringLane (c : Chip) (e : Env) (g k l : Nat) : Bool :=
  decide (g < e.part.regions) && !c.bit (Reg.tfFence g) ((laneBits k).1 + l)

/-- A lane for a ring: the ring's own number where that lane is in service, else the lowest in service of the region; where the region has none, of
the neighbouring region (R45). -/
def Chip.ringPick (c : Chip) (e : Env) (g q k : Nat) : Option (Nat × Nat) :=
  let inn := fun (g : Nat) =>
    ((q % (laneBits k).2) :: List.range (laneBits k).2).find? (c.ringLane e g k)
  match inn g with
  | some l => some (g, l)
  | none =>
    let h := if g % 2 = 0 then g + 1 else g - 1
    (inn h).map (fun l => (h, l))

/-- The status of a key that a descriptor names (R252, R269, R346): `type` 1 XTS, 2 GCM. Secure pages only on a SECURE ring. -/
def Chip.ringKey (c : Chip) (g q type : Nat) (d : Desc) : Except Nat (Nat × List Byte) :=
  let page := bitsOf d.arg0 8 0
  if 264 ≤ page ∨ (256 ≤ page ∧ !c.bit (Reg.tqCtrl g q) 3) then .error cstBad
  else
    match c.pageSlot page (bitsOf d.arg0 15 12) with
    | none => .error cstKey
    | some i =>
      let x := c.slot i
      if x.type ≠ 0 ∧ x.type ≠ 3 ∧ x.type ≠ type then .error cstBad
      else if x.state ≠ .valid then .error cstKey
      else .ok (i, sliceBytes x.key 0 (if type = 1 then 64 else 32))

/-- Bytes at SRC that an operation reads. -/
def srcLen (d : Desc) : Nat :=
  match bitsOf d.ctrl 3 0 with
  | 2 => 0 | 3 => 0 | 10 => d.len + 16 | _ => d.len

/-- Bytes at DST that an operation may write. -/
def dstLen (d : Desc) : Nat :=
  match bitsOf d.ctrl 3 0 with
  | 5 => d.outMax | 6 => d.outMax | 9 => d.len + 16 | 11 => 32 | _ => d.len

/-- The source of a descriptor. An operation without a source names nothing. -/
def Chip.srcPlace (c : Chip) (e : Env) (g : Nat) (d : Desc) : Option Place :=
  if bitsOf d.ctrl 3 0 = 2 ∨ bitsOf d.ctrl 3 0 = 3 then some (.dram 0)
  else placeOf e c g (bitOf d.ctrl 28) d.src (bitsOf d.offs 13 0) (srcLen d)

/-- The destination of a descriptor. -/
def Chip.dstPlace (c : Chip) (e : Env) (g : Nat) (d : Desc) : Option Place :=
  placeOf e c g (bitOf d.ctrl 27) d.dst (bitsOf d.offs 29 16) (dstLen d)

/-- A handle that a descriptor names has 65,535 references (R383). -/
def Chip.refsFull (c : Chip) (p : Place) : Bool :=
  match p with
  | .dram _ => false
  | .buf h _ => (c.buffer h).refs == 65535

/-- Runs the descriptor of ring q when it carries operation `op` and a lane of its kind is in service: the checks of R39 in their order, of which
`bad`, `zero` and `limit` are the operation's own, then `run`, then the write-back. -/
def ringOp (g q op : Nat) (key : Nat) (bad zero limit : Chip → Desc → Bool) (run : QArgs → State → QRes) (s : State) : State :=
  let c := s.chip
  match (c.tring g q).running with
  | none => s
  | some d =>
    if bitsOf d.ctrl 3 0 ≠ op then s
    else
      let absent := opLane op == 1 && !s.env.part.full
      if !absent && (c.ringPick s.env g q (opLane op)).isNone then s
      else
        let sp := c.srcPlace s.env g d
        let dp := c.dstPlace s.env g d
        let k : Except Nat (Nat × List Byte) := if key = 0 then .ok (0, []) else c.ringKey g q key d
        let keyBad := fun (st : Nat) => match k with
          | .error x => x == st
          | .ok _ => false
        let st := firstFail [(absent, cstAbsent), (sp.isNone || dp.isNone || keyBad cstBad || bad c d, cstBad), (d.len == 0 || zero c d, cstZero),
          (decide (1048576 < d.len) || limit c d, cstLimit), (keyBad cstKey, cstKey),
          (sp.any c.refsFull || dp.any c.refsFull, cstWrap)]
        match st, sp, dp, k with
        | 0, some sp, some dp, .ok (i, kb) =>
          let r := if sp.readBad c (srcLen d) || dp.writeBad c (dstLen d) then QRes.bus s else run ⟨g, q, d, sp, dp, kb, i⟩ s
          let s1 := { r.s with chip := r.s.chip.countLane g (opLane op) d.len }
          tringBack g q d r.st r.r0 r.r1 r.r2 r.bad s1
        | _, _, _, _ => tringBack g q d st 0 0 0 false s

/-- No check of an operation's own. -/
def noCheck (_ : Chip) (_ : Desc) : Bool := false

/-- The end of an operation that consumed LEN bytes and wrote `bs`. -/
def wrote (x : QArgs) (bs : List Byte) (r2 : Nat) (s : State) : QRes := ⟨cstOk, x.d.len, bs.length, r2, false, s.put x.dst bs⟩

/-- COPY. The source is read whole before the destination is written. -/
def copyRun (x : QArgs) (s : State) : QRes := wrote x (x.src.read s.mem x.d.len) 0 s

/-- FILL: the 8-byte pattern of ARG0, repeated. -/
def fillRun (x : QArgs) (s : State) : QRes :=
  wrote x ((List.range x.d.len).map (fun i => BitVec.ofNat 8 (x.d.arg0 / 2 ^ (8 * (i % 8))))) 0 s

/-- The entries of a gather index table (R270). -/
def gatherTable (m : Memories) (d : Desc) : List Nat :=
  (List.range (bitsOf d.arg0 40 32)).map (fun i => Mem.readLe m.dram (bitsOf d.arg0 31 0 - 0x40000000 + 8 * i) 8)

/-- The place of a gather entry. -/
def gatherPlace (e : Env) (c : Chip) (g w : Nat) : Option Place := placeOf e c g (bitOf w 62) (bitsOf w 31 0) (bitsOf w 61 48) (bitsOf w 47 32)

/-- What the check of a whole index table gives (R270). -/
def gatherStatus (e : Env) (c : Chip) (g len : Nat) (ws : List Nat) : Nat :=
  firstFail [(ws.any (fun w => bitOf w 63 || decide (16384 < bitsOf w 47 32) || (gatherPlace e c g w).isNone) ||
      (ws.all (fun w => bitsOf w 47 32 != 0) && sumNat (ws.map (fun w => bitsOf w 47 32)) != len), cstBad),
    (ws.any (fun w => bitsOf w 47 32 == 0), cstZero),
    (ws.any (fun w => (gatherPlace e c g w).any c.refsFull), cstWrap)]

/-- GATHER (R270): the table is read and checked whole, then the entries are concatenated. -/
def gatherRun (x : QArgs) (s : State) : QRes :=
  let ws := gatherTable s.mem x.d
  if s.chip.dramReadBad (bitsOf x.d.arg0 31 0 - 0x40000000) (8 * ws.length) then QRes.bus s
  else
    let st := gatherStatus s.env s.chip x.g x.d.len ws
    let ps := ws.filterMap (fun w => (gatherPlace s.env s.chip x.g w).map (fun p => (p, bitsOf w 47 32)))
    if st ≠ cstOk then ⟨st, 0, 0, 0, false, s⟩
    else if ps.any (fun p => p.1.readBad s.chip p.2) then QRes.bus s
    else wrote x (ps.flatMap (fun p => p.1.read s.mem p.2)) 0 s

/-- SHUF: forward or reverse by ARG0 [8]. -/
def tqShufRun (x : QArgs) (s : State) : QRes :=
  let bits := bitsOf x.d.arg0 7 0
  let i := x.src.read s.mem x.d.len
  wrote x (if bitOf x.d.arg0 8 then unreshape bits i else reshape bits i) 0 s

/-- The stream that a squeeze descriptor names, on the lane that it runs on: the lane of the command where that one is in service. -/
def Chip.streamKey (c : Chip) (e : Env) (x : QArgs) (lane : Nat) : Nat :=
  let (g, l) := (c.ringPick e x.g lane 1).getD (x.g, 0)
  (g * 4 + l) * 16 + bitsOf x.d.arg0 7 4

/-- A stream. -/
def Chip.stream (c : Chip) (k : Nat) : Stream := Tab.get (fun _ => Stream.fresh) c.tf.streams k

/-- Puts a stream. -/
def Chip.setStream (c : Chip) (k : Nat) (x : Stream) : Chip :=
  { c with tf := { c.tf with streams := Tab.set (fun _ => Stream.fresh) c.tf.streams k x } }

/-- The 32 KiB of history that stand after more bytes. -/
def windowOf (bs : List Byte) : List Byte := bs.drop (bs.length - 32768)

/-- Free bytes (log entry 4). -/
def Chip.freeBytes (c : Chip) (n : Nat) : List Byte × Chip :=
  ((List.range n).map (fun i => BitVec.ofNat 8 (Config.pickFree (c.free + i))), { c with free := c.free + n })

/-- SQZ_C (R256, R257, R260). -/
def sqzCRun (lane : Nat) (x : QArgs) (s : State) : QRes :=
  let c := s.chip
  let k := c.streamKey s.env x lane
  let old := c.stream k
  let cont := bitOf x.d.arg0 8
  let fin := bitOf x.d.arg0 10
  let flush := bitOf x.d.arg0 9
  if cont && !old.live then ⟨0x83, 0, 0, 0, false, { s with chip := c.setStream k Stream.fresh }⟩
  else
    let level := bitsOf x.d.arg0 1 0
    let hist := if cont then old.history else []
    let i := x.src.read s.mem x.d.len
    let z :=
      if (fin || flush) && !(cont && old.held) then deflate level fin hist i
      else Config.deflate (16 + level * 8 + b2n fin * 4 + b2n flush * 2 + b2n (cont && old.held)) hist i
    if x.d.outMax < z.length then
      let (used, c1) := c.pick (x.d.len + 1)
      let s1 := { s with chip := c1.setStream k Stream.fresh }
      ⟨0x81, used, x.d.outMax, 0, false, s1.put x.dst (z.take x.d.outMax)⟩
    else
      let new : Stream := if fin then Stream.fresh else ⟨windowOf (hist ++ i), true, !flush⟩
      wrote x z 0 { s with chip := c.setStream k new }

/-- SQZ_X (R257, R258, R260). The bytes that a failed expansion wrote are free. -/
def sqzXRun (lane : Nat) (x : QArgs) (s : State) : QRes :=
  let c := s.chip
  let k := c.streamKey s.env x lane
  let old := c.stream k
  let cont := bitOf x.d.arg0 8
  if cont && !old.live then ⟨0x83, 0, 0, 0, false, { s with chip := c.setStream k Stream.fresh }⟩
  else
    let hist := if cont then old.history else []
    match inflate hist (x.src.read s.mem x.d.len) x.d.outMax with
    | .ok (o, used, fin) =>
      let new : Stream := if fin then Stream.fresh else ⟨windowOf (hist ++ o), true, false⟩
      ⟨cstOk, used, o.length, 0, false, State.put { s with chip := c.setStream k new } x.dst o⟩
    | .error st =>
      let (used, c1) := c.pick (x.d.len + 1)
      let (n, c2) := if st = 0x81 then (x.d.outMax, c1) else c1.pick (x.d.outMax + 1)
      let (bs, c3) := c2.freeBytes n
      ⟨st, used, n, 0, false, State.put { s with chip := c3.setStream k Stream.fresh } x.dst bs⟩

/-- DULEN of an XTS descriptor. -/
def duLen (d : Desc) : Nat := bitsOf d.arg2 12 0

/-- The data units of an XTS descriptor are wrong (R264). -/
def xtsBad (_ : Chip) (d : Desc) : Bool :=
  decide (duLen d < 16) || decide (4096 < duLen d) || (d.len % duLen d != 0 && decide (d.len % duLen d < 16))

/-- XTS_E and XTS_D (R264). -/
def xtsRun (enc : Bool) (x : QArgs) (s : State) : QRes :=
  wrote x (xtsUnits enc x.key (duLen x.d) (ceilDiv x.d.len (duLen x.d)) x.d.arg1 (x.src.read s.mem x.d.len)) 0 s

/-- Bytes of AAD of a GCM descriptor. -/
def aadLen (d : Desc) : Nat := bitsOf d.arg1 44 32

/-- The AAD range of a GCM descriptor lies outside the aperture. -/
def aadBad (_ : Chip) (d : Desc) : Bool :=
  aadLen d != 0 && (decide (bitsOf d.arg1 31 0 < 0x40000000) || decide (0x80000000 < bitsOf d.arg1 31 0 + aadLen d))

/-- AAD above 4,096 bytes. -/
def aadLimit (_ : Chip) (d : Desc) : Bool := decide (4096 < aadLen d)

/-- The AAD of a GCM descriptor. -/
def aadOf (m : Memories) (d : Desc) : List Byte := if aadLen d = 0 then [] else Mem.readBytes m.dram (bitsOf d.arg1 31 0 - 0x40000000) (aadLen d)

/-- The IV of R265: the fixed field of ARG0, then the counter, most significant byte first. -/
def gcmIv (d : Desc) (ctr : Nat) : List Byte := beBytes 4 (bitsOf d.arg0 63 32) ++ beBytes 8 ctr

/-- The counter that an encryption takes (R350, R351): the status that refuses it, or the counter. Past the middle of its block the next reservation
is written to the vault: a job of the key store. -/
def Chip.gcmCounter (c : Chip) (i : Nat) : Except Nat (Nat × Chip) :=
  let x := c.slot i
  if x.resv ≤ x.ctr then .error (if 2 ^ 64 - 1 < x.resv + gcmBlock then cstWrap else cstBusy)
  else
    let c1 := c.setSlot i { x with ctr := x.ctr + 1 }
    let due := decide (x.resv < x.ctr + 1 + gcmBlock / 2) && decide (x.resv + gcmBlock ≤ 2 ^ 64 - 1) &&
      !(c.key.jobs.any (fun j => j.op == 6 && j.slot == i))
    let (p, n) := c.slotName i
    if due then .ok (x.ctr, { c1 with key := { c1.key with jobs := c1.key.jobs ++ [⟨6, i, p, n, x.key, true, false, false, none⟩] } })
    else .ok (x.ctr, c1)

/-- GCM_E (R265, R266): the tag stands at DST + LEN, RES2 is the counter. -/
def gcmERun (x : QArgs) (s : State) : QRes :=
  if aadLen x.d ≠ 0 ∧ s.chip.dramReadBad (bitsOf x.d.arg1 31 0 - 0x40000000) (aadLen x.d) then QRes.bus s
  else
    match s.chip.gcmCounter x.slot with
    | .error st => ⟨st, 0, 0, 0, false, s⟩
    | .ok (ctr, c) =>
      let ct := gcmCrypt x.key (gcmIv x.d ctr) (x.src.read s.mem x.d.len)
      wrote x (ct ++ gcmTag x.key (gcmIv x.d ctr) (aadOf s.mem x.d) ct) ctr { s with chip := c }

/-- GCM_D (R265, R266): a tag mismatch zeroes the destination and completes with GCM_TAG. -/
def gcmDRun (x : QArgs) (s : State) : QRes :=
  if aadLen x.d ≠ 0 ∧ s.chip.dramReadBad (bitsOf x.d.arg1 31 0 - 0x40000000) (aadLen x.d) then QRes.bus s
  else
    let all := x.src.read s.mem (x.d.len + 16)
    let ct := all.take x.d.len
    let iv := gcmIv x.d x.d.arg2
    if gcmTag x.key iv (aadOf s.mem x.d) ct = all.drop x.d.len then wrote x (gcmCrypt x.key iv ct) x.d.arg2 s
    else { wrote x (List.replicate x.d.len 0) x.d.arg2 s with st := 0x82 }

/-- HASH: the SHA-256 digest at DST. -/
def hashRun (x : QArgs) (s : State) : QRes := wrote x (sha256 (x.src.read s.mem x.d.len)) 0 s

/-- The index table of a gather lies outside the aperture. -/
def gatherBad (_ : Chip) (d : Desc) : Bool :=
  let n := Nat.min 256 (bitsOf d.arg0 40 32)
  decide (bitsOf d.arg0 31 0 < 0x40000000) || decide (0x80000000 < bitsOf d.arg0 31 0 + 8 * n)

/-! Lanes. -/

/-- Lane kind and number of a bit of TF_FENCE. -/
def laneOfBit (b : Nat) : Nat × Nat :=
  if b < 8 then (0, b) else if b < 10 then (2, b - 8) else if b = 10 then (4, 0) else if b < 15 then (1, b - 11) else (3, 0)

/-- One lane of a region is fenced (R248): the stage of an item that holds it starts again, the streams of a squeeze lane are cleared. -/
def Chip.fenceLane (g : Nat) (c : Chip) (b : Nat) : Chip :=
  let (k, l) := laneOfBit b
  let items := c.host.items.map (fun x =>
    match x.laneLeft with
    | (k', _) :: t => if x.stage == .lanes && x.region == g && k' == k && x.lane == some l then
        { x with
          laneLeft := (k', stageBytes x k') :: t
          lane := none }
        else x
    | [] => x)
  let c1 := (c.orReg (Reg.tfFence g) (2 ^ b)).orReg (Reg.tfStatus g) (2 ^ b)
  let c2 := { c1 with host := { c1.host with items := items } }
  if k = 1 then
    { c2 with tf := { c2.tf with streams := c2.tf.streams.filter (fun p => p.1 / 16 != g * 4 + l) } }
  else c2

/-- The lane bits that a part has: none of an absent region, no squeeze lanes on a part without them. -/
def Env.laneBit (e : Env) (g b : Nat) : Bool := decide (g < e.part.regions) && decide (b < 16) && ((laneOfBit b).1 != 1 || e.part.full)

/-- Fences lanes of a region. -/
def Chip.fenceLanes (c : Chip) (e : Env) (g mask : Nat) : Chip :=
  ((List.range 16).filter (fun b => bitOf mask b && e.laneBit g b && !c.bit (Reg.tfFence g) b)).foldl (Chip.fenceLane g) c

/-! Commands. -/

/-- TF_LANE_FENCE. -/
def execTfLaneFence (g mask : Nat) (s : State) : Host.Outcome State Fault Refusal := onChip (fun c => c.fenceLanes s.env g mask) s

/-- TQ_DESCRIPTOR_FETCH. -/
def execTqDescriptorFetch (g : Nat) (s : State) : Host.Outcome State Fault Refusal := .next (tqFetch g s)

/-- COPY. -/
def execCopy (g q : Nat) (s : State) : Host.Outcome State Fault Refusal := .next (ringOp g q 1 0 noCheck noCheck noCheck copyRun s)

/-- FILL. -/
def execFill (g q : Nat) (s : State) : Host.Outcome State Fault Refusal := .next (ringOp g q 2 0 noCheck noCheck noCheck fillRun s)

/-- GATHER. -/
def execGather (g q : Nat) (s : State) : Host.Outcome State Fault Refusal :=
  .next (ringOp g q 3 0 gatherBad (fun _ d => bitsOf d.arg0 40 32 == 0) (fun _ d => decide (256 < bitsOf d.arg0 40 32)) gatherRun s)

/-- TQ_SHUF. -/
def execTqShuf (g q : Nat) (s : State) : Host.Outcome State Fault Refusal :=
  .next (ringOp g q 4 0 (fun _ d => bitsOf d.arg0 7 0 != 0 && !shufImmOk (bitsOf d.arg0 7 0)) noCheck noCheck tqShufRun s)

/-- SQZ_C. -/
def execSqzC (g q lane : Nat) (s : State) : Host.Outcome State Fault Refusal :=
  .next (ringOp g q 5 0 (fun _ d => bitsOf d.arg0 3 2 != 0 || bitsOf d.arg0 63 11 != 0) (fun _ d => d.outMax == 0) noCheck (sqzCRun lane) s)

/-- SQZ_X. -/
def execSqzX (g q lane : Nat) (s : State) : Host.Outcome State Fault Refusal :=
  .next (ringOp g q 6 0 noCheck (fun _ d => d.outMax == 0) noCheck (sqzXRun lane) s)

/-- XTS_E. -/
def execXtsE (g q : Nat) (s : State) : Host.Outcome State Fault Refusal := .next (ringOp g q 7 1 xtsBad noCheck noCheck (xtsRun true) s)

/-- XTS_D. -/
def execXtsD (g q : Nat) (s : State) : Host.Outcome State Fault Refusal := .next (ringOp g q 8 1 xtsBad noCheck noCheck (xtsRun false) s)

/-- GCM_E. -/
def execGcmE (g q : Nat) (s : State) : Host.Outcome State Fault Refusal := .next (ringOp g q 9 2 aadBad noCheck aadLimit gcmERun s)

/-- GCM_D. -/
def execGcmD (g q : Nat) (s : State) : Host.Outcome State Fault Refusal := .next (ringOp g q 10 2 aadBad noCheck aadLimit gcmDRun s)

/-- TQ_HASH. -/
def execTqHash (g q : Nat) (s : State) : Host.Outcome State Fault Refusal := .next (ringOp g q 11 0 noCheck noCheck noCheck hashRun s)

/-- TQ_CTRL.RESUME clears a halt (R274). -/
def Chip.tringResume (c : Chip) (g q : Nat) : Chip := c.setFld (Reg.tqStat g q) 10 8 0

/-- TQ_RESUME: RESUME clears HALT and runs HEAD from its fetch. -/
def execTqResume (g q : Nat) (s : State) : Host.Outcome State Fault Refusal := onChip (fun c => c.tringResume g q) s

end Sys2Proof.Machine
end

