-- ==== Sys2Proof/Machine/Faults.lean ====
section
/-! DEFINITION. Failures inside the part and what contains them: self-checks, lockstep restarts, ECC errors of the DRAM
(R23, R44, R45, R80, R120, R132, R162, R248, R392). -/

namespace Sys2Proof.Machine

/-! Self-checks (R45). -/

/-- A channel engine fails: its bit, its event, and the fence with an entry of CAUSE 7 (R45, R120). -/
def Chip.engineFail (c : Chip) (e : Env) (n bit : Nat) : Chip :=
  if !e.chanPresent n || (c.chan n).phase == .fenced then c
  else ((c.orReg (Reg.chFault n) (2 ^ bit)).raise n 0 0xFFFF 0 0).fenceChan e n true

/-- Pages that were read for a complex that no longer decodes are read no more: their jobs wait to be booked again (R45). -/
def Chip.undecoded (c : Chip) (k : Nat) : Chip :=
  let hit := fun (j : CalJob) => dieCluster j.die == k && j.read && j.sects.any (fun s => s.done.isNone)
  { c with cal := { c.cal with jobs := updateWhere hit (fun j => { j with read := false }) c.cal.jobs } }

/-- A decoder complex is fenced and its cluster with it (R45). -/
def Chip.fenceComplex (c : Chip) (e : Env) (k bit : Nat) : Chip :=
  if (c.dec k).fenced then c
  else
    let c1 := ((c.orReg (Reg.decFault k) (2 ^ bit)).raise (128 + k) 0 0xFFFF 0 0)
    ((c1.setDec k { c1.dec k with fenced := true }).undecoded k).fenceCluster e k

/-- A decoder lane fails its self-check (R45, R132). -/
def Chip.decLaneFail (c : Chip) (e : Env) (k lane : Nat) : Chip :=
  if c.bit (Reg.decCtrl k) (lane + 1) || decide (4 < lane) then c
  else ((c.orReg (Reg.decFault k) (2 ^ lane)).raise (128 + k) 0 0xFFFF 0 0).decFence e k (2 ^ lane)

/-- A transform lane fails its self-check (R45, R248). -/
def Chip.tfLaneFail (c : Chip) (e : Env) (g lane : Nat) : Chip :=
  if !e.laneBit g lane || c.bit (Reg.tfFence g) lane then c
  else ((c.orReg (Reg.tfFault g) (2 ^ lane)).raise (256 + g) 0 0xFFFF 0 0).fenceLanes e g (2 ^ lane)

/-- The page of an open row whose landing or parity buffer this is: group, row, slot (none for parity) and plane. -/
def Chip.rowOfBuf (c : Chip) (h : Nat) : Option (Nat × Nat × Option Nat × Nat) :=
  let data := fun (g : Group) => (g.pages.find? (fun p => p.buf == h && !p.passed)).map (fun p => (g.id, p.row, some p.slot, p.plane))
  let par := fun (g : Group) => (firstIdx (fun b => b == h) g.parity).map (fun i => (g.id, i / Nat.max 1 g.planes, none, i % Nat.max 1 g.planes))
  c.map.groups.findSome? (fun g => (data g).or (par g))

/-- A buffer's contents are lost: in an open row it is rebuilt, or the row takes PARITY_LOST (R45, R162, R163, R392). -/
def Chip.bufLost (c : Chip) (e : Env) (h : Nat) : Chip :=
  match c.rowOfBuf h with
  | some (g, row, slot, plane) => c.losePageOf e g row slot plane
  | none => c

/-- An uncorrectable word of the near pool: counted, event 306 (NP_ECC), and its buffer's page is lost. -/
def Chip.sramFail (c : Chip) (e : Env) (h : Nat) : Chip :=
  if !isNear h || !handleForm e c h then c
  else (((c.bump (Reg.npEcc (handleRegion h)) 15 0 1).raise0 306)).bufLost e h

/-- UNIT_SELF_CHECK_FAIL (R45). A unit that the part has not, or that is fenced already, does not fail. -/
def unitFail (u : UnitRef) (s : State) : State :=
  let e := s.env
  let on := fun (f : Chip → Chip) => { s with chip := f s.chip }
  let cluster := fun (k : Nat) => decide (k < 8 * e.part.regions)
  match u with
  | .channelParity n => on (fun c => c.engineFail e n 0)
  | .channelWatchdog n => on (fun c => c.engineFail e n 1)
  | .decLane k lane => if cluster k then on (fun c => c.decLaneFail e k lane) else s
  | .decComplex k => if cluster k then on (fun c => c.fenceComplex e k 5) else s
  | .bandTable k => if cluster k then on (fun c => c.fenceComplex e k 6) else s
  | .kerfCore k => if cluster k || (decide (32 ≤ k) && decide (k < 40)) then on (fun c => c.kerfCoreFail k) else s
  | .tfLane g lane => on (fun c => c.tfLaneFail e g lane)
  | .wardenCore w =>
    if (s.chip.warden w).fenced || decide (8 ≤ w) then s
    else wardenFail w (if s.chip.failCause w true = 0 then 3 else s.chip.failCause w true) s
  | .sramWord h => on (fun c => c.sramFail e h.toNat)

/-- UNIT_SELF_CHECK_FAIL (R45). -/
def execUnitSelfCheckFail (u : UnitRef) (s : State) : Host.Outcome State Fault Refusal :=
  onItems id (unitFail u s)

/-! Lockstep pairs (R45, R80). -/

/-- The event of a block's restart (R471). -/
def restartEvent : LockstepBlk → Nat
  | .cal => 292 | .coll => 293 | .bpm => 294 | .map => 295 | .seal => 296

/-- The longest restart of a block in ticks (R45, R80). -/
def restartBound : LockstepBlk → Nat
  | .cal => 4 | .coll => 2 | .bpm => 10 | .map => 16 | .seal => 20

/-- A block restarts or serves again: the flags that its commands look at. -/
def Chip.markRestart (c : Chip) (b : LockstepBlk) (on : Bool) : Chip :=
  match b with
  | .cal => { c with cal := { c.cal with restarting := on } }
  | .coll => { c with cal := { c.cal with collRestarting := on } }
  | .bpm => { c with buf := { c.buf with restarting := on } }
  | _ => c

/-- The checker of a pair finds a mismatch: the pair restarts from its state store (R45). The calendar master loses the plans that have not opened and
the one it makes (R80). -/
def Chip.mismatch (c : Chip) (b : LockstepBlk) : Chip :=
  let c1 := { c with rcu := { c.rcu with restarts := c.rcu.restarts.filter (fun (p : LockstepBlk × Nat) => p.1 != b) ++ [(b, c.tick + restartBound b)] } }
  let c2 := c1.markRestart b true
  let c3 := if b = .cal then ({ c2 with cal := { c2.cal with
    committed := []
    planDone := true } }).bump Reg.calStatus 15 8 1 else c2
  (c3.raise0 (restartEvent b)).excuseAll

/-- LOCKSTEP_MISMATCH (R45). In reset nothing runs. -/
def execLockstepMismatch (b : LockstepBlk) (s : State) : Host.Outcome State Fault Refusal :=
  onChip (fun c => if c.rcu.phase = .inReset then c else c.mismatch b) s

/-- LOCKSTEP_RESTART_DONE (R80): the block serves again; planning resumes at the next boundary. -/
def execLockstepRestartDone (b : LockstepBlk) (s : State) : Host.Outcome State Fault Refusal :=
  onItems (fun c => if c.restartRuns b then { c with rcu := { c.rcu with restarts := c.rcu.restarts.filter (fun p => p.1 != b) } }.markRestart b false else c) s

/-! ECC of the DRAM (R392). -/

/-- A map cache slot's page is fetched again; a dirty one takes its journal records when the fetch ends (R392). Which page a slot holds is the mapping
engine's: a free one of those resident (log entry 42). -/
def Chip.refetch (c : Chip) : Chip :=
  let (i, c1) := c.pick c.cacheSlots
  match c1.map.slots[i]? with
  | none => c1
  | some (page, x) =>
    if x.state == .clean then c1.setMslot page { x with state := .fetching, read := false }
    else if x.state == .dirty then
      c1.setMslot page { x with state := .fetching, read := false, held := c1.map.journal.filter (fun r => entPage r.1 == page) }
    else c1

/-- The far buffer that a DRAM offset lies in, and the map cache's range (R393). -/
def Chip.farBufAt (c : Chip) (off : Nat) : Option Nat :=
  if 2 ^ 31 ≤ off && decide (off < 2 ^ 31 + c.dram.farNow * 2 ^ 30) then some (farHandle ((off - 2 ^ 31) / 16384)) else none

/-- A burst with errors in one device, or in two (R392). -/
def Chip.dramError (c : Chip) (e : Env) (off dev : Nat) (dev2 : Option Nat) : Chip :=
  let c0 := c.setReg Reg.memEccLast (dev % 16 * 16 + dramSub off)
  if dev2.all (fun d => d == dev) then c0.bump Reg.memEcc 31 16 1
  else
    let c1 := (c0.bump Reg.memEcc 15 0 1).raise0 305
    let c2 := { c1 with
      dram := { c1.dram with poison := insertNat (dramBurst off) c1.dram.poison }
      resp := ⟨0, cstBus⟩ }
    match c2.farBufAt off with
    | some h => c2.bufLost e h
    | none =>
      if 2 ^ 31 + c.dram.farNow * 2 ^ 30 ≤ off && decide (off < 2 ^ 31 + (c.dram.farNow + c.dram.mapNow) * 2 ^ 30) then c2.refetch else c2

/-- DRAM_ECC_ERROR (R392). A device beyond the ten of a sub-channel, and an offset beyond the installed memory, carries no error. -/
def execDramEccError (offset dev : Nat) (dev2 : Option Nat) (s : State) : Host.Outcome State Fault Refusal :=
  onItems (fun c =>
    if 9 < dev || dev2.any (fun d => decide (9 < d)) || c.dram.rate == 0 || decide (s.env.board.dramGib * 2 ^ 30 ≤ offset) then c
    else c.dramError s.env offset dev dev2) s

end Sys2Proof.Machine
end

