-- ==== Sys2Proof/Machine/Observe.lean ====
section
/-! DEFINITION. The fault log, the Tally store, MSI-X messages of events, the tick mark and CC.EN (R286, R467, R469, R472-R482). -/

namespace Sys2Proof.Machine

/-! Captures (R474, R480, R482). -/

/-- The eight words of a fault log entry (R474). -/
def LogEntry.words (x : LogEntry) : List Nat :=
  [x.time % 2 ^ 32, x.time / 2 ^ 32, x.event + x.code * 2 ^ 16 + (b2n x.warm + 2 * b2n (decide (0 < x.repeats))) * 2 ^ 24, x.repeats + x.fn * 2 ^ 16,
    x.arg0 % 2 ^ 32, x.arg0 / 2 ^ 32, x.lastDt, x.arg1]

/-- Words put into a row of capture registers. -/
def Chip.putWords (c : Chip) (at_ : Nat → Nat) (ws : List Nat) : Chip := ws.zipIdx.foldl (fun c p => c.setReg (at_ p.2) p.1) c

/-- The entry of the fault log at LOG_FL_CUR is captured; zeros beyond the entries held (R482). -/
def Chip.captureLog (c : Chip) : Chip :=
  c.putWords Reg.logFlE (match c.obs.log[c.fld Reg.logFlCur 9 0]? with | some x => x.words | none => List.replicate 8 0)

/-- The record of the Tally store at LOG_TY_CUR is captured. -/
def Chip.captureTally (c : Chip) : Chip :=
  c.putWords Reg.logTyR ((List.range 16).map (fun k => ((c.obs.store[c.fld Reg.logTyCur 10 0]?).getD []).getD k 0))

/-- The fault log is emptied; the next entry takes the ring slot that it would have taken (log entry 44). -/
def Chip.logClear (c : Chip) : Chip :=
  { c with obs := { c.obs with
    log := []
    logHead := (c.obs.logHead + c.obs.log.length) % 1024 } }

/-- LOG_FL_CLEAR: a normal-world write is ignored. -/
def execLogFlClear (acc : Access) (s : State) : Host.Outcome State Fault Refusal := onChip (fun c => if acc.secure then c.logClear else c) s

/-- LOG_FL_CUR_WRITE (R482). -/
def execLogFlCurWrite (_acc : Access) (v : Word) (s : State) : Host.Outcome State Fault Refusal :=
  onChip (fun c => (c.setFld Reg.logFlCur 9 0 (bitsOf v.toNat 9 0)).captureLog) s

/-- LOG_TY_CUR_WRITE (R482). -/
def execLogTyCurWrite (_acc : Access) (v : Word) (s : State) : Host.Outcome State Fault Refusal :=
  onChip (fun c => (c.setFld Reg.logTyCur 10 0 (bitsOf v.toNat 10 0)).captureTally) s

/-- The last capture word is read: the cursor goes on by one, within its field, and the next entry is captured (R482). -/
def Chip.captureNext (c : Chip) (tally : Bool) : Chip :=
  if tally then (c.setFld Reg.logTyCur 10 0 (c.fld Reg.logTyCur 10 0 + 1)).captureTally
  else (c.setFld Reg.logFlCur 9 0 (c.fld Reg.logFlCur 9 0 + 1)).captureLog

/-- LOG_CAPTURE_ADVANCE (R482). -/
def execLogCaptureAdvance (_acc : Access) (tally : Bool) (s : State) : Host.Outcome State Fault Refusal :=
  onChip (fun c =>
    let w := c.reg (if tally then Reg.logTyR 15 else Reg.logFlE 7)
    { c.captureNext tally with resp := ⟨BitVec.ofNat 32 w, cstOk⟩ }) s

/-! The Tally recorder (R479-R481). -/

/-- TALLY_PERIOD_END (R479): the period's closing boundary has come. -/
def execTallyPeriodEnd (s : State) : Host.Outcome State Fault Refusal :=
  onChip (fun c => if c.obs.tallyEnd ≤ c.tick then c.tallyClose else c) s

/-- TALLY_RESTART (R481): the store will be emptied at the next boundary. -/
def execTallyRestart (s : State) : Host.Outcome State Fault Refusal :=
  onChip (fun c => { c with obs := { c.obs with restart := true } }) s

/-! Events sent to a host (R476, R478). -/

/-- The function and vector of an event that is routed to a PF vector. -/
def Chip.pfRoute (c : Chip) (e : Nat) : Option (Nat × Nat) :=
  if eventFixed e || c.fld (Reg.irqRoute e) 28 27 != 2 || c.fld (Reg.irqRoute e) 23 20 == 0 then none
  else some ((c.linkRange (c.fld (Reg.irqRoute e) 17 16)).1, c.fld (Reg.irqRoute e) 10 0)

/-- One message of a pending event; the send clears its pending bit, a masked vector sets its PBA bit. -/
def Chip.sendEvent (c : Chip) (e : Nat) : Chip :=
  match c.pfRoute e with
  | none => c
  | some (f, v) => if c.obs.unmasked.contains (f, v) then (c.msix f v).unpend e else c.msix f v

/-- Every pending event that is routed to a PF vector sends its message: once in a tick. -/
def Chip.sendEvents (c : Chip) : Chip := c.obs.pend.foldl (fun c e => c.sendEvent e) c

/-- A vector is unmasked: a message held by its PBA bit is sent, with the events that wait on it. -/
def Chip.unmask (c : Chip) (f v : Nat) : Chip :=
  let c1 := if c.obs.unmasked.contains (f, v) then c else { c with obs := { c.obs with unmasked := (f, v) :: c.obs.unmasked } }
  if !c1.obs.pba.contains (f, v) then c1
  else
    let c2 := { c1 with obs := { c1.obs with pba := c1.obs.pba.filter (· != (f, v)) } }.msix f v
    (c2.obs.pend.filter (fun e => c2.pfRoute e == some (f, v))).foldl (fun c e => c.unpend e) c2

/-- MSIX_VECTOR_UNMASK (R478). A function that is not presented has no vectors. -/
def execMsixVectorUnmask (fn vector : Nat) (s : State) : Host.Outcome State Fault Refusal :=
  onChip (fun c => if !(c.func fn).present || decide (2048 ≤ vector) then c else c.unmask fn vector) s

/-! The tick mark (R469). -/

/-- TICK_MARK_WRITE (R469): the tick has reached MARK - 62,500. -/
def execTickMarkWrite (s : State) : Host.Outcome State Fault Refusal :=
  onChip (fun c =>
    if c.map.mark ≤ c.tick + 62500 && c.map.formed && !c.held && decide (c.rcu.phase ≠ .inReset) then
      { c with map := { c.map with
        mark := c.tick + 125000
        markSeq := c.map.markSeq + 1 } }
    else c) s

/-! CC.EN (R286, R467). -/

/-- CC.EN is written from 0 to 1: the admin queues take the sizes that the host gave, CC.AMS chooses the arbitration, and CSTS.RDY answers once start-up
has ended or in degraded hold (R466). -/
def Chip.ccEnable (c : Chip) (f ams asqs acqs : Nat) : Chip :=
  let x := c.func f
  if x.phase ≠ .enabled || x.ccEn then c
  else
    let c1 := c.setFn f { x with
      ccEn := true
      rdy := c.rcu.phase == .ready || c.rcu.phase == .hold
      shst := 0
      sqs := [⟨0, asqs, 0, 0, 0, 0⟩]
      cqs := [⟨0, acqs, 0, 0, true, []⟩]
      feat := { x.feat with wrr := ams == 1 } }
    if 1 < ams then c1.raise 321 0 f 0 0 else c1

/-- CC_EN_SET (R467). -/
def execCcEnSet (fn ams asqs acqs : Nat) (s : State) : Host.Outcome State Fault Refusal := onChip (fun c => c.ccEnable fn ams asqs acqs) s

end Sys2Proof.Machine
end

