-- ==== Sys2Proof/Machine/Tick.lean ====
section
/-! DEFINITION. The tick boundary: commits of staging copies, hold ticks, issues, lane portions and the work that each boundary does
(R21, R48-R80, R85, R87, R109, R141, R356, R414, R424). -/

namespace Sys2Proof.Machine

/-! Commits of staging copies (R21). -/

/-- The addresses of the words of a register list that have a staged field. -/
def stagedOf (base : Nat) (rows : List RegRow) : List Nat :=
  (rows.filter (fun r => r.fields.any (fun f => f.acc == .st))).flatMap (fun r => (List.range r.count).map (fun i => base + r.off + i * r.stride))

/-- The base of a cluster's or a region's registers, and the staged words that a commit block commits. -/
def commitAddrs : CommitBlk → List Nat
  | .cal => stagedOf 0x00040000 calRegs
  | .dec k => stagedOf (Reg.decBase k) decRegs
  | .map => stagedOf 0x00B00000 mapRegs
  | .tf g => stagedOf (Reg.tfBase g) tfRegs
  | .fn => stagedOf 0x00200000 fnRegs
  | .keySca => [Reg.keySca]
  | .seal => stagedOf 0x00380000 sealRegs
  | .bpm => stagedOf 0x00400000 bpmRegs
  | .mem => stagedOf 0x00500000 memRegs
  | .boom => stagedOf 0x00600000 boomRegs
  | .thm => stagedOf 0x00700000 thmRegs
  | .tally => stagedOf 0x00800000 logRegs

/-- The COMMIT bit of a block: register and bit. -/
def commitBit : CommitBlk → Nat × Nat
  | .cal => (Reg.calCtrl, 1)
  | .dec k => (Reg.decCtrl k, 0)
  | .map => (Reg.mapCtrl, 1)
  | .tf g => (Reg.tfCtrl g, 1)
  | .fn => (Reg.fnCtrl, 0)
  | .keySca => (Reg.keySca, 5)
  | .seal => (Reg.sealCtrl, 1)
  | .bpm => (Reg.bpmCtrl, 1)
  | .mem => (Reg.memCtrl, 1)
  | .boom => (Reg.boomCtrl, 1)
  | .thm => (Reg.thmCtrl, 1)
  | .tally => (Reg.logTyCtrl, 30)

/-- The staging copy of a block: its words, and for a decoder complex the words of its band tables above 2^32 (R141). -/
def Chip.stagingCopy (c : Chip) (b : CommitBlk) : Tab Word :=
  let words := (commitAddrs b).map (fun a => (a, BitVec.ofNat 32 (c.stgReg a)))
  match b with
  | .dec k => words ++ (c.dec k).stage.map (fun p => (2 ^ 32 + p.1, p.2))
  | _ => words

/-- A commit is requested: the staging copy is taken, and a second commit before the boundary replaces the first. -/
def Chip.requestCommit (c : Chip) (b : CommitBlk) : Chip :=
  let (a, i) := commitBit b
  { c with regs := { c.regs with commits := c.regs.commits.filter (fun (p : CommitBlk × Tab Word) => p.1 != b) ++ [(b, c.stagingCopy b)] } }.setBit a i true

/-- A word of a staging copy. -/
def copyReg (t : Tab Word) (a : Nat) : Nat := ((t.find? (fun p => p.1 == a)).map (fun p => p.2.toNat)).getD 0

/-- The band tables of a staging copy. -/
def copyBands (t : Tab Word) : Tab Word := (t.filter (fun p => decide (2 ^ 32 ≤ p.1))).map (fun p => (p.1 - 2 ^ 32, p.2))

/-- The bytes of a band table slot. -/
def bandBytes (t : Tab Word) (slot : Nat) : List Byte := (List.range 1036).flatMap (fun i => leBytes 4 (Tab.get (fun _ => 0) t (slot * 0x500 + i)).toNat)

/-- The check of R141: each table that stands in the copy passes, and every part and mode in use has one. -/
def bandsPass (e : Env) (t : Tab Word) : Bool :=
  (List.range 12).all (fun i =>
    if t.any (fun p => decide (i * 0x500 ≤ p.1) && decide (p.1 < (i + 1) * 0x500)) then bandOk (bandBytes t i) else !e.bandSlots.contains i)

/-- The figures and the energies that a copy would put in force. -/
def copyFig (t : Tab Word) (m : Nat) : ModeFig := figOf (copyReg t (Reg.calModeA m)) (copyReg t (Reg.calModeB m))

/-- The checks of a commit of the standing rules (R85, R87, R109, R356, R424): whether it takes effect, and the REFUSED bits that it sets. -/
def Chip.calCommitCheck (c : Chip) (t : Tab Word) : Bool × List Nat :=
  let fig := copyFig t
  let pt := bitsOf (copyReg t Reg.calFloor) 1 0
  let old := c.fld Reg.calFloor 1 0
  let floorBad := pt != old && !c.floorOk fig pt
  let termBad := c.bounds != [] && pt == old && failing fig (kOf pt) c.bounds != []
  let low := decide (bitsOf (copyReg t Reg.calNrgBudget) 23 0 < budgetFloor fig (fun m k => nrgOf (copyReg t (Reg.calNrg (m * 4 + k)))))
  (!floorBad && !termBad && !low, (if floorBad then [Reg.calFloor] else []) ++ (if low then [Reg.calNrgBudget] else []))

/-- The check of THM_LIMIT at a commit. -/
def thmCommitOk (t : Tab Word) : Bool :=
  let w := copyReg t Reg.thmLimit
  decide (bitsOf w 7 0 < bitsOf w 15 8) && decide (bitsOf w 15 8 ≤ 85) && decide (bitsOf w 23 16 < bitsOf w 31 24) && decide (bitsOf w 31 24 ≤ 120)

/-- The check of MAP_GC_CFG at a commit. -/
def mapCommitOk (t : Tab Word) : Bool :=
  let w := copyReg t Reg.mapGcCfg
  decide (bitsOf w 23 16 < bitsOf w 15 8) && decide (bitsOf w 15 8 < bitsOf w 7 0)

/-- Every check of a commit. -/
def Chip.commitCheck (c : Chip) (e : Env) (b : CommitBlk) (t : Tab Word) : Bool × List Nat :=
  match b with
  | .cal => c.calCommitCheck t
  | .dec _ => (bandsPass e (copyBands t), [])
  | .keySca => if c.bounds == [] || scaOk (copyReg t Reg.keySca) (c.fld Reg.calFloor 1 0) then (true, []) else (false, [Reg.keySca])
  | .thm => (thmCommitOk t, [])
  | .map => (mapCommitOk t, [])
  | _ => (true, [])

/-- The bit of a REFUSED field. -/
def refusedBit (a : Nat) : Nat :=
  match findReg a with
  | some (r, _) => ((r.fields.find? (fun f => f.acc == .w1c)).map (·.lo)).getD 31
  | none => 31

/-- The staged fields of a word take the values of a copy. -/
def Chip.commitWord (c : Chip) (a v : Nat) : Chip :=
  match findReg a with
  | some (r, _) => c.setReg a (r.fields.foldl (fun w f => if f.acc = .st then putBits w f.hi f.lo (bitsOf v f.hi f.lo) else w) (c.reg a))
  | none => c

/-- COMMIT_APPLY (R21): a commit takes effect whole or is refused whole, and its COMMIT bit reads 0. -/
def Chip.commitApply (c : Chip) (e : Env) (p : CommitBlk × Tab Word) : Chip :=
  let (a, i) := commitBit p.1
  let (ok, refused) := c.commitCheck e p.1 p.2
  let c1 := refused.foldl (fun c a => c.setBit a (refusedBit a) true) c
  let c2 := if !ok then c1
    else
      let d := (p.2.filter (fun w => decide (w.1 < 2 ^ 32))).foldl (fun c w => c.commitWord w.1 w.2.toNat) c1
      match p.1 with
      | .dec k => d.setDec k { d.dec k with band := copyBands p.2 }
      | _ => d
  c2.setBit a i false

/-- Every commit that was requested in the tick that has ended. -/
def Chip.commitsApply (c : Chip) (e : Env) : Chip :=
  let c1 := c.regs.commits.foldl (fun c p => c.commitApply e p) c
  { c1 with regs := { c1.regs with commits := [] } }

/-! Hold ticks (R50, R75-R80). -/

/-- The opening tick is a hold tick. -/
def Chip.isHold (c : Chip) : Bool := c.held || !c.bit Reg.calCtrl 0 || c.cal.restarting || !c.cal.committed.contains c.tick

/-- A hold tick is counted: planning ran, or restarts, and the calendar serves. -/
def Chip.holdCounts (c : Chip) : Bool := c.isHold && c.bit Reg.calCtrl 0 && !c.held

/-- A hold tick that counts (R78), and the hold ticks that contracted reads meet (R74). -/
def Chip.countHold (c : Chip) : Chip :=
  let c1 := (c.bump Reg.calHoldCnt 31 0 1).setReg Reg.calHoldLastLo (c.tick * 65536 % 2 ^ 32)
  let c2 := (c1.setReg Reg.calHoldLastHi (c.tick * 65536 / 2 ^ 32)).raise0 289
  { c2 with
    cal := { c2.cal with holdRun := c2.cal.holdRun + 1 }
    host := { c2.host with items := updateWhere (fun x => x.contracted && x.stage != .done) (fun x => { x with slips := x.slips + 1 }) c2.host.items } }

/-- A run of hold ticks has ended: its length goes to the Tally recorder (R78, R479). -/
def Chip.holdEnds (c : Chip) : Chip :=
  if c.cal.holdRun = 0 then c
  else
    let c1 := c.tally 6 c.cal.holdRun
    { c1 with cal := { c1.cal with holdRun := 0 } }

/-- The dies that have an entry which is due. -/
def Chip.dueDies (c : Chip) : List Nat := (c.cal.dies.filter (fun p => p.2.entries.any (fun x => decide (x.tick ≤ c.tick)))).map (·.1)

/-- The calendar at a boundary: the opening tick holds, and what was booked for it slips (R75, R76); or what is booked issues (R49, R56). Planning for the
tick after next starts. -/
def Chip.calBoundary (c : Chip) : Chip :=
  let hold := c.isHold
  let c0 := if c.cal.deepest = 0 then c else c.tally 41 c.cal.deepest
  let c1 := if c.holdCounts then c0.countHold else c0.holdEnds
  let c2 := { c1 with cal := { c1.cal with
    hold := hold
    planDone := c1.cal.restarting
    committed := c1.cal.committed.filter (fun t => decide (c1.tick < t))
    energy := c1.cal.energy.filter (fun p => decide (c1.tick ≤ p.1))
    xfer := c1.cal.xfer.filter (fun p => decide (c1.tick * 128 ≤ p.1))
    deepest := 0 } }
  (c2.dueDies).foldl (fun c d => if hold then c.slip d else c.issueDue d) c2

/-- Lockstep restarts that have taken their longest time have ended (R45, R80). -/
def Chip.restartsEnd (c : Chip) : Chip :=
  let ended := c.rcu.restarts.filter (fun (p : LockstepBlk × Nat) => decide (p.2 < c.tick))
  ended.foldl (fun c p => { c with rcu := { c.rcu with restarts := c.rcu.restarts.filter (fun (q : LockstepBlk × Nat) => q.1 != p.1) } }.markRestart p.1 false) c

/-! The boundary. -/

/-- The tick number goes on; a Boom child's tick may be one cycle longer or shorter (R48, R414). -/
def Chip.tickOpens (c : Chip) (e : Env) (running : Bool) : Chip :=
  let c1 := { c with time := ⟨c.time.tick + 1, 0, 200, true⟩ }
  if running && e.part.full && c.bit Reg.boomCtrl 0 then c1.slew else c1

/-- The package's idle ticks (R427), and the service of WP0 after an ERASE action (R358). -/
def Chip.hubBoundary (c : Chip) (e : Env) (kill : Bool) : Chip :=
  let c1 := ((c.dvfsBoundary e).shortBoundary e)
  let c2 := { c1 with pmu := { c1.pmu with
    idle := if c1.pkgIdle then c1.pmu.idle + 1 else 0
    busy := false } }
  let c3 := ((c2.shareBoundary e).dlogBoundary).keyBoundary
  if c3.key.reload.any (fun t => decide (t ≤ c3.tick)) then
    let c4 := if c3.key.locked then c3 else c3.keyReloadAll kill
    { c4 with key := { c4.key with reload := none } }
  else c3

/-- The work of the mapping engine and the channel engines at a boundary, while nothing holds them. -/
def Chip.flashBoundary (c : Chip) (e : Env) : Chip :=
  if c.held then c else (((((((c.placeAll e).retryGroups e).gcSweep e).pinAll).cordSettle).grownToFlash).trackAll e).endDead e

/-- TICK_BOUNDARY (R48): the tick that ends, with the lanes' portions, and the boundary that opens the next one. In reset, and after a boot failure, only
the tick number goes on. -/
def Chip.boundary (c : Chip) (e : Env) (kill : Bool) : Chip :=
  let running := c.rcu.phase == .ready || c.rcu.phase == .hold
  if !running then
    let c1 := c.tickOpens e false
    { c1 with time := { c1.time with opening := false } }
  else
    let c1 := if c.held then c else c.lanePortions e
    let c2 := (c1.tickOpens e true).commitsApply e
    let c3 := if c2.obs.restart then c2.tallyRestartApply else c2
    let c4 := ((c3.restartsEnd).hubBoundary e kill).calBoundary
    let c5 := ((c4.applyChanges).unboundItems e).flashBoundary e
    let c6 := ((c5.boomBoundary e).sendEvents).settle e
    { c6 with time := { c6.time with opening := false } }

/-- TICK_BOUNDARY (R48). -/
def execTickBoundary (s : State) : Host.Outcome State Fault Refusal := onHost (fun c => c.boundary s.env s.fuse.kill) s

end Sys2Proof.Machine
end

