-- ==== Sys2Proof/Machine/CtlViews.lean ====
section
/-! DEFINITION. What the read-only fields of the register blocks show (R21, R27, R32-R36, and the register tables of every chapter).

Each function takes an offset of its block and the word that the register file holds there, and puts the read-only fields that follow the machine's state
into it. Fields that a command has put into the register file itself stand as they are. -/

namespace Sys2Proof.Machine

/-- A word with fields put: (high bit, low bit, value). -/
def putFields (w : Nat) (fs : List (Nat × Nat × Nat)) : Nat := fs.foldl (fun w f => putBits w f.1 f.2.1 f.2.2) w

/-- The low `n` bits of an integer in two's complement. -/
def twos (n : Nat) (i : Int) : Nat := (i % ((2 ^ n : Nat) : Int)).toNat

/-- An integer limited to `n`-bit two's complement. -/
def satInt (n : Nat) (i : Int) : Int := max (-((2 ^ (n - 1) : Nat) : Int)) (min ((2 ^ (n - 1) : Nat) - 1 : Int) i)

/-- A temperature of the model in 1/16 degC, 16 bits. -/
def sixteenths (t : Int) : Nat := twos 16 (satInt 16 (t / 4096))

/-- The staged fields of a word: their mask. -/
def stagedMask (a : Nat) : Nat :=
  match findReg a with
  | some (r, _) => r.mask .st
  | none => 0

/-- A staging copy of a block differs from the copy in force: the STAGED bits. -/
def Chip.stagedDiffers (c : Chip) (b : CommitBlk) : Bool :=
  (commitAddrs b).any (fun a => (c.stgReg a &&& stagedMask a) != (c.reg a &&& stagedMask a)) ||
    (match b with
     | .dec k => (c.dec k).stage != (c.dec k).band
     | _ => false)

/-- The word that a read finds before the read-only fields are put: staged fields from the staging copy (R21). -/
def Chip.storedWord (c : Chip) (r : RegRow) (a : Nat) : Nat :=
  r.fields.foldl (fun w f => if f.acc = .st then putBits w f.hi f.lo (bitsOf (c.stgReg a) f.hi f.lo) else w) (c.reg a)

/-! The hub blocks. -/

/-- CAP_UNITS (R4). -/
def Part.capUnits : Part → Nat
  | .crn7128 => 0xFFFF
  | .crn7128S => 0xF00F
  | .crn7064 => 0x7F33

/-- ID_PART (R32). -/
def Part.idWord : Part → Nat
  | .crn7128 => 0x7128
  | .crn7128S => 0x17128
  | .crn7064 => 0x7064

/-- ID: identity, capability and lifecycle (R4, R32-R35). -/
def idView (s : State) (o w : Nat) : Nat :=
  match o with
  | 0x0 => s.env.part.idWord
  | 0x4 => 0x11
  | 0x8 => s.env.serial % 2 ^ 32
  | 0xC => s.env.serial / 2 ^ 32 % 2 ^ 32
  | 0x10 => s.env.part.capUnits
  | 0x14 => 0x08159B00
  | 0x18 => s.fuse.lcCount % 2 ^ 24 * 256 + s.fuse.lifecycle.code
  | _ => w

/-- RCU. -/
def rcuView (s : State) (o w : Nat) : Nat :=
  let x := s.chip.rcu
  match o with
  | 0x4 => putFields w [(11, 8, x.holdCause), (7, 4, x.startStep), (3, 0, x.phase.code)]
  | 0x14 => putFields w [(31, 31, b2n x.tickRefused)]
  | _ => w

/-- PMU. -/
def pmuView (s : State) (o w : Nat) : Nat :=
  let x := s.chip.pmu
  match o with
  | 0x4 => putFields 0 [(23, 23, b2n x.short), (22, 22, b2n x.flush.isSome), (21, 20, s.chip.ceiling), (19, 18, x.point), (17, 16, x.phase.code),
      (10, 8, x.target), (2, 0, x.ps)]
  | 0x30 => satTo 65535 x.emeas * 65536 + satTo 65535 (s.chip.eReq s.env)
  | _ => w

/-- The state code of CAL_STATUS. -/
def Chip.calState (c : Chip) : Nat := if !c.bit Reg.calCtrl 0 then 0 else if c.cal.restarting then 3 else if c.cal.shedding then 2 else 1

/-- CAL_DIE_STATE of a die (R54, R55). -/
def Chip.dieWord (c : Chip) (n : Nat) : Nat :=
  let d := c.die n
  let left := if !d.locked then 0
    else if d.phase == .runSpent && decide (c.tick + horizon < d.lockEnd c.fig) then 0xFFF
    else satTo 0xFFF (d.lockEnd c.fig - c.tick)
  putFields 0 [(31, 20, left), (12, 8, (d.entries.filter (fun x => x.kind == .read && !x.peer && decide (x.cls ≤ 4))).length), (7, 7, b2n d.locked),
    (6, 4, d.suspN), (3, 0, d.phase.code)]

/-- CAL. -/
def calView (s : State) (o w : Nat) : Nat :=
  let c := s.chip
  match o with
  | 0x4 => putFields w [(3, 3, b2n (c.stagedDiffers .cal)), (2, 2, b2n c.cal.hold), (1, 0, c.calState)]
  | 0x8 => c.stamp % 2 ^ 32
  | 0xC => c.stamp / 2 ^ 32 % 2 ^ 32
  | 0x18 => putFields w [(15, 12, kOf (c.fld Reg.calFloor 1 0))]
  | 0x38 => satTo 0xFFFF (termS c.fig c.bounds) * 256 + satTo 255 (termN c.bounds)
  | 0x60 => putFields w [(6, 0, c.cal.ptr)]
  | 0x204 => satTo 0xFFFFFF c.reserve
  | _ => if 0x10000 ≤ o && o < 0x14000 && (o - 0x10000) / 128 < s.env.part.regions * 32 then c.dieWord ((o - 0x10000) / 4) else w

/-- WIDTH_NOW of a link. -/
def Link.widthNow (x : Link) : Nat := if x.state = 2 then x.width else 0

/-- HOST_LINK_STAT of a link (R278, R279). -/
def Chip.linkWord (c : Chip) (l w : Nat) : Nat :=
  let x := c.link l
  putFields w [(10, 8, if x.state = 2 then x.speed else 0), (6, 5, x.widthNow), (4, 4, b2n (x.state == 2 && x.speed == 6)), (1, 0, x.state)]

/-- The states of every zone of the package. -/
def Chip.zoneStates (c : Chip) : List ZState :=
  c.host.nss.flatMap (fun p =>
    match p.2 with
    | none => []
    | some n => n.zones.map (fun z => c.zoneState p.1 z.1 z.2))

/-- HOST. -/
def hostView (s : State) (o w : Nat) : Nat :=
  let c := s.chip
  match o with
  | 0x20 => c.linkWord 0 w
  | 0x24 => c.linkWord 1 w
  | 0x28 => c.linkWord 2 w
  | 0x2C => c.linkWord 3 w
  | 0x50 => (c.zoneStates.filter ZState.active).length * 65536 + (c.zoneStates.filter ZState.isOpen).length
  | 0x60 =>
    let p := c.host.progress
    putFields 0 [(19, 18, p.state), (15, 0, if p.state = 1 then p.done * 65536 / Nat.max 1 p.total else 0xFFFF)]
  | _ => w

/-- FN_STATE of a function (R316, R324). -/
def Chip.fnWord (c : Chip) (f : Nat) : Nat :=
  let x := c.func f
  let ph := match x.phase with | .disabled => 0 | .enabled => 1 | .resetting => 2 | .paused => 3
  putFields 0 [(31, 22, twos 10 (min 511 x.balance)), (21, 19, x.cause), (18, 18, b2n x.cfs), (17, 16, x.link), (1, 0, ph)]

/-- A logging slot's registers (R331-R335). -/
def Chip.dlogWord (c : Chip) (k o w : Nat) : Nat :=
  let x := c.dlogSlot k
  match o with
  | 0x0 => putFields w [(29, 29, b2n x.active), (28, 28, b2n x.ovf), (15, 8, x.status)]
  | 0x10 => x.tail
  | 0x14 => putFields 0 [(31, 31, b2n x.cutPending), (30, 30, b2n x.cutDone), (23, 0, x.cutIdx)]
  | _ => w

/-- FN. -/
def fnView (s : State) (o w : Nat) : Nat :=
  let c := s.chip
  let f := c.fld Reg.fnSel 7 0
  match o with
  | 0x4 => putFields 0 [(16, 16, b2n (c.stagedDiffers .fn)), (8, 0, c.enabledCount)]
  | 0x20 => putFields 0 [(29, 16, c.fn.shares.qp), (12, 0, c.fn.shares.oz)]
  | 0x24 => putFields 0 [(26, 16, c.fn.shares.ns), (13, 0, c.fn.shares.az)]
  | 0x28 => putFields 0 [(28, 16, c.fn.shares.tok), (13, 0, c.fn.shares.near)]
  | 0x2C => putFields 0 [(21, 0, c.fn.shares.far)]
  | 0x44 => c.fnWord f
  | 0x48 => putFields 0 [(29, 16, ((c.func f).sqs.filter (fun q => q.qid != 0)).length),
      (10, 0, (c.host.nss.filter (fun p => p.2.any (fun n => n.creator == f))).length)]
  | _ => if 0x100 ≤ o && o < 0x200 then c.dlogWord ((o - 0x100) / 0x20) ((o - 0x100) % 0x20) w else w

/-- KEY (R341, R350, R351, R358). -/
def keyView (s : State) (o w : Nat) : Nat :=
  let c := s.chip
  let i := c.fld Reg.keySlotSel 9 0
  let x := c.slot i
  let ctr := if x.type = 2 then x.ctr else 0
  match o with
  | 0x14 => putFields 0 [(31, 30, x.state.code), (29, 28, x.type), (23, 16, satTo 255 x.users), (8, 0, (c.slotName i).1)]
  | 0x18 => ctr % 2 ^ 32
  | 0x1C => ctr / 2 ^ 32 % 2 ^ 32
  | 0x44 => putFields w [(31, 31, b2n c.key.locked)]
  | 0x50 => s.fuse.nonce % 2 ^ 32
  | 0x54 => s.fuse.nonce / 2 ^ 32 % 2 ^ 32
  | _ => if 0x60 ≤ o && o < 0x70 then s.fuse.svn.getD ((o - 0x60) / 4) 0 else w

/-- SEAL (R362, R366-R368). -/
def sealView (s : State) (o w : Nat) : Nat :=
  let c := s.chip
  match o with
  | 0x4 => putFields 0 [(15, 15, b2n c.sealer.corrupt.isSome), (14, 14, b2n (c.sealer.signing != [])), (13, 13, b2n c.sealer.strike.isSome),
      (12, 0, c.openEvidence)]
  | 0x20 => c.sealer.seq % 2 ^ 32
  | 0x24 => c.sealer.seq / 2 ^ 32 % 2 ^ 32
  | 0x28 => c.sealer.epoch
  | _ => w

/-- Buffers that an owner holds. -/
def Chip.heldBy (c : Chip) (owner : Nat) : Nat := c.countBufs (fun _ b => b.kind * 256 + b.fn == owner)

/-- BPM (R380-R390). -/
def bpmView (s : State) (o w : Nat) : Nat :=
  let c := s.chip
  let owner := c.fld Reg.bpmAuditSel 11 0
  match o with
  | 0x4 => putFields 0 [(1, 1, b2n c.buf.restarting), (0, 0, b2n (c.stagedDiffers .bpm))]
  | 0x8 => sumNat ((List.range s.env.part.regions).map (fun r => nearPerRegion - c.nearUsed r))
  | 0xC => c.farCount - c.farUsed
  | 0x10 => putFields w [(15, 0, satTo 65535 c.dirtyCount)]
  | 0x94 => putFields 0 [(31, 31, b2n (c.buf.fenced.contains owner)), (22, 0, c.heldBy owner)]
  | 0x98 => satTo 0xFFFFFFFF (Tab.get (fun _ => (0, 0)) c.buf.sampled owner).1
  | 0x9C => (Tab.get (fun _ => (0, 0)) c.buf.sampled owner).2
  | _ => w

/-- MEM (R393, R399-R402). -/
def memView (s : State) (o w : Nat) : Nat :=
  let c := s.chip
  match o with
  | 0x4 => putFields 0 [(5, 5, b2n c.dram.flush), (4, 4, b2n (c.stagedDiffers .mem)), (3, 3, b2n (c.dram.rate != 0)), (2, 0, c.dram.rate)]
  | 0x8 => putFields w [(24, 16, if c.dram.rate = 0 then 0 else s.env.board.dramGib), (13, 8, c.dram.farNow)]
  | _ => w

/-- BOOM (R404, R411-R422). -/
def boomView (s : State) (o w : Nat) : Nat :=
  let c := s.chip
  let x := c.boom
  match o with
  | 0x4 => putFields 0 [(3, 3, b2n (c.stagedDiffers .boom)), (2, 2, b2n (x.level == 0)), (1, 0, x.align)]
  | 0x8 => putFields 0 [(31, 18, x.root), (17, 14, x.level), (12, 12, b2n x.parent.isSome), (11, 10, x.parent.getD 0)]
  | 0xC => putFields 0 [(14, 0, x.size)]
  | 0x10 => twos 32 (satInt 32 x.offset)
  | _ =>
    if 0x100 ≤ o && o < 0x200 && (o - 0x100) % 0x40 = 4 then
      let n := (o - 0x100) / 0x40
      let p := c.port n
      putFields 0 [(7, 5, p.cause), (4, 4, b2n p.child), (3, 3, b2n (x.parent == some n)), (2, 0, p.phase.code)]
    else w

/-- The sensors that are SUSPECT, of `n` from `first` on: their mask. -/
def Chip.suspectMask (c : Chip) (first n : Nat) : Nat :=
  sumNat ((List.range n).map (fun i => if (c.sensor (first + i)).suspect then 2 ^ i else 0))

/-- THM (R446-R452). -/
def thmView (s : State) (o w : Nat) : Nat :=
  let c := s.chip
  let e := s.env
  match o with
  | 0x4 => putFields w [(16, 16, b2n (c.stagedDiffers .thm)), (15, 8, ((List.range 48).filter (fun i => (c.sensor i).suspect)).length),
      (2, 2, b2n (c.siHot e)), (1, 1, b2n (c.nandHot e))]
  | 0x18 =>
    let k := c.hottest e
    putFields 0 [(29, 28, k / 40), (27, 22, k % 40), (15, 0, sixteenths (c.node k))]
  | 0x1C => c.budget
  | 0x24 =>
    let a := c.adc (c.fld Reg.thmAdcSel 4 0)
    if 28 ≤ c.fld Reg.thmAdcSel 4 0 then 0 else putFields 0 [(31, 31, b2n a.valid), (30, 30, b2n a.stale), (11, 0, a.code)]
  | 0x30 => c.suspectMask 0 32
  | 0x34 => c.suspectMask 32 16
  | _ => w

/-- LOG (R474, R481). -/
def logView (s : State) (o w : Nat) : Nat :=
  let x := s.chip.obs
  match o with
  | 0x4 => putFields w [(10, 0, x.log.length)]
  | 0x8 => putFields 0 [(25, 16, (x.logHead + x.log.length) % 1024), (9, 0, x.logHead)]
  | 0x110 => putFields w [(31, 31, b2n (decide (2048 ≤ x.store.length))), (11, 0, x.store.length)]
  | _ => w

/-- KRF_SLOT_VAL of a slot. -/
def Chip.slotWord (c : Chip) (i : Nat) : Nat :=
  match c.slotProg i with
  | none => 0
  | some p => putFields 0 [(31, 30, if p.draining then 2 else 1), (28, 16, c.bindsOf i),
      (11, 9, b2n (p.has 0) + 2 * b2n (p.has 1) + 4 * b2n (p.has 2)), (8, 0, p.effects)]

/-- KRF_WP_STAT of a pair (R232-R237). -/
def Chip.wpWord (c : Chip) (p w : Nat) : Nat :=
  let x := c.pair p
  let a := 2 * p + x.active % 2
  putFields w [(5, 5, b2n x.copy1.valid), (4, 4, b2n x.copy0.valid), (3, 3, b2n (!(c.warden (4 * p + 1 - a)).fenced)),
    (2, 2, b2n (!(c.warden a).fenced)), (1, 1, b2n x.committing), (0, 0, x.active)]

/-- KRF_MBX_RX of a pair (R238, R239). -/
def Chip.mbxWord (c : Chip) (p : Nat) : Nat :=
  let x := c.pair p
  putFields 0 [(31, 24, x.shareUsed true), (23, 16, x.shareUsed false), (15, 8, x.pendingCount), (6, 0, x.queue.headD 0)]

/-- KRF. -/
def krfView (s : State) (o w : Nat) : Nat :=
  let c := s.chip
  if o < 0x80000 then
    match o with
    | 0x14 => c.slotWord (c.fld Reg.krfSlotSel 5 0)
    | 0x18 => ((c.slotProg (c.fld Reg.krfSlotSel 5 0)).map (·.wmax)).getD 0
    | _ =>
      if 0x100 ≤ o && o < 0x200 then
        match c.binding (c.fld Reg.krfStateSel 11 0) with
        | some b => leNat (sliceBytes b.state ((o - 0x100) / 4 * 4) 4)
        | none => 0
      else w
  else if o < 0x80400 then
    let p := (o - 0x80000) / 0x100
    match (o - 0x80000) % 0x100 with
    | 0x0 => c.wpWord p w
    | 0x8 => (c.pair p).gen % 2 ^ 32
    | 0xC => (c.pair p).gen / 2 ^ 32 % 2 ^ 32
    | 0x20 => c.mbxWord p
    | _ => w
  else w

/-- An event of an absent unit (R471): its registers follow R5. -/
def eventAbsent (p : Part) (e : Nat) : Bool :=
  if e < 128 then decide (p.regions * 32 ≤ e)
  else if e < 224 then decide (p.regions * 8 ≤ e % 32)
  else if e < 256 then decide (p.regions * 4 ≤ e % 16)
  else if e < 264 then decide (p.regions ≤ e % 4)
  else decide (280 ≤ e) && decide (e < 289) && !p.full

/-- The pending bit of an event (R471, R472). -/
def Chip.pends (c : Chip) (e : Nat) : Bool := if e = 300 then c.obs.pend300 != [] else c.obs.pend.contains e

/-- IRQ. -/
def irqView (s : State) (o w : Nat) : Nat :=
  let c := s.chip
  if o < 0x1800 then
    let e := o / 4
    if !eventListed e || eventFixed e || eventAbsent s.env.part e then 0 else w
  else if 0x2000 ≤ o && o < 0x20C0 then
    let n := (o - 0x2000) / 4
    sumNat ((List.range 32).map (fun i => if c.pends (32 * n + i) then 2 ^ i else 0))
  else if o = 0x3004 then Tab.get (fun _ => 0) c.obs.raises (c.fld Reg.irqCntSel 10 0)
  else w

/-- MAP_CORD_VAL. -/
def Chip.cordWord (c : Chip) : Nat :=
  match c.cord (c.fld Reg.mapCordSel 11 4) with
  | none => 0
  | some x => putFields 0 [(31, 31, 1), (30, 30, b2n x.degraded), (29, 29, b2n x.retired), (11, 0, x.members.getD (c.fld Reg.mapCordSel 3 0) 0)]

/-- MAP (R167-R187). -/
def mapView (s : State) (o w : Nat) : Nat :=
  let c := s.chip
  match o with
  | 0x4 => putFields 0 [(3, 3, b2n c.map.full), (2, 2, b2n (c.stagedDiffers .map)), (1, 0, maxNat (c.map.cords.map (fun x => c.gcLevel s.env x)))]
  | 0x8 => putFields w [(16, 8, c.map.cords.length)]
  | 0x14 => putFields w [(31, 16, ceilDiv c.map.journal.length 65536)]
  | 0x18 => putFields 0 [(28, 16, satTo 4096 c.map.missq.length), (15, 0, satTo 65535 (ceilDiv (c.pinnedSlots (fun _ => true)) 65536))]
  | 0x38 => putFields w [(31, 16, satTo 65535 c.map.refresh.length)]
  | 0x44 => c.cordWord
  | 0x68 => putFields w [(31, 31, b2n c.map.bbtWait.isSome), (30, 8, c.map.grown.length)]
  | _ => w

/-- A hub block's registers, by the base of R27. -/
def hubView (s : State) (a w : Nat) : Nat :=
  if a < 0x10000 then idView s a w
  else if a < 0x20000 then rcuView s (a - 0x10000) w
  else if a < 0x40000 then pmuView s (a - 0x20000) w
  else if a < 0x100000 then calView s (a - 0x40000) w
  else if a < 0x200000 then hostView s (a - 0x100000) w
  else if a < 0x300000 then fnView s (a - 0x200000) w
  else if a < 0x380000 then keyView s (a - 0x300000) w
  else if a < 0x400000 then sealView s (a - 0x380000) w
  else if a < 0x500000 then bpmView s (a - 0x400000) w
  else if a < 0x600000 then memView s (a - 0x500000) w
  else if a < 0x700000 then boomView s (a - 0x600000) w
  else if a < 0x800000 then thmView s (a - 0x700000) w
  else if a < 0x900000 then logView s (a - 0x800000) w
  else if a < 0xA00000 then krfView s (a - 0x900000) w
  else if a < 0xB00000 then irqView s (a - 0xA00000) w
  else mapView s (a - 0xB00000) w

/-! The region windows (R28). -/

/-- A channel engine's registers (R88, R91). -/
def chView (s : State) (n o w : Nat) : Nat :=
  let c := s.chip
  let x := c.chan n
  match o with
  | 0x8 => putFields 0 [(31, 24, x.detail), (23, 20, x.ceFenced), (19, 17, x.rateNow), (16, 16, b2n x.extNow),
      (15, 9, (Tab.get (fun _ => []) c.cal.queues n).length), (1, 0, x.phase.code)]
  | 0x24 =>
    let sel := c.fld (Reg.chDskSel n) 7 0
    let (code, eye) := Tab.get (fun _ => (0, 0)) x.eyes sel
    if 9 ≤ sel % 16 then 0 else putFields 0 [(21, 16, eye), (5, 0, if x.extNow then code else 0)]
  | _ => w

/-- A decoder complex's registers (R134, R143-R145). -/
def decView (s : State) (k o w : Nat) : Nat :=
  let c := s.chip
  let lanes := c.fld (Reg.decCtrl k) 5 1
  match o with
  | 0x4 => putFields 0 [(6, 6, b2n (c.dec k).fenced), (5, 1, lanes), (0, 0, b2n (c.stagedDiffers (.dec k)))]
  | 0x8 => putFields 0 [(15, 8, if bitOf lanes 4 then 0 else 8), (7, 0, 10 * ((List.range 4).filter (fun i => !bitOf lanes i)).length)]
  | 0x40 => putFields w [(6, 0, (c.dec k).queue.length)]
  | _ => w

/-- A transform complex's registers: on a CRN-7128S the squeeze register reads 0 (R5). -/
def tfView (s : State) (g o w : Nat) : Nat :=
  match o with
  | 0x4 => putFields w [(16, 16, b2n (s.chip.stagedDiffers (.tf g)))]
  | 0x3C => if s.env.part.full then w else 0
  | _ => w

/-- A region's thermal model registers (R446, R448, R450). -/
def thmrView (s : State) (g o w : Nat) : Nat :=
  let c := s.chip
  if o < 0xA0 then sixteenths (c.node (g * 40 + o / 4))
  else if 0x100 ≤ o && o < 0x120 then
    let x := c.sensor (g * 8 + (o - 0x100) / 4)
    putFields 0 [(31, 31, b2n x.suspect), (15, 0, sixteenths x.val)]
  else if o = 0x200 then sumNat ((List.range 32).map (fun k => if c.nandStopped (g * 32 + k) then 2 ^ k else 0))
  else w

/-- The registers of a region window: `g` the region, `o` the offset in its window. -/
def regionView (s : State) (g o w : Nat) : Nat :=
  if o < 0x800000 then
    let k := g * 8 + o / 0x100000
    let l := o % 0x100000
    if l < 0x40000 then chView s (k * 4 + l / 0x10000) (l % 0x10000) w
    else if l < 0x80000 then decView s k (l - 0x40000) w
    else w
  else if o < 0xC00000 then tfView s g (o - 0x800000) w
  else if o < 0xD00000 then (if o = 0xC00000 then nearPerRegion - s.chip.nearUsed g else w)
  else thmrView s g (o - 0xD00000) w

/-- What a register shows: staged fields from their staging copy, read-only fields from the machine's state. -/
def regView (s : State) (r : RegRow) (a : Nat) : Nat :=
  let w := s.chip.storedWord r a
  if a < 0x10000000 then hubView s a w else regionView s ((a - 0x10000000) / 0x4000000) (a % 0x4000000) w

end Sys2Proof.Machine
end

