-- ==== Sys2Proof/Machine/Traps.lean ====
section
/-! DEFINITION. The control registers of the warden cores, memory protection, interrupts, and the entry of a trap (R223-R230, R471, R476, R477). -/

namespace Sys2Proof.Machine

/-! Control registers (R224). -/

/-- A control register that each world has its own copy of. -/
def csrBanked (n : Nat) : Bool := decide (n < 8) || (decide (0x20 ≤ n) && decide (n < 0x30))

/-- Where a world's copy of a control register stands. -/
def csrKey (secure : Bool) (n : Nat) : Nat := if csrBanked n && !secure then 0x1000 + n else n

/-- A control register as a world sees it. -/
def WardenCore.csrOf (x : WardenCore) (secure : Bool) (n : Nat) : Nat := (Tab.get (fun _ => (0 : Dword)) x.csr (csrKey secure n)).toNat

/-- Puts a control register. -/
def WardenCore.setCsr (x : WardenCore) (secure : Bool) (n v : Nat) : WardenCore :=
  { x with csr := Tab.set (fun _ => (0 : Dword)) x.csr (csrKey secure n) (BitVec.ofNat 64 v) }

/-- WSTAT of the world that runs: WORLD, LEVEL, IE and SHADOW. Of WSTAT's bits the copies hold IE and SHADOW, and LEVEL of a world that has been left. -/
def WardenCore.wstat (x : WardenCore) : Nat :=
  let y := x.csrOf x.secure 0
  b2n x.secure + 2 * b2n (!x.thread) + 4 * b2n (bitOf y 2) + 8 * b2n (bitOf y 3)

/-- Interrupts are enabled in the world that runs. -/
def WardenCore.enabled (x : WardenCore) : Bool := bitOf (x.csrOf x.secure 0) 2

/-- The bits of a control register that a write changes (R224, R230). -/
def csrMask (n : Nat) : Nat :=
  if n = 0 then 0x4
  else if n = 2 then 0x7FFFFF
  else if n = 4 then 0xF
  else if n = 5 then 0xFFFFFFFFFFFFF000
  else if 0x20 ≤ n && n < 0x30 then (if n % 2 = 0 then 0xFFFFF00F else 0xFFFFF001)
  else 0xFFFFFFFFFFFFFFFF

/-! Traps (R225-R229). -/

/-- A synchronous trap at handler level while IE = 0 is a double trap (R229). -/
def WardenCore.doubles (x : WardenCore) : Bool := !x.thread && !x.enabled

/-- The entry of a trap into the world that runs: WSTAT, the pc, the cause and the address are saved, the level is handler, IE is 0, and the core goes on at
the vector (R227). -/
def WardenCore.enter (x : WardenCore) (estat epc cause vector : Nat) (addr : Option Nat) : WardenCore :=
  let x1 := ((x.setCsr x.secure 4 estat).setCsr x.secure 1 epc).setCsr x.secure 2 cause
  let x2 := match addr with | some a => x1.setCsr x.secure 3 a | none => x1
  let x3 := x2.setCsr x.secure 0 (putBits (x2.csrOf x.secure 0) 2 2 0)
  { x3 with
    thread := false
    waiting := false
    core := { x3.core with pc := (x.csrOf x.secure 5 + vector) % 2 ^ 32 } }

/-- A world is left: its copy of WSTAT keeps what WSTAT was. -/
def WardenCore.leave (x : WardenCore) : WardenCore := x.setCsr x.secure 0 x.wstat

/-- Registers k1-k15, predicates p1-p3 and V go to the secure shadow and read 0; SHADOW of the world that is left is set, so that ESTAT holds it
(R228, log entry 46). -/
def WardenCore.toShadow (x : WardenCore) : WardenCore :=
  let x1 := x.setCsr x.secure 0 (putBits (x.csrOf x.secure 0) 3 3 1)
  { x1 with
    shadow := (x.core.k, x.core.p, x.core.v)
    core := { x.core with
      k := List.replicate 16 0
      p := [true, false, false, false]
      v := false } }

/-- The shadow comes back. -/
def WardenCore.fromShadow (x : WardenCore) : WardenCore :=
  { x with core := { x.core with
      k := x.shadow.1
      p := x.shadow.2.1
      v := x.shadow.2.2 } }

/-- A synchronous trap of core `w` (R227, R229): it stays in its world; a double trap halts the core. -/
def Chip.wardenTrap (c : Chip) (w cause : Nat) (addr : Option Nat) : Chip :=
  let x := c.warden w
  if x.fenced || x.halted then c
  else if x.doubles then
    (c.setWarden w { x with
      halted := true
      doubleTrap := true }).raise (264 + w) 0 0xFFFF 0 0
  else c.setWarden w (x.enter x.wstat x.core.pc cause 0 addr)

/-! Memory protection (R230). -/

/-- Kinds of accesses: bits of the attributes R, W and X. -/
def mpuR : Nat := 0
/-- A write. -/
def mpuW : Nat := 1
/-- A fetch. -/
def mpuX : Nat := 2

/-- A region of the world that runs: base, limit and attributes; none where it is not enabled. -/
def WardenCore.region (x : WardenCore) (i : Nat) : Option (Nat × Nat × Nat) :=
  let b := x.csrOf x.secure (0x20 + 2 * i)
  let l := x.csrOf x.secure (0x21 + 2 * i)
  if bitOf l 0 then some (bitsOf b 31 12, bitsOf l 31 12, bitsOf b 3 0) else none

/-- The access is granted (R230). -/
def WardenCore.grants (x : WardenCore) (kind a : Nat) : Bool :=
  let rs := (List.range 8).filterMap x.region
  match rs.find? (fun r => decide (r.1 ≤ a / 4096) && decide (a / 4096 ≤ r.2.1)) with
  | some r => bitOf r.2.2 kind && (!x.thread || bitOf r.2.2 3)
  | none => !x.thread && (rs == [] || kind != mpuX)

/-! Interrupts (R471, R476, R477). -/

/-- Where an event goes for the wardens: pair, secure and priority; none where no core gets it. -/
def Chip.route (c : Chip) (e : Nat) : Option (Nat × Bool × Nat) :=
  if 272 ≤ e && e < 276 then some (e - 272, e == 272, 8)
  else if 276 ≤ e && e < 280 then some (e - 276, e == 276, 6)
  else
    let a := Reg.irqRoute e
    if c.fld a 28 27 = 1 && c.fld a 23 20 != 0 then some (c.fld a 19 18, c.bit a 29, c.fld a 23 20) else none

/-- The events pending for a core in a world above its threshold: (priority, event), rising by number. An event in service is not offered. -/
def Chip.offers (c : Chip) (w : Nat) (secure : Bool) : List (Nat × Nat) :=
  let th := (c.warden w).csrOf true 0x32
  let mine := c.obs.pend.filterMap (fun e =>
    match c.route e with
    | some (p, s, prio) => if c.activeCore p = w && s == secure && !c.obs.inService.contains e then some (prio, e) else none
    | none => none)
  let down := if secure && c.obs.pend300.contains w && !c.obs.serv300.contains w then [(14, 300)] else []
  (sortBy (·.2) (mine ++ down)).filter (fun p => decide (th < p.1))

/-- The event that ICLAIM returns: the highest priority, the lower number of equals. -/
def bestOffer (os : List (Nat × Nat)) : Option (Nat × Nat) := minBy (fun p => 16 - p.1) os

/-- An interrupt is pending that wakes a core from WFI (R222): one of its world, or a secure one. -/
def Chip.wakes (c : Chip) (w : Nat) : Bool := c.offers w (c.warden w).secure != [] || c.offers w true != []

/-- The interrupt that a core takes now: secure or not (R228). In the normal world a secure interrupt is taken whatever IE. -/
def Chip.takesIrq (c : Chip) (w : Nat) : Option Bool :=
  let x := c.warden w
  if x.fenced || x.halted || decide (8 ≤ w) then none
  else if x.secure then (if x.enabled && c.offers w true != [] then some true else none)
  else if c.offers w true != [] then some true
  else if x.enabled && c.offers w false != [] then some false
  else none

/-- The entry of an interrupt (R227, R228). -/
def WardenCore.irqEnter (x : WardenCore) (secure : Bool) : WardenCore :=
  if secure && !x.secure then
    let y := x.toShadow
    ({ y.leave with secure := true }).enter y.wstat x.core.pc 0x11 0x40 none
  else x.enter x.wstat x.core.pc (if secure then 0x11 else 0x10) 0x40 none

/-- INTERRUPT_ENTRY (R227): nothing where the core takes no interrupt. -/
def execInterruptEntry (w : Nat) (s : State) : Host.Outcome State Fault Refusal :=
  onChip (fun c =>
    match c.takesIrq w with
    | some b => c.setWarden w ((c.warden w).irqEnter b)
    | none => c) s

/-- A claim of core `w` (R477): the number, 0xFFFF for none; the pending bit goes and the event is in service. -/
def Chip.iclaim (c : Chip) (w : Nat) : Nat × Chip :=
  match bestOffer (c.offers w (c.warden w).secure) with
  | none => (0xFFFF, c)
  | some (_, e) =>
    if e = 300 then
      (300, { c with obs := { c.obs with
        pend300 := c.obs.pend300.filter (· != w)
        serv300 := insertNat w c.obs.serv300 } })
    else (e, { c.unpend e with obs := { (c.unpend e).obs with inService := insertNat e c.obs.inService } })

/-- The end of an event's handling by core `w` (R477). -/
def Chip.ieoi (c : Chip) (w e : Nat) : Chip :=
  if e = 300 then { c with obs := { c.obs with serv300 := c.obs.serv300.filter (· != w) } }
  else { c with obs := { c.obs with inService := c.obs.inService.filter (· != e) } }

end Sys2Proof.Machine
end

