-- ==== Sys2Proof/Machine/CtlWrites.lean ====
section
/-! DEFINITION. What a write of a control-space register does: the plain fields of its table, and the effects that the tables give GO bits, commits, enables,
fences and routes (R12, R21, R30, R43, R505, and the register tables of every chapter). -/

namespace Sys2Proof.Machine

/-- An operation of the chip alone. -/
def chipDo (f : Chip → Chip) (s : State) : State := { s with chip := f s.chip }

/-- An operation after which items and zones go on. -/
def itemsDo (f : Chip → Chip) (s : State) : State := flushDlog { s with chip := (f s.chip).settle s.env }

/-- RWL fields are read-only from DEPLOYED on. -/
def State.locked (s : State) : Bool := s.fuse.lifecycle != .blank && s.fuse.lifecycle != .provisioned

/-- A write without the register's own effects: every field by its access code, the W1S bits aside. -/
def plainWrite (r : RegRow) (a v : Nat) (s : State) : State := chipDo (fun c => c.writeFields s.locked r a (v - (v &&& r.mask .w1s))) s

/-- A bit of the written word starts `f`. -/
def onBit (v i : Nat) (f : State → State) (s : State) : State := if bitOf v i then f s else s

/-- A plain write, then a commit if the written COMMIT bit is 1. -/
def commitOn (b : CommitBlk) (r : RegRow) (a v : Nat) (s : State) : State :=
  onBit v (commitBit b).2 (chipDo (fun c => c.requestCommit b)) (plainWrite r a v s)

/-! The hub blocks. -/

/-- RCU. -/
def rcuWrite (acc : Access) (r : RegRow) (a o v : Nat) (s : State) : State :=
  match o with
  | 0x0 => if acc.secure && bitOf v 1 then resetSource 5 s else if bitOf v 0 then resetSource 3 s else s
  | _ => plainWrite r a v s

/-- PMU (R423, R433, R437). -/
def pmuWrite (acc : Access) (r : RegRow) (a o v : Nat) (s : State) : State :=
  match o with
  | 0x0 => chipDo (fun c => c.pmuAct) (plainWrite r a v s)
  | 0x8 => if bitOf v 31 then chipDo (fun c => c.pmuRequest acc.secure (bitsOf v 30 28) (bitsOf v 2 0)) s else plainWrite r a v s
  | 0x10 => if acc.secure then plainWrite r a (v % 2 ^ (s.env.part.regions + 1)) s else s
  | _ => plainWrite r a v s

/-- CAL_CTRL.ENABLE goes from 0 to 1: planning begins (R49, R468). -/
def Chip.calEnabled (c : Chip) (before : Bool) : Chip :=
  if !before && c.bit Reg.calCtrl 0 then { c.calStart with rcu := { c.rcu with calSince := true } } else c

/-- CAL. -/
def calWrite (r : RegRow) (a o v : Nat) (s : State) : State :=
  match o with
  | 0x0 => chipDo (fun c => c.calEnabled (s.chip.bit Reg.calCtrl 0)) (commitOn .cal r a v s)
  | 0x1C => chipDo (fun c => c.writeFloor v) s
  | 0x30 =>
    if bitOf v 31 then
      chipDo (fun c => c.admitReq s.env (bitsOf v 13 12) (bitsOf v 25 16) (bitsOf v 11 8) (bitOf v 7) (bitsOf v 6 4) (bitsOf v 2 0)) s
    else plainWrite r a v s
  | 0x70 =>
    if bitOf v 31 then
      chipDo (fun c => c.maintGo s.env (bitsOf v 11 0) (bitsOf v 15 12) (bitsOf v 21 16) (c.fld Reg.calMaintTick 11 0) (bitOf v 22) (c.reg Reg.calMaintBuf)) s
    else plainWrite r a v s
  | 0x100 => chipDo (fun c => c.dbgSel v) s
  | 0x200 => chipDo (fun c => c.writeBudget v) s
  | _ => plainWrite r a v s

/-- HOST (R277, R279). -/
def hostWrite (r : RegRow) (a o v : Nat) (s : State) : State :=
  if o = 0 then itemsDo (fun c => c.linkEnable s.env (v % 16)) s
  else if 0x10 ≤ o && o < 0x20 then chipDo (fun c => c.linkCheck) (plainWrite r a v s)
  else plainWrite r a v s

/-- A logging slot (R331-R335): BASE is ignored while the slot is ACTIVE. -/
def dlogWrite (k : Nat) (r : RegRow) (a o v : Nat) (s : State) : State :=
  match o with
  | 0x0 => onBit v 31 (chipDo (fun c => c.dlogStart k (bitsOf v 7 0))) (onBit v 30 (chipDo (fun c => c.dlogStop k)) (plainWrite r a v s))
  | 0x4 => if (s.chip.dlogSlot k).active then s else plainWrite r a v s
  | 0x14 => onBit v 31 (chipDo (fun c => c.dlogCut k)) s
  | _ => plainWrite r a v s

/-- FN (R318-R335). -/
def fnWrite (r : RegRow) (a o v : Nat) (s : State) : State :=
  match o with
  | 0x0 => commitOn .fn r a v s
  | 0x8 => if bitOf v 31 then itemsDo (fun c => c.fnCommand s.env (bitsOf v 30 28) (bitsOf v 8 0)) s else plainWrite r a v s
  | 0x18 => if 16384 ≤ bitsOf v 21 0 && bitsOf v 21 0 ≤ s.chip.dram.farNow * 32768 then plainWrite r a v s else s
  | _ => if 0x100 ≤ o && o < 0x200 then dlogWrite ((o - 0x100) / 0x20) r a ((o - 0x100) % 0x20) v s else plainWrite r a v s

/-- KEY (R339-R359). -/
def keyWrite (r : RegRow) (a o v : Nat) (s : State) : State :=
  match o with
  | 0x0 => if bitOf v 31 then keyCommand (bitsOf v 30 28) (bitsOf v 26 16) (bitsOf v 15 7) (bitsOf v 6 3) s else plainWrite r a v s
  | 0x30 => commitOn .keySca r a v s
  | _ => plainWrite r a v s

/-- A word of the KEY_ANCHOR window (R373): words 0-22 of an anchor are staged, its last word programs it, the bytes after it ignore writes. -/
def anchorWrite (acc : Access) (o v : Nat) (s : State) : State :=
  let k := o / 0x80
  let i := o % 0x80 / 4
  if i = 23 then keyAnchorWrite acc k (BitVec.ofNat 32 v) s
  else if 23 < i || s.locked then s
  else chipDo (fun c => { c with key := { c.key with anchorWords := Tab.set (fun _ => 0) c.key.anchorWords (k * 32 + i) v } }) s

/-- BPM (R380-R390). -/
def bpmWrite (r : RegRow) (a o v : Nat) (s : State) : State :=
  match o with
  | 0x0 => commitOn .bpm r a v s
  | 0x20 => onBit v 31 bpmAllocOp s
  | 0x30 => onBit v 31 (bpmRefOp (bitOf v 30)) (plainWrite r a v s)
  | 0xA0 => onBit v 31 (chipDo (fun c => c.unfence (c.fld Reg.bpmAuditSel 11 0))) s
  | _ => plainWrite r a v s

/-- BOOM (R404-R422). -/
def boomWrite (r : RegRow) (a o v : Nat) (s : State) : State :=
  match o with
  | 0x0 => chipDo (fun c => if bitOf v 0 == s.chip.bit Reg.boomCtrl 0 then c else c.boomEnable s.env (bitOf v 0)) (commitOn .boom r a v s)
  | 0x20 => if bitOf v 31 then chipDo (fun c => c.boomGo s.env (bitsOf v 30 28)) s else plainWrite r a v s
  | _ =>
    if 0x100 ≤ o && o < 0x200 && (o - 0x100) % 0x40 = 0 then
      let n := (o - 0x100) / 0x40
      onBit v 0 (chipDo (fun c => c.portFence s.env n)) (onBit v 1 (chipDo (fun c => c.portUnfence s.env n)) s)
    else plainWrite r a v s

/-- THM (R446-R452): with ENABLE 0 the limits do not act. -/
def thmWrite (r : RegRow) (a o v : Nat) (s : State) : State :=
  match o with
  | 0x0 => chipDo (fun c => if c.bit Reg.thmCtrl 0 then c else
      { c with
        thm := { c.thm with cut := 0 }
        pmu := { c.pmu with thermal := 0 } }) (commitOn .thm r a v s)
  | _ => plainWrite r a v s

/-- LOG (R481, R482). -/
def logWrite (acc : Access) (r : RegRow) (a o v : Nat) (s : State) : State :=
  match o with
  | 0x0 => chipDo (fun c => if acc.secure && bitOf v 16 then c.logClear else c) (plainWrite r a v s)
  | 0x10 => chipDo (fun c => c.captureLog) (plainWrite r a v s)
  | 0x100 => onBit v 31 (chipDo (fun c => { c with obs := { c.obs with restart := true } })) (commitOn .tally r a v s)
  | 0x114 => chipDo (fun c => c.captureTally) (plainWrite r a v s)
  | _ => plainWrite r a v s

/-- KRF (R211-R217, R232, R238). -/
def krfWrite (acc : Access) (r : RegRow) (a o v : Nat) (s : State) : State :=
  if o < 0x80000 then
    match o with
    | 0x0 => if bitOf v 31 then krfLoadGo (bitOf v 30) (bitsOf v 5 0) s else plainWrite r a v s
    | 0x20 => if bitOf v 31 then chipDo (fun c => c.bindGo (bitsOf v 30 29) (bitsOf v 25 16) (bitsOf v 15 0) (c.fld Reg.krfBindArg 5 0)) s else plainWrite r a v s
    | _ => plainWrite r a v s
  else if o < 0x81000 then
    match o % 0x100 with
    | 0x4 => onBit v 31 (chipDo (fun c => c.wpCommit acc.who)) s
    | 0x24 => onBit v 0 (chipDo (fun c => c.mbxPop acc.who)) s
    | _ => plainWrite r a v s
  else onBit v 31 (chipDo (fun c => c.mbxPost acc.who)) s

/-- A word of a core's message buffer (R241): SRC and TIME ignore writes. -/
def mbxWrite (a o v : Nat) (s : State) : State :=
  chipDo (fun c =>
    match o with
    | 0x0 => c.setReg a (putBits v 7 0 (c.fld a 7 0))
    | 0x8 => c
    | 0xC => c.setReg a (putBits v 15 0 (c.fld a 15 0))
    | _ => c.setReg a v) s

/-- Events whose world is fixed to secure (R471). -/
def secureFixed (e : Nat) : Bool := [298, 303, 304, 307, 308].contains e

/-- IRQ_ROUTE of an event (R471, R473, R476, R478). -/
def routeWrite (acc : Access) (r : RegRow) (a e v : Nat) (s : State) : State :=
  let w := r.fields.foldl (fun w f => f.write false w v) (s.chip.reg a)
  let w1 := if logForced e then putBits w 30 30 1 else w
  if !eventListed e || eventFixed e || eventAbsent s.env.part e then s
  else if !acc.secure && (s.chip.bit a 29 || bitOf v 29) then s
  else if secureFixed e && !bitOf v 29 then s
  else if bitsOf w1 28 27 = 2 && !(decide (289 ≤ e) && decide (e ≤ 327) && decide (1024 ≤ bitsOf w1 10 0)) then
    chipDo (fun c => c.bump Reg.irqErr 15 0 1) s
  else chipDo (fun c => c.setReg a w1) s

/-- IRQ (R472, R476-R478). -/
def irqWrite (acc : Access) (r : RegRow) (a o v : Nat) (s : State) : State :=
  if o < 0x1800 then routeWrite acc r a (o / 4) v s
  else if 0x2000 ≤ o && o < 0x20C0 then
    let n := (o - 0x2000) / 4
    chipDo (fun c =>
      let c1 := { c with obs := { c.obs with pend := c.obs.pend.filter (fun e => !(e / 32 == n && bitOf v (e % 32))) } }
      if n = 9 && bitOf v 12 then { c1 with obs := { c1.obs with pend300 := [] } } else c1) s
  else plainWrite r a v s

/-- MAP (R167-R187). -/
def mapWrite (r : RegRow) (a o v : Nat) (s : State) : State :=
  match o with
  | 0x0 => commitOn .map r a v s
  | 0x20 => if bitOf v 31 then chipDo (fun c => c.pinGo (bitOf v 30) (bitsOf v 25 16)) s else plainWrite r a v s
  | 0x50 => if bitOf v 31 then itemsDo (fun c => c.bbtGo s.env s.fuse.lifecycle (bitsOf v 30 28)) s else plainWrite r a v s
  | _ => plainWrite r a v s

/-- A register of a hub block, by the base of R27. -/
def hubWrite (acc : Access) (r : RegRow) (a v : Nat) (s : State) : State :=
  if a < 0x10000 then s
  else if a < 0x20000 then rcuWrite acc r a (a - 0x10000) v s
  else if a < 0x40000 then pmuWrite acc r a (a - 0x20000) v s
  else if a < 0x100000 then calWrite r a (a - 0x40000) v s
  else if a < 0x200000 then hostWrite r a (a - 0x100000) v s
  else if a < 0x300000 then fnWrite r a (a - 0x200000) v s
  else if a < 0x380000 then keyWrite r a (a - 0x300000) v s
  else if a < 0x400000 then (if a = Reg.sealCtrl then commitOn .seal r a v s else plainWrite r a v s)
  else if a < 0x500000 then bpmWrite r a (a - 0x400000) v s
  else if a < 0x600000 then (if a = Reg.memCtrl then commitOn .mem r a v s else plainWrite r a v s)
  else if a < 0x700000 then boomWrite r a (a - 0x600000) v s
  else if a < 0x800000 then thmWrite r a (a - 0x700000) v s
  else if a < 0x900000 then logWrite acc r a (a - 0x800000) v s
  else if a < 0xA00000 then krfWrite acc r a (a - 0x900000) v s
  else if a < 0xB00000 then irqWrite acc r a (a - 0xA00000) v s
  else mapWrite r a (a - 0xB00000) v s

/-! The region windows. -/

/-- A channel engine: CH_CFG is writable in OFF only. -/
def chWrite (n : Nat) (r : RegRow) (a o v : Nat) (s : State) : State :=
  match o with
  | 0x0 => onBit v 1 (itemsDo (fun c => c.chFence s.env n)) (onBit v 0 (chipDo (fun c => c.chStart s.env n)) s)
  | 0x4 => if (s.chip.chan n).phase == .off then plainWrite r a v s else s
  | _ => plainWrite r a v s

/-- A decoder complex. -/
def decWrite (k : Nat) (r : RegRow) (a o v : Nat) (s : State) : State :=
  match o with
  | 0x0 => itemsDo (fun c => if bitsOf v 5 1 = 0 then c else c.decFence s.env k (bitsOf v 5 1)) (commitOn (.dec k) r a v s)
  | _ => plainWrite r a v s

/-- A word of the DEC_BT window (R139, R141): the staging copy. -/
def bandWrite (k o v : Nat) (s : State) : State :=
  if 12 ≤ o / 0x1400 || 1036 ≤ o % 0x1400 / 4 then s
  else chipDo (fun c => c.setDec k { c.dec k with
    stage := Tab.set (fun _ => 0) (c.dec k).stage (o / 0x1400 * 0x500 + o % 0x1400 / 4) (BitVec.ofNat 32 v) }) s

/-- A ring's registers (R267-R274). -/
def ringWrite (acc : Access) (g q : Nat) (r : RegRow) (a o v : Nat) (s : State) : State :=
  let on := s.chip.bit (Reg.tqCtrl g q) 0
  match o with
  | 0x0 =>
    let v1 := if acc.secure then v else putBits v 3 3 (b2n (s.chip.bit a 3))
    onBit v 2 (chipDo (fun c => c.tringResume g q)) (plainWrite r a v1 s)
  | 0x4 => if on then s else plainWrite r a v s
  | 0x8 => if on then s else plainWrite r a v s
  | 0x10 => plainWrite r a (v % s.chip.tringSize g q) s
  | _ => plainWrite r a v s

/-- A transform complex. -/
def tfWrite (acc : Access) (g : Nat) (r : RegRow) (a o v : Nat) (s : State) : State :=
  if o = 0 then commitOn (.tf g) r a v s
  else if o = 8 then chipDo (fun c => c.fenceLanes s.env g (v % 65536)) s
  else if 0x10000 ≤ o then ringWrite acc g ((o - 0x10000) / 0x100) r a ((o - 0x10000) % 0x100) v s
  else plainWrite r a v s

/-- A register of a region window: `g` the region, `o` the offset in its window. -/
def regionWrite (acc : Access) (g : Nat) (r : RegRow) (a o v : Nat) (s : State) : State :=
  if o < 0x800000 then
    let k := g * 8 + o / 0x100000
    let l := o % 0x100000
    if l < 0x40000 then chWrite (k * 4 + l / 0x10000) r a (l % 0x10000) v s else decWrite k r a (l - 0x40000) v s
  else if o < 0xC00000 then tfWrite acc g r a (o - 0x800000) v s
  else plainWrite r a v s

/-- A write of one register. -/
def regWrite (acc : Access) (r : RegRow) (a v : Nat) (s : State) : State :=
  if a < 0x10000000 then hubWrite acc r a v s else regionWrite acc ((a - 0x10000000) / 0x4000000) r a (a % 0x4000000) v s

/-! 64-bit registers (R30). -/

/-- Where an accessor's holding copies of a 64-bit register stand, by the address of its low word. -/
def holdKey (acc : Access) (lo : Nat) : Nat := acc.who * 2 ^ 32 + lo

/-- The step of the tick through RCU_TICK_STEP (R468). -/
def Chip.tickStep (c : Chip) (t : Nat) : Chip :=
  if t ≤ c.tick || c.rcu.calSince then { c with rcu := { c.rcu with tickRefused := true } }
  else { c.stepTick t with rcu := { c.rcu with tickRefused := false } }

/-- What the write of the low word of a 64-bit register starts, with the value of both words. -/
def wideAct (lo v : Nat) (s : State) : State :=
  if lo = Reg.sealStrikeLo then chipDo (fun c => c.strikeRequest (v % 2 ^ 48)) s
  else if lo = Reg.rcuTickStepLo then chipDo (fun c => c.tickStep (v % 2 ^ 48)) s
  else s

/-- A write of the high word is held (R30). -/
def holdHigh (acc : Access) (lo v : Nat) (s : State) : State :=
  chipDo (fun c => { c with regs := { c.regs with wrHold := Tab.set (fun _ => none) c.regs.wrHold (holdKey acc lo) (some (BitVec.ofNat 32 v)) } }) s

/-- Bits of the high word that exist (LOG_TY_EN has 42 sets). -/
def highPart (lo v : Nat) : Nat := if lo = Reg.logTyEnLo then v % 1024 else v

/-- A write of the low word: it commits with the held high word, or with the register's current one (R30). -/
def writeLow (acc : Access) (rl rh : RegRow) (lo v : Nat) (s : State) : State :=
  let hv := match Tab.get (fun _ => none) s.chip.regs.wrHold (holdKey acc lo) with
    | some w => w.toNat
    | none => regView s rh (lo + 4)
  let s1 := chipDo (fun c => { c with regs := { c.regs with wrHold := Tab.set (fun _ => none) c.regs.wrHold (holdKey acc lo) none } }) s
  wideAct lo (highPart lo hv * 2 ^ 32 + v) (plainWrite rl lo v (plainWrite rh (lo + 4) (highPart lo hv) s1))

end Sys2Proof.Machine
end

