-- ==== Sys2Proof/Machine/ControlSpace.lean ====
section
/-! DEFINITION. Accesses to control space: the map, its access rules, 64-bit registers, and the debug window (R5, R12, R13, R21, R26-R31, R231, R241, R482). -/

namespace Sys2Proof.Machine

/-! Where an access goes (R5, R26-R29, R231). -/

/-- What an address of control space is to an access. -/
inductive Target where
  /-- It reads 0 and ignores writes (R5). -/
  | nothing
  /-- BUS_ERROR, with event 304 where a rule calls for its fault log entry (R26-R29). -/
  | bus (log : Bool)
  /-- A word of a register block. -/
  | word
  /-- The boot ROM, at an offset. -/
  | rom (o : Nat)
  /-- The warden SRAM, at an offset; `frozen`: it ignores writes. -/
  | sram (o : Nat) (frozen : Bool)
  /-- The boot NOR window. -/
  | nor (o : Nat)
  /-- The DRAM aperture. -/
  | dram (o : Nat)
  /-- A store that stalls while the pair's commit copies (R232). -/
  | stall
  deriving DecidableEq, Repr

/-- The address lies in an absent unit (R5): a region, the Boom block, or the squeeze register of a transform complex. -/
def absentAt (p : Part) (a : Nat) : Bool :=
  (decide (0x10000000 ≤ a) && decide (a < 0x20000000) && decide (p.regions ≤ (a - 0x10000000) / 0x4000000)) ||
    (decide (0x600000 ≤ a) && decide (a < 0x700000) && !p.full) ||
    (decide (0x10000000 ≤ a) && decide (a < 0x20000000) && decide (0x80003C ≤ a % 0x4000000) && decide (a % 0x4000000 < 0x800040) && !p.full)

/-- An S block (R27). -/
def secureBlock (a : Nat) : Bool := decide (0x300000 ≤ a) && decide (a < 0x400000)

/-- The warden registers of the KRF block that a core reaches: its own pair's, its own mailbox's and its pair's slot window. -/
def ownKrf (who a : Nat) : Bool :=
  let p := who / 2
  (decide (0x980000 + p * 0x100 ≤ a) && decide (a < 0x980100 + p * 0x100)) ||
    (decide (0x981000 + who * 0x100 ≤ a) && decide (a < 0x981100 + who * 0x100)) ||
    (decide (0x990000 + p * 0x4000 ≤ a) && decide (a < 0x994000 + p * 0x4000))

/-- An access to a register word (R26-R29). -/
def regTarget (acc : Access) (a width : Nat) : Target :=
  if width ≠ 4 ∨ a % 4 ≠ 0 then .bus false
  else if a < 0x10000000 ∧ 0xC00000 ≤ a then .bus true
  else if secureBlock a && !acc.secure then .bus true
  else if 0x980000 ≤ a ∧ a < 0xA00000 ∧ !ownKrf acc.who a then .bus false
  else if 0x10000000 ≤ a ∧ 0xE00000 ≤ a % 0x4000000 then .bus true
  else .word

/-- An access to the warden SRAM (R231). -/
def sramTarget (s : State) (acc : Access) (o : Nat) (write : Bool) : Target :=
  let p := acc.who / 2
  let i := o % 2 ^ 20
  if o / 2 ^ 20 ≠ p ∨ 8 ≤ acc.who ∨ (p = 0 ∧ !acc.secure) then .bus false
  else if i < 0x40000 then
    if write && !s.chip.isActive acc.who then .bus false
    else if write && (s.chip.pair p).committing then .stall
    else .sram o false
  else if i < 0xC0000 then .sram o true
  else if (i - 0xC0000) / 0x20000 ≠ acc.who % 2 then .bus false
  else .sram o false

/-- Where an access goes. -/
def target (s : State) (acc : Access) (a width : Nat) (write : Bool) : Target :=
  if absentAt s.env.part a then .nothing
  else if a < 0x20000000 then regTarget acc a width
  else if !([1, 2, 4, 8].contains width) || a % Nat.max 1 width != 0 then .bus false
  else if a < 0x20020000 then (if acc.secure then .rom (a - 0x20000000) else .bus true)
  else if 0x21000000 ≤ a ∧ a < 0x21400000 then sramTarget s acc (a - 0x21000000) write
  else if 0x30000000 ≤ a ∧ a < 0x40000000 then .nor (a - 0x30000000)
  else if 0x40000000 ≤ a ∧ a < 0x80000000 then
    let o := a - 0x40000000
    if (if write then s.chip.dramWriteBad o width else s.chip.dramReadBad o width) then .bus false else .dram o
  else .bus true

/-! Register words. -/

/-- A word of an anchor as the KEY_ANCHOR window shows it (R373). -/
def anchorWord (s : State) (o : Nat) : Nat :=
  let k := o / 0x80
  let i := o % 0x80 / 4
  match Tab.get (fun _ => []) s.fuse.anchors k with
  | [] => if i < 24 then Tab.get (fun _ => 0) s.chip.key.anchorWords (k * 32 + i) else 0
  | bs => leNat (sliceBytes (bs ++ List.replicate 32 0) (4 * i) 4)

/-- A word of the slot window of a pair (R241). -/
def slotWindow (c : Chip) (o : Nat) : Nat := leNat (sliceBytes ((c.pair (o / 0x4000)).slot (o % 0x4000 / 0x80)).bytes (o % 0x80) 4)

/-- A word of the DEC_BT window (R141). -/
def bandWord (c : Chip) (k o : Nat) : Nat :=
  if 12 ≤ o / 0x1400 || 1036 ≤ o % 0x1400 / 4 then 0 else (Tab.get (fun _ => 0) (c.dec k).stage (o / 0x1400 * 0x500 + o % 0x1400 / 4)).toNat

/-- The windows of the register blocks, where no register stands. -/
inductive Window where
  | anchor (o : Nat)
  | buffer (o : Nat)
  | mbx (who o : Nat)
  | slots (o : Nat)
  | band (cluster o : Nat)
  | none
  deriving DecidableEq, Repr

/-- The window of an address. -/
def windowAt (a : Nat) : Window :=
  if 0x301000 ≤ a ∧ a < 0x301400 then .anchor (a - 0x301000)
  else if 0x410000 ≤ a ∧ a < 0x414000 then .buffer (a - 0x410000)
  else if 0x981000 ≤ a ∧ a < 0x981800 ∧ 0x80 ≤ a % 0x100 then .mbx ((a - 0x981000) / 0x100) (a % 0x80)
  else if 0x990000 ≤ a ∧ a < 0x9A0000 then .slots (a - 0x990000)
  else if 0x10000000 ≤ a ∧ a % 0x4000000 < 0x800000 ∧ 0x60000 ≤ a % 0x100000 ∧ a % 0x100000 < 0x70000 then
    .band ((a - 0x10000000) / 0x4000000 * 8 + a % 0x4000000 / 0x100000) (a % 0x10000)
  else .none

/-- What a read of a word finds, without its effects. -/
def wordAt (s : State) (a : Nat) : Nat :=
  match windowAt a with
  | .anchor o => anchorWord s o
  | .buffer o => windowRead s o
  | .mbx _ _ => s.chip.reg a
  | .slots o => slotWindow s.chip o
  | .band k o => bandWord s.chip k o
  | .none =>
    match findReg a with
    | some (r, _) => regView s r a
    | none => 0

/-- The cluster of a decoder address. -/
def clusterOf (a : Nat) : Nat := (a - 0x10000000) / 0x4000000 * 8 + a % 0x4000000 / 0x100000

/-- The effects of a read (RC of R12, R30, R144, R482): fields that a read clears, the high word latched by the low one, the capture's next entry. -/
def readEffects (acc : Access) (a : Nat) (r : RegRow) (s : State) : State :=
  chipDo (fun c =>
    let c1 := c.clearRc r a
    let c2 := if r.half = .lo then
        { c1 with regs := { c1.regs with
          rdHold := Tab.set (fun _ => none) c1.regs.rdHold (holdKey acc a) (some (BitVec.ofNat 32 (wordAt s (a + 4)))) } }
      else c1
    if a = Reg.irqCnt then
      { c2 with obs := { c2.obs with raises := Tab.set (fun _ => 0) c2.obs.raises (c2.fld Reg.irqCntSel 10 0) 0 } }
    else if a = Reg.logFlE 7 then c2.captureNext false
    else if a = Reg.logTyR 15 then c2.captureNext true
    else c2) s

/-- A read of a register word: its value, and the state after it. -/
def readWord (acc : Access) (a : Nat) (s : State) : Nat × State :=
  match windowAt a, findReg a with
  | .none, some (r, _) =>
    if a = Reg.decRwqLo (clusterOf a) ∧ 0x10000000 ≤ a then
      let t := chipDo (fun c => c.rwqPop acc (clusterOf a)) s
      (t.chip.resp.data.toNat, t)
    else
      let latched := if r.half = .hi then (Tab.get (fun _ => none) s.chip.regs.rdHold (holdKey acc (a - 4))).map (fun w => BitVec.toNat w) else none
      (latched.getD (wordAt s a), readEffects acc a r s)
  | _, _ => (wordAt s a, s)

/-- A write of a register word. -/
def writeWord (acc : Access) (a v : Nat) (s : State) : State :=
  match windowAt a with
  | .anchor o => anchorWrite acc o v s
  | .buffer o => windowWrite o (BitVec.ofNat 32 v) s
  | .mbx _ o => mbxWrite a o v s
  | .slots _ => s
  | .band k o => bandWrite k o v s
  | .none =>
    match findReg a with
    | none => s
    | some (r, _) =>
      match r.half, findReg (a + 4) with
      | .hi, _ => holdHigh acc (a - 4) v s
      | .lo, some (rh, _) => writeLow acc r rh a v s
      | _, _ => regWrite acc r a v s

/-! Memories. -/

/-- The bytes of a mirror copy as its window shows them: the header, then the mirrored state (R231). -/
def copyByte (k : MirrorCopy) (o : Nat) : Byte :=
  if o < 8 then BitVec.ofNat 8 (k.gen / 256 ^ o)
  else if o = 8 then (if k.valid then 1 else 0)
  else if o < 16 then 0
  else Mem.read k.image (o - 16)

/-- A byte of the warden SRAM. -/
def sramByte (s : State) (o : Nat) : Byte :=
  let x := s.chip.pair (o / 2 ^ 20)
  let i := o % 2 ^ 20
  if 0x40000 ≤ i ∧ i < 0x80000 then copyByte x.copy0 (i - 0x40000)
  else if 0x80000 ≤ i ∧ i < 0xC0000 then copyByte x.copy1 (i - 0x80000)
  else Mem.read s.mem.sram o

/-! Accesses. -/

/-- What an access answers. -/
inductive BusRes where
  | ok (v : Nat) (s : State)
  | bus (log : Bool)
  | stall
  deriving DecidableEq, Repr

/-- A read of `width` bytes. -/
def busRead (acc : Access) (a width : Nat) (s : State) : BusRes :=
  match target s acc a width false with
  | .nothing => .ok 0 s
  | .bus l => .bus l
  | .word =>
    let (v, t) := readWord acc a s
    .ok v t
  | .rom o => .ok (leNat ((List.range width).map (fun i => Config.bootRom (o + i)))) s
  | .sram o _ => .ok (leNat ((List.range width).map (fun i => sramByte s (o + i)))) s
  | .nor o => .ok (Mem.readLe s.mem.nor o width) s
  | .dram o => .ok (Mem.readLe s.mem.dram o width) s
  | .stall => .stall

/-- A write of `width` bytes. Read-only windows ignore it. -/
def busWrite (acc : Access) (a width v : Nat) (s : State) : BusRes :=
  match target s acc a width true with
  | .nothing => .ok 0 s
  | .bus l => .bus l
  | .word => .ok 0 (writeWord acc a (v % 2 ^ 32) s)
  | .rom _ => .ok 0 s
  | .sram o frozen => .ok 0 (if frozen then s else { s with mem := { s.mem with sram := Mem.writeLe s.mem.sram o width v } })
  | .nor _ => .ok 0 s
  | .dram o => .ok 0 { s with
      mem := { s.mem with dram := Mem.writeLe s.mem.dram o width v }
      chip := s.chip.dramHeal o width }
  | .stall => .stall

/-- The answer of an access: data and status. -/
def answer (v st : Nat) (s : State) : State := chipDo (fun c => { c with resp := ⟨BitVec.ofNat 32 v, st⟩ }) s

/-- Event 304 and its fault log entry, where a rule calls for it. -/
def Chip.busEvent (c : Chip) (log : Bool) : Chip := if log then c.raise 304 cstBus 0xFFFF 0 0 else c

/-- The debug window reaches control space in BLANK and PROVISIONED only, below 0x2000_0000, and no S block (R31). -/
def debugReaches (s : State) (a : Nat) : Bool := !s.locked && decide (a < 0x20000000) && !secureBlock a

/-- An access through the debug window: what it does not reach, or control space would answer with BUS_ERROR, is refused with event 303 (R31). -/
def debugAccess (a width : Nat) (wr : Option Nat) (s : State) : State :=
  let acc : Access := ⟨8, false⟩
  let refused := answer 0 cstOk (chipDo (fun c => c.raise0 303) s)
  if !debugReaches s a then refused
  else
    match (match wr with | some v => busWrite acc a width v s | none => busRead acc a width s) with
    | .ok v t => answer v cstOk t
    | _ => refused

/-- An access of a warden core or through the debug window. A core's access that completes with BUS_ERROR traps it (R225, R27). -/
def access (acc : Access) (a width : Nat) (wr : Option Nat) (s : State) : State :=
  if 8 ≤ acc.who then debugAccess a width wr s
  else
    match (match wr with | some v => busWrite acc a width v s | none => busRead acc a width s) with
    | .ok v t => answer v cstOk t
    | .bus l => answer 0 cstBus (chipDo (fun c => (c.busEvent l).wardenTrap acc.who 5 (some a)) s)
    | .stall => s

/-- COMMIT_WRITE (R21): a write of 1 to a block's COMMIT bit, its other fields as they stand. -/
def execCommitWrite (acc : Access) (blk : CommitBlk) (s : State) : Host.Outcome State Fault Refusal :=
  let (a, i) := commitBit blk
  .next (access acc a 4 (some (putBits ((s.chip.reg a &&& commitKeep blk) ||| (s.chip.stgReg a &&& stagedMask a)) i i 1)) s)
where
  /-- The fields of the register of a COMMIT bit that a write of their own value leaves as they are: no W1S and no W1C field. Staged fields keep their
  staging copy. -/
  commitKeep (blk : CommitBlk) : Nat :=
    match findReg (commitBit blk).1 with
    | some (r, _) => r.mask .rw ||| r.mask .rwl ||| r.mask .rws
    | none => 0

/-- REGISTER_WRITE (R12, R43). -/
def execRegisterWrite (acc : Access) (addr : Nat) (v : Word) (s : State) : Host.Outcome State Fault Refusal := .next (access acc addr 4 (some v.toNat) s)

/-- CLEAR_ON_READ (R13). -/
def execClearOnRead (acc : Access) (addr : Nat) (s : State) : Host.Outcome State Fault Refusal := .next (access acc addr 4 none s)

/-- REG64_LOW_READ (R30). -/
def execReg64LowRead (acc : Access) (addr : Nat) (s : State) : Host.Outcome State Fault Refusal := .next (access acc addr 4 none s)

/-- REG64_HIGH_WRITE (R30). -/
def execReg64HighWrite (acc : Access) (addr : Nat) (v : Word) (s : State) : Host.Outcome State Fault Refusal := .next (access acc addr 4 (some v.toNat) s)

/-- REG64_LOW_WRITE (R30). -/
def execReg64LowWrite (acc : Access) (addr : Nat) (v : Word) (s : State) : Host.Outcome State Fault Refusal := .next (access acc addr 4 (some v.toNat) s)

/-- BUS_ERROR_ACCESS (R26-R29). -/
def execBusErrorAccess (acc : Access) (addr width : Nat) (wr : Option Word) (s : State) : Host.Outcome State Fault Refusal :=
  .next (access acc addr width (wr.map (fun w => w.toNat)) s)

/-- ABSENT_UNIT_ACCESS (R5). -/
def execAbsentUnitAccess (acc : Access) (addr : Nat) (wr : Option Word) (s : State) : Host.Outcome State Fault Refusal :=
  .next (access acc addr 4 (wr.map (fun w => w.toNat)) s)

/-- DEBUG_WINDOW_ACCESS (R31). -/
def execDebugWindowAccess (addr width : Nat) (wr : Option Word) (s : State) : Host.Outcome State Fault Refusal :=
  .next (debugAccess addr width (wr.map (fun w => w.toNat)) s)

/-- SEAL_STRIKE_REQUEST (R368): the write of the low word of SEAL_STRIKE. -/
def execSealStrikeRequest (acc : Access) (v : Word) (s : State) : Host.Outcome State Fault Refusal :=
  .next (access acc Reg.sealStrikeLo 4 (some v.toNat) s)

/-- RCU_TICK_STEP (R468): the write of the low word of RCU_TICK_STEP. -/
def execRcuTickStep (acc : Access) (v : Word) (s : State) : Host.Outcome State Fault Refusal :=
  .next (access acc Reg.rcuTickStepLo 4 (some v.toNat) s)

end Sys2Proof.Machine
end

