-- ==== Sys2Proof/Machine/KerfExec.lean ====
section
/-! DEFINITION. One instruction on a Kerf core of either profile: its guard, its cost, its checks, and where the core goes on (R194, R199, R201, R207,
R220-R226). Cores 0-39 run the data profile, 40-47 are the warden cores (MFS selector 7). -/

namespace Sys2Proof.Machine

/-! The data profile. -/

/-- What an instruction of the data profile comes to. -/
inductive KOut where
  /-- It goes on at the next instruction. -/
  | next (core : KCore) (inv : Invocation)
  /-- It goes on at a position it chose. -/
  | jump (core : KCore) (inv : Invocation)
  /-- A trap with a detail code (R207). -/
  | trap (code : Nat)
  /-- EXIT (R206). -/
  | exit
  deriving DecidableEq, Repr

/-- The invocation goes on after an instruction of a cost. Going back to the start of a loop body costs the cycle of an iteration (R194, R200). -/
def Chip.kput (c : Chip) (k cost : Nat) (core : KCore) (v : Invocation) : Chip :=
  let back := if core.pc ≤ (c.kcore k).core.pc then 1 else 0
  c.setKcore k { c.kcore k with
    core := core
    inv := some { v with cycles := v.cycles + cost + back } }

/-- The data-profile core runs an instruction now: it is not fenced, and its invocation has not reached the budget (R194). -/
def Chip.kruns (c : Chip) (k : Nat) : Option Invocation :=
  if (c.kcore k).fenced then none else (c.kcore k).inv.filter (fun v => decide (v.cycles < 4096))

/-- One instruction of a data-profile core (R194, R199). -/
def dataRun (k cost : Nat) (g : Guard) (f : KCore → Invocation → KOut) (s : State) : State :=
  match s.chip.kruns k with
  | none => s
  | some v =>
    let core := (s.chip.kcore k).core
    if core.guard g then
      match f core v with
      | .next x y => { s with chip := s.chip.kput k cost (x.advance 1) y }
      | .jump x y => { s with chip := s.chip.kput k cost x y }
      | .trap code => flushDlog { s with chip := (s.chip.kerfTrap s.env k code).settle s.env }
      | .exit => flushDlog { s with chip := (s.chip.commitInv s.env k).settle s.env }
    else { s with chip := s.chip.kput k cost (core.advance 1) v }

/-! The control profile. -/

/-- Goes on at a byte address of control space. -/
def WardenCore.goTo (x : WardenCore) (target : Nat) : WardenCore := { x with core := x.core.goTo 4 (target % 2 ^ 32) }

/-- Goes on at the next instruction. -/
def WardenCore.advance (x : WardenCore) : WardenCore := x.goTo (x.core.pc + 4)

/-- Puts a register of a warden core. -/
def WardenCore.setReg (x : WardenCore) (r : BitVec 4) (v : Dword) : WardenCore := { x with core := x.core.setReg r v }

/-- Puts a warden core in the machine. -/
def State.putWarden (s : State) (w : Nat) (x : WardenCore) : State := { s with chip := s.chip.setWarden w x }

/-- A synchronous trap (R225-R227, R229), with event 304 where the access called for it. -/
def State.trap (s : State) (w cause : Nat) (addr : Option Nat) (log : Bool) : State :=
  { s with chip := (s.chip.busEvent log).wardenTrap w cause addr }

/-- The trap of a fetch at the pc: cause, and whether event 304 is raised (R226, checks 1-3). -/
def fetchTrap (s : State) (w : Nat) : Option (Nat × Bool) :=
  let x := s.chip.warden w
  if x.core.pc % 4 ≠ 0 then some (3, false)
  else if !x.grants mpuX x.core.pc then some (4, false)
  else
    match target s ⟨w, x.secure⟩ x.core.pc 4 false with
    | .bus l => some (5, l)
    | _ => none

/-- A warden core runs an instruction now: it is neither fenced nor halted, it takes no interrupt first, and if it waits, an interrupt has ended its wait
(R222, R227, R228). -/
def Chip.wruns (c : Chip) (w : Nat) : Bool :=
  let x := c.warden w
  decide (w < 8) && !x.fenced && !x.halted && (c.takesIrq w).isNone && (!x.waiting || c.wakes w)

/-- The core does not wait any more. -/
def State.awake (s : State) (w : Nat) : State := s.putWarden w { s.chip.warden w with waiting := false }

/-- One instruction of a warden core: the checks of R226 in their order, and, where the guard holds, what it does. `illegal`: its opcode, guard, predicate
or CSR number is. `priv`: the core's level or world may not run it. -/
def wardenRun (w : Nat) (g : Guard) (illegal : Bool) (priv : WardenCore → Bool) (f : State → State) (s : State) : State :=
  if !s.chip.wruns w then s
  else
    let t := s.awake w
    let x := t.chip.warden w
    match fetchTrap t w with
    | some (cause, l) => t.trap w cause (some x.core.pc) l
    | none =>
      if illegal || Guard.never g then t.trap w 1 none false
      else if !x.core.guard g then t.putWarden w x.advance
      else if priv x then t.trap w 2 none false
      else f t

/-- No level or world is refused. -/
def anyLevel (_ : WardenCore) : Bool := false

/-- An instruction that only changes the core's registers, on a warden core. -/
def wardenRegs (w : Nat) (g : Guard) (illegal : Bool) (f : KCore → KCore) (s : State) : State :=
  wardenRun w g illegal anyLevel (fun t => t.putWarden w { t.chip.warden w with core := f (t.chip.warden w).core }.advance) s

/-! Both profiles. -/

/-- An instruction that only changes registers, predicates and V, on a core of either profile. `illegal` is what a warden core traps on. -/
def kerfRegs (c cost : Nat) (g : Guard) (illegal : Bool) (f : KCore → KCore) (s : State) : State :=
  if c < 40 then dataRun c cost g (fun x v => .next (f x) v) s else wardenRegs (c - 40) g illegal f s

/-- An instruction of two registers and a result. -/
def kerfRR (c cost : Nat) (g : Guard) (f : Dword → Dword → Dword) (vf : Dword → Dword → Bool) (rd ra rb : BitVec 4) (s : State) : State :=
  kerfRegs c cost g false (aluRR f vf rd ra rb) s

/-- An instruction of a register, an immediate and a result. -/
def kerfRI (c : Nat) (g : Guard) (f : Dword → Dword → Dword) (vf : Dword → Dword → Bool) (rd ra : BitVec 4) (imm : Dword) (s : State) : State :=
  kerfRegs c 1 g false (aluRI f vf rd ra imm) s

/-- An instruction of the data profile alone: a warden core traps it as ILLEGAL (R221). -/
def dataOnly (c cost : Nat) (g : Guard) (f : KCore → Invocation → KOut) (s : State) : State :=
  if c < 40 then dataRun c cost g f s else wardenRun (c - 40) g true anyLevel id s

/-- An instruction of the control profile alone: the loader admits none on a data-profile core (R200, R212), where nothing happens. -/
def controlOnly (c : Nat) (g : Guard) (illegal : Bool) (priv : WardenCore → Bool) (f : Nat → State → State) (s : State) : State :=
  if c < 40 then s else wardenRun (c - 40) g illegal priv (f (c - 40)) s

end Sys2Proof.Machine
end

