-- ==== Sys2Proof/Machine/KerfAlu.lean ====
section
/-! DEFINITION. The register instructions of the Kerf cores (R189, R190, R199, R200, R221). -/

namespace Sys2Proof.Machine

/-- NOP (R200). -/
def execNop (c : Nat) (g : Guard) (s : State) : Host.Outcome State Fault Refusal := .next (kerfRegs c 1 g false id s)

/-- ADD (R200). -/
def execAdd (c : Nat) (g : Guard) (rd ra rb : BitVec 4) (s : State) : Host.Outcome State Fault Refusal :=
  .next (kerfRR c 1 g (fun a b => a + b) addSetsV rd ra rb s)

/-- SUB (R200). -/
def execSub (c : Nat) (g : Guard) (rd ra rb : BitVec 4) (s : State) : Host.Outcome State Fault Refusal :=
  .next (kerfRR c 1 g (fun a b => a - b) subSetsV rd ra rb s)

/-- MUL (R200). -/
def execMul (c : Nat) (g : Guard) (rd ra rb : BitVec 4) (s : State) : Host.Outcome State Fault Refusal :=
  .next (kerfRR c 3 g (fun a b => a * b) mulSetsV rd ra rb s)

/-- AND (R200). -/
def execAnd (c : Nat) (g : Guard) (rd ra rb : BitVec 4) (s : State) : Host.Outcome State Fault Refusal :=
  .next (kerfRR c 1 g (fun a b => a &&& b) noV rd ra rb s)

/-- OR (R200). -/
def execOr (c : Nat) (g : Guard) (rd ra rb : BitVec 4) (s : State) : Host.Outcome State Fault Refusal :=
  .next (kerfRR c 1 g (fun a b => a ||| b) noV rd ra rb s)

/-- XOR (R200). -/
def execXor (c : Nat) (g : Guard) (rd ra rb : BitVec 4) (s : State) : Host.Outcome State Fault Refusal :=
  .next (kerfRR c 1 g (fun a b => a ^^^ b) noV rd ra rb s)

/-- SHL (R200). -/
def execShl (c : Nat) (g : Guard) (rd ra rb : BitVec 4) (s : State) : Host.Outcome State Fault Refusal :=
  .next (kerfRR c 1 g (fun a b => a <<< shiftOf b) noV rd ra rb s)

/-- SHR (R200). -/
def execShr (c : Nat) (g : Guard) (rd ra rb : BitVec 4) (s : State) : Host.Outcome State Fault Refusal :=
  .next (kerfRR c 1 g (fun a b => a >>> shiftOf b) noV rd ra rb s)

/-- SAR (R200). -/
def execSar (c : Nat) (g : Guard) (rd ra rb : BitVec 4) (s : State) : Host.Outcome State Fault Refusal :=
  .next (kerfRR c 1 g (fun a b => a.sshiftRight (shiftOf b)) noV rd ra rb s)

/-- MINU (R200). -/
def execMinu (c : Nat) (g : Guard) (rd ra rb : BitVec 4) (s : State) : Host.Outcome State Fault Refusal := .next (kerfRR c 1 g minuOf noV rd ra rb s)

/-- MAXU (R200). -/
def execMaxu (c : Nat) (g : Guard) (rd ra rb : BitVec 4) (s : State) : Host.Outcome State Fault Refusal := .next (kerfRR c 1 g maxuOf noV rd ra rb s)

/-- POPC (R200). -/
def execPopc (c : Nat) (g : Guard) (rd ra : BitVec 4) (s : State) : Host.Outcome State Fault Refusal :=
  .next (kerfRI c g (fun a _ => popc a) noV rd ra 0 s)

/-- CLZ (R200). -/
def execClz (c : Nat) (g : Guard) (rd ra : BitVec 4) (s : State) : Host.Outcome State Fault Refusal :=
  .next (kerfRI c g (fun a _ => clz a) noV rd ra 0 s)

/-- ADDI (R200). -/
def execAddi (c : Nat) (g : Guard) (rd ra : BitVec 4) (imm : BitVec 15) (s : State) : Host.Outcome State Fault Refusal :=
  .next (kerfRI c g (fun a i => a + i) addiSetsV rd ra (sx15 imm) s)

/-- ANDI (R200). -/
def execAndi (c : Nat) (g : Guard) (rd ra : BitVec 4) (imm : BitVec 15) (s : State) : Host.Outcome State Fault Refusal :=
  .next (kerfRI c g (fun a i => a &&& i) noV rd ra (zx15 imm) s)

/-- ORI (R200). -/
def execOri (c : Nat) (g : Guard) (rd ra : BitVec 4) (imm : BitVec 15) (s : State) : Host.Outcome State Fault Refusal :=
  .next (kerfRI c g (fun a i => a ||| i) noV rd ra (zx15 imm) s)

/-- XORI (R200). -/
def execXori (c : Nat) (g : Guard) (rd ra : BitVec 4) (imm : BitVec 15) (s : State) : Host.Outcome State Fault Refusal :=
  .next (kerfRI c g (fun a i => a ^^^ i) noV rd ra (zx15 imm) s)

/-- SHLI (R200). -/
def execShli (c : Nat) (g : Guard) (rd ra : BitVec 4) (sh : BitVec 6) (s : State) : Host.Outcome State Fault Refusal :=
  .next (kerfRI c g (fun a i => a <<< shiftOf i) noV rd ra (sh.zeroExtend 64) s)

/-- SHRI (R200). -/
def execShri (c : Nat) (g : Guard) (rd ra : BitVec 4) (sh : BitVec 6) (s : State) : Host.Outcome State Fault Refusal :=
  .next (kerfRI c g (fun a i => a >>> shiftOf i) noV rd ra (sh.zeroExtend 64) s)

/-- SARI (R200). -/
def execSari (c : Nat) (g : Guard) (rd ra : BitVec 4) (sh : BitVec 6) (s : State) : Host.Outcome State Fault Refusal :=
  .next (kerfRI c g (fun a i => a.sshiftRight (shiftOf i)) noV rd ra (sh.zeroExtend 64) s)

/-- MOVI (R200). -/
def execMovi (c : Nat) (g : Guard) (rd : BitVec 4) (imm : BitVec 15) (s : State) : Host.Outcome State Fault Refusal :=
  .next (kerfRI c g (fun _ i => i) noV rd 0 (sx15 imm) s)

/-- MOVK (R200): the register is both source and destination. -/
def execMovk (c : Nat) (g : Guard) (rd : BitVec 4) (hw : BitVec 2) (imm : BitVec 16) (s : State) : Host.Outcome State Fault Refusal :=
  .next (kerfRI c g (fun d _ => movkOf d hw imm) noV rd rd 0 s)

/-- BEXT (R200). -/
def execBext (c : Nat) (g : Guard) (rd ra : BitVec 4) (pos lenm1 : BitVec 6) (s : State) : Host.Outcome State Fault Refusal :=
  .next (kerfRI c g (fun a _ => bextOf a pos.toNat lenm1.toNat) noV rd ra 0 s)

/-- BINS (R200): the register is both source and destination. -/
def execBins (c : Nat) (g : Guard) (rd ra : BitVec 4) (pos lenm1 : BitVec 6) (s : State) : Host.Outcome State Fault Refusal :=
  .next (kerfRR c 1 g (fun d a => binsOf d a pos.toNat lenm1.toNat) noV rd rd ra s)

/-- An instruction that writes a predicate; a warden core traps a write of p0 as ILLEGAL (R199, R225). -/
def kerfPred (c : Nat) (g : Guard) (pd : BitVec 2) (f : KCore → Bool) (s : State) : State :=
  kerfRegs c 1 g (decide (pd = 0)) (fun x => x.setPred pd (f x)) s

/-- CMP (R199, R200). -/
def execCmp (c : Nat) (g : Guard) (pd : BitVec 2) (ra rb : BitVec 4) (cond : Cond) (s : State) : Host.Outcome State Fault Refusal :=
  .next (kerfPred c g pd (fun x => Cond.holds cond (x.reg ra) (x.reg rb)) s)

/-- CMPI (R199, R200). -/
def execCmpi (c : Nat) (g : Guard) (pd : BitVec 2) (cond : Cond) (ra : BitVec 4) (imm : BitVec 14) (s : State) : Host.Outcome State Fault Refusal :=
  .next (kerfPred c g pd (fun x => Cond.holds cond (x.reg ra) (imm.signExtend 64)) s)

/-- PSET (R199, R200). -/
def execPset (c : Nat) (g : Guard) (pd pa pb : BitVec 2) (fn : PsetFn) (s : State) : Host.Outcome State Fault Refusal :=
  .next (kerfPred c g pd (fun x => PsetFn.apply fn (x.pred pa) (x.pred pb)) s)

/-- CLRV (R190). -/
def execClrv (c : Nat) (g : Guard) (s : State) : Host.Outcome State Fault Refusal := .next (kerfRegs c 1 g false (fun x => { x with v := false }) s)

/-- The special value that a selector of MFS names in an invocation on a data-profile core (R200). -/
def dataSpecial (x : KCore) (v : Invocation) (k sel : Nat) : Nat :=
  match sel with
  | 0 => v.items.length
  | 1 => loopIndex x false
  | 2 => loopIndex x true
  | 3 => v.time
  | 4 => b2n x.v
  | 5 => v.slot
  | 6 => v.entry
  | _ => k

/-- The special value of MFS on a warden core: selectors 3, 4 and 7; the others read 0 (R221, log entry 47). -/
def wardenSpecial (c : Chip) (w sel : Nat) : Nat :=
  match sel with
  | 3 => c.stamp
  | 4 => b2n (c.warden w).core.v
  | 7 => 40 + w
  | _ => 0

/-- MFS (R200, R221). -/
def execMfs (c : Nat) (g : Guard) (rd : BitVec 4) (sel : BitVec 3) (s : State) : Host.Outcome State Fault Refusal :=
  .next (if c < 40 then dataRun c 1 g (fun x v => .next (x.setReg rd (BitVec.ofNat 64 (dataSpecial x v c sel.toNat))) v) s
    else wardenRegs (c - 40) g false (fun x => x.setReg rd (BitVec.ofNat 64 (wardenSpecial s.chip (c - 40) sel.toNat))) s)

/-- BR (R202). -/
def execBr (c : Nat) (g : Guard) (off : BitVec 10) (s : State) : Host.Outcome State Fault Refusal :=
  .next (if c < 40 then dataRun c 1 g (fun x v => .jump (x.goTo 1 (x.pc + off.toNat)) v) s
    else wardenRun (c - 40) g false anyLevel (fun t =>
      let x := t.chip.warden (c - 40)
      t.putWarden (c - 40) (x.goTo (x.core.pc + 4 * off.toNat))) s)

/-- No guard: LOOP has none (R198). -/
def Guard.always : Guard := ⟨0, false⟩

/-- LOOP (R201): 2 cycles, and the cycle of the first iteration where the body runs (R200). -/
def execLoop (c : Nat) (rc : BitVec 4) (maxm1 : BitVec 9) (len : BitVec 10) (s : State) : Host.Outcome State Fault Refusal :=
  .next (if c < 40 then
      dataRun c 2 Guard.always (fun x v =>
        .jump (x.enterLoop 1 rc maxm1 len) { v with cycles := v.cycles + (if loopCount x rc maxm1 = 0 then 0 else 1) }) s
    else wardenRun (c - 40) Guard.always false anyLevel (fun t =>
      let x := t.chip.warden (c - 40)
      t.putWarden (c - 40) { x with core := x.core.enterLoop 4 rc maxm1 len }) s)

end Sys2Proof.Machine
end

