-- ==== Sys2Proof/Machine/KerfMem.lean ====
section
/-! DEFINITION. Loads and stores of the Kerf cores: the data areas of an invocation, and control space on a warden core (R195, R196, R221, R226). -/

namespace Sys2Proof.Machine

/-! The data areas (R195, R196). -/

/-- An area of the data space of an invocation: its first address, its size, and its bytes. -/
inductive Area where
  | scratch
  | consts
  | items
  | state
  deriving DecidableEq, Repr

/-- First address and first address past an area (R195). -/
def Area.range : Area → Nat × Nat
  | .scratch => (0, 0x1000)
  | .consts => (0x1000, 0x2000)
  | .items => (0x2000, 0x2400)
  | .state => (0x2400, 0x2500)

/-- The area in which an aligned access lies wholly; none traps with KT_ADDR (R196). -/
def areaOf (a width : Nat) : Option Area :=
  if a % width ≠ 0 then none
  else [Area.scratch, .consts, .items, .state].find? (fun x => decide (x.range.1 ≤ a) && decide (a + width ≤ x.range.2))

/-- The bytes of an area other than scratch. -/
def Chip.areaBytes (c : Chip) (v : Invocation) : Area → List Byte
  | .scratch => []
  | .consts => ((c.slotProg v.slot).map (fun p => p.consts)).getD []
  | .items => v.table
  | .state => v.snap

/-- The value of a load from an area. -/
def Chip.areaLoad (c : Chip) (v : Invocation) (x : Area) (a width : Nat) : Nat :=
  match x with
  | .scratch => Mem.readLe v.scratch a width
  | y => leNat (sliceBytes (c.areaBytes v y) (a - y.range.1) width)

/-- A load of a data-profile core (R196). -/
def dataLoad (c : Chip) (rd ra : BitVec 4) (imm : BitVec 15) (width : Nat) (x : KCore) (v : Invocation) : KOut :=
  let a := x.ea ra imm
  match areaOf a width with
  | none => .trap 0x80
  | some y => .next (x.setReg rd (BitVec.ofNat 64 (c.areaLoad v y a width))) v

/-- A store of a data-profile core (R196): to scratch alone. -/
def dataStore (rd ra : BitVec 4) (imm : BitVec 15) (width : Nat) (x : KCore) (v : Invocation) : KOut :=
  let a := x.ea ra imm
  match areaOf a width with
  | none => .trap 0x80
  | some .scratch => .next x { v with scratch := Mem.writeLe v.scratch a width (x.reg rd).toNat }
  | some _ => .trap 0x81

/-! Control space (R221, R226). -/

/-- The data checks of R226 that a core makes before an access leaves it: ALIGN and MPU. -/
def dataTrap (x : WardenCore) (kinds : List Nat) (a width : Nat) : Option Nat :=
  if 2 ^ 32 ≤ a ∨ a % width ≠ 0 ∨ (a < 0x20000000 ∧ width ≠ 4) then some 3
  else if kinds.any (fun k => !x.grants k a) then some 4
  else none

/-- A load of a warden core. -/
def wardenLoad (w : Nat) (rd ra : BitVec 4) (imm : BitVec 15) (width : Nat) (t : State) : State :=
  let x := t.chip.warden w
  let a := x.core.ea ra imm
  match dataTrap x [mpuR] a width with
  | some cause => t.trap w cause (some a) false
  | none =>
    match busRead ⟨w, x.secure⟩ a width t with
    | .ok v u => u.putWarden w ((u.chip.warden w).setReg rd (BitVec.ofNat 64 v)).advance
    | .bus l => t.trap w 5 (some a) l
    | .stall => t

/-- A store of a warden core. The core has gone on when the store acts, so that a reset the store starts is the last thing that happens to the core. -/
def wardenStore (w : Nat) (rd ra : BitVec 4) (imm : BitVec 15) (width : Nat) (t : State) : State :=
  let x := t.chip.warden w
  let a := x.core.ea ra imm
  match dataTrap x [mpuW] a width with
  | some cause => t.trap w cause (some a) false
  | none =>
    match busWrite ⟨w, x.secure⟩ a width ((x.core.reg rd).toNat % 2 ^ (8 * width)) (t.putWarden w x.advance) with
    | .ok _ u => u
    | .bus l => t.trap w 5 (some a) l
    | .stall => t

/-! Both profiles. -/

/-- A load of a width. -/
def kerfLoad (c : Nat) (g : Guard) (rd ra : BitVec 4) (imm : BitVec 15) (width : Nat) (s : State) : State :=
  if c < 40 then dataRun c 2 g (dataLoad s.chip rd ra imm width) s else wardenRun (c - 40) g false anyLevel (wardenLoad (c - 40) rd ra imm width) s

/-- A store of a width. -/
def kerfStore (c : Nat) (g : Guard) (rd ra : BitVec 4) (imm : BitVec 15) (width : Nat) (s : State) : State :=
  if c < 40 then dataRun c 1 g (dataStore rd ra imm width) s else wardenRun (c - 40) g false anyLevel (wardenStore (c - 40) rd ra imm width) s

/-- LDB (R196, R221). -/
def execLdb (c : Nat) (g : Guard) (rd ra : BitVec 4) (imm : BitVec 15) (s : State) : Host.Outcome State Fault Refusal := .next (kerfLoad c g rd ra imm 1 s)

/-- LDH (R196, R221). -/
def execLdh (c : Nat) (g : Guard) (rd ra : BitVec 4) (imm : BitVec 15) (s : State) : Host.Outcome State Fault Refusal := .next (kerfLoad c g rd ra imm 2 s)

/-- LDW (R196, R221). -/
def execLdw (c : Nat) (g : Guard) (rd ra : BitVec 4) (imm : BitVec 15) (s : State) : Host.Outcome State Fault Refusal := .next (kerfLoad c g rd ra imm 4 s)

/-- LDD (R196, R221). -/
def execLdd (c : Nat) (g : Guard) (rd ra : BitVec 4) (imm : BitVec 15) (s : State) : Host.Outcome State Fault Refusal := .next (kerfLoad c g rd ra imm 8 s)

/-- STB (R196, R221). -/
def execStb (c : Nat) (g : Guard) (rd ra : BitVec 4) (imm : BitVec 15) (s : State) : Host.Outcome State Fault Refusal := .next (kerfStore c g rd ra imm 1 s)

/-- STH (R196, R221). -/
def execSth (c : Nat) (g : Guard) (rd ra : BitVec 4) (imm : BitVec 15) (s : State) : Host.Outcome State Fault Refusal := .next (kerfStore c g rd ra imm 2 s)

/-- STW (R196, R221). -/
def execStw (c : Nat) (g : Guard) (rd ra : BitVec 4) (imm : BitVec 15) (s : State) : Host.Outcome State Fault Refusal := .next (kerfStore c g rd ra imm 4 s)

/-- STD (R196, R221). -/
def execStd (c : Nat) (g : Guard) (rd ra : BitVec 4) (imm : BitVec 15) (s : State) : Host.Outcome State Fault Refusal := .next (kerfStore c g rd ra imm 8 s)

end Sys2Proof.Machine
end

