-- ==== Sys2Proof/Machine/KerfControl.lean ====
section
/-! DEFINITION. The instructions of the control profile (R222-R228). -/

namespace Sys2Proof.Machine

/-- Changes the running warden core. -/
def onWarden (f : WardenCore → WardenCore) (w : Nat) (t : State) : State := t.putWarden w (f (t.chip.warden w))

/-- A jump of SOFF23 instructions (R222). -/
def WardenCore.jump (x : WardenCore) (off : BitVec 23) : WardenCore :=
  x.goTo ((BitVec.ofNat 32 x.core.pc + 4 * off.signExtend 32).toNat)

/-- JMP (R222). -/
def execJmp (c : Nat) (g : Guard) (off : BitVec 23) (s : State) : Host.Outcome State Fault Refusal :=
  .next (controlOnly c g false anyLevel (onWarden (fun x => x.jump off)) s)

/-- CALL (R222). -/
def execCall (c : Nat) (g : Guard) (off : BitVec 23) (s : State) : Host.Outcome State Fault Refusal :=
  .next (controlOnly c g false anyLevel (onWarden (fun x => (x.setReg 15 (BitVec.ofNat 64 ((x.core.pc + 4) % 2 ^ 32))).jump off)) s)

/-- JR (R222). A misaligned target traps at the fetch. -/
def execJr (c : Nat) (g : Guard) (ra : BitVec 4) (s : State) : Host.Outcome State Fault Refusal :=
  .next (controlOnly c g false anyLevel (onWarden (fun x => x.goTo (x.core.reg ra).toNat)) s)

/-! Control registers (R224). -/

/-- The table of R224 lists the CSR number, or it is a normal-world copy of a banked one. -/
def csrListed (n : Nat) : Bool :=
  csrBanked n || [0x10, 0x11, 0x12, 0x30, 0x31, 0x32, 0x40].contains n || (decide (0x100 ≤ n) && csrBanked (n - 0x100))

/-- The level and world refuse the access: at thread level all but reads of TIME, CORE and ROLE, in the normal world the copies from 0x100 on. -/
def csrPriv (n : Nat) (write : Bool) (x : WardenCore) : Bool :=
  (x.thread && (write || !([0x10, 0x11, 0x12].contains n))) || (!x.secure && decide (0x100 ≤ n))

/-- The value that MFC reads, and the effect of the read: of ICLAIM, a claim (R224, R477). IEOI and HBEAT are write-only and read 0. -/
def csrRead (w n : Nat) (t : State) : Nat × State :=
  let x := t.chip.warden w
  if n = 0 then (x.wstat, t)
  else if 0x100 ≤ n then (x.csrOf false (n - 0x100), t)
  else if n = 0x10 then (t.chip.stamp, t)
  else if n = 0x11 then (40 + w, t)
  else if n = 0x12 then (b2n (!t.chip.isActive w), t)
  else if n = 0x30 then
    let (v, c) := t.chip.iclaim w
    (v, { t with chip := c })
  else if n = 0x31 ∨ n = 0x40 then (0, t)
  else (x.csrOf x.secure n, t)

/-- A control register with its writable bits replaced. -/
def WardenCore.putCsr (x : WardenCore) (secure : Bool) (n v : Nat) : WardenCore :=
  let old := x.csrOf secure n
  x.setCsr secure n ((old - (old &&& csrMask n)) + (v &&& csrMask n))

/-- What MTC does with a value (R224, R234, R477). -/
def csrWrite (w n v : Nat) (t : State) : State :=
  let x := t.chip.warden w
  if 0x100 ≤ n then t.putWarden w (x.putCsr false (n - 0x100) v)
  else if n = 0x10 ∨ n = 0x11 ∨ n = 0x12 ∨ n = 0x30 then t
  else if n = 0x31 then { t with chip := t.chip.ieoi w v }
  else if n = 0x40 then t.putWarden w { x with beat := t.chip.tick }
  else t.putWarden w (x.putCsr x.secure n v)

/-- MFC (R222, R224). -/
def execMfc (c : Nat) (g : Guard) (rd : BitVec 4) (csr : BitVec 12) (s : State) : Host.Outcome State Fault Refusal :=
  .next (controlOnly c g (!csrListed csr.toNat) (csrPriv csr.toNat false) (fun w t =>
    let (v, u) := csrRead w csr.toNat t
    u.putWarden w ((u.chip.warden w).setReg rd (BitVec.ofNat 64 v)).advance) s)

/-- MTC (R222, R224). -/
def execMtc (c : Nat) (g : Guard) (ra : BitVec 4) (csr : BitVec 12) (s : State) : Host.Outcome State Fault Refusal :=
  .next (controlOnly c g (!csrListed csr.toNat) (csrPriv csr.toNat true) (fun w t =>
    let v := ((t.chip.warden w).core.reg ra).toNat
    onWarden (fun x => x.advance) w (csrWrite w csr.toNat v t)) s)

/-! Worlds (R228). -/

/-- WCALL from the normal world (R227, R228): the secure world is entered at VBASE + 0x080, k1-k15 as they are; EPC is the next instruction. -/
def WardenCore.wcall (x : WardenCore) (svc : Nat) : WardenCore :=
  let y := x.leave
  { y with secure := true }.enter x.wstat ((x.core.pc + 4) % 2 ^ 32) (8 + svc * 256) 0x80 none

/-- WCALL (R222, R228): ILLEGAL in the secure world. -/
def execWcall (c : Nat) (g : Guard) (svc : BitVec 15) (s : State) : Host.Outcome State Fault Refusal :=
  .next (controlOnly c g false anyLevel (fun w t =>
    if (t.chip.warden w).secure then t.trap w 1 none false else onWarden (fun x => x.wcall svc.toNat) w t) s)

/-- ERET would enter the secure world from the normal one (R228). -/
def WardenCore.eretPriv (x : WardenCore) : Bool := !x.secure && bitOf (x.csrOf false 4) 0

/-- ERET (R228): WSTAT comes from ESTAT and the pc from EPC; with SHADOW, the shadow comes back, and its bit goes (log entry 46). -/
def WardenCore.eret (x : WardenCore) : WardenCore :=
  let st := x.csrOf x.secure 4
  let epc := x.csrOf x.secure 1
  let y := if bitOf st 3 then x.fromShadow else x
  let z := y.leave
  let q := { z with
    secure := bitOf st 0
    thread := !bitOf st 1 }
  (q.setCsr q.secure 0 (st % 8)).goTo epc

/-- ERET (R222, R228). -/
def execEret (c : Nat) (g : Guard) (s : State) : Host.Outcome State Fault Refusal :=
  .next (controlOnly c g false (fun x => x.eretPriv) (onWarden (fun x => x.eret)) s)

/-- WFI (R222): PRIV at thread level. The core goes on at the next instruction once an interrupt is pending for it. -/
def execWfi (c : Nat) (g : Guard) (s : State) : Host.Outcome State Fault Refusal :=
  .next (controlOnly c g false (fun x => x.thread) (onWarden (fun x => { x.advance with waiting := true })) s)

/-- FENCE (R222): accesses complete in order, so the core goes on. -/
def execFence (c : Nat) (g : Guard) (s : State) : Host.Outcome State Fault Refusal :=
  .next (controlOnly c g false anyLevel (onWarden (fun x => x.advance)) s)

/-! CAS (R222). -/

/-- CAS on a core: 8 bytes at k[RA], in one access. -/
def casRun (rd ra rb : BitVec 4) (w : Nat) (t : State) : State :=
  let x := t.chip.warden w
  let a := (x.core.reg ra).toNat
  let acc : Access := ⟨w, x.secure⟩
  match dataTrap x [mpuR, mpuW] a 8 with
  | some cause => t.trap w cause (some a) false
  | none =>
    match busRead acc a 8 t with
    | .ok v u =>
      let done := u.putWarden w (x.setReg rd (BitVec.ofNat 64 v)).advance
      if BitVec.ofNat 64 v ≠ x.core.reg rd then done
      else
        match busWrite acc a 8 (x.core.reg rb).toNat done with
        | .ok _ r => r
        | .bus l => t.trap w 5 (some a) l
        | .stall => t
    | .bus l => t.trap w 5 (some a) l
    | .stall => t

/-- CAS (R222). -/
def execCas (c : Nat) (g : Guard) (rd ra rb : BitVec 4) (s : State) : Host.Outcome State Fault Refusal :=
  .next (controlOnly c g false anyLevel (casRun rd ra rb) s)

end Sys2Proof.Machine
end

