-- ==== Sys2Proof/Machine/KerfEffects.lean ====
section
/-! DEFINITION. The effect instructions of the data profile, EXIT and ABORT (R203, R206-R210). Each effect records a choice against one item. -/

namespace Sys2Proof.Machine

/-- The index that k[RI] names; none traps with KT_ITEM (R200). -/
def itemAt (x : KCore) (v : Invocation) (ri : BitVec 4) : Option Nat :=
  if (x.reg ri).toNat < v.items.length then some (x.reg ri).toNat else none

/-- An effect on the item k[RI] names (R203): the last of a kind stays. -/
def effectRun (ri : BitVec 4) (f : ItemFx → ItemFx) (x : KCore) (v : Invocation) : KOut :=
  match itemAt x v ri with
  | none => .trap 0x82
  | some i => .next x { v with fx := updateAt v.fx i f }

/-- SADD (R208): the add is recorded, and takes effect at the commit. -/
def saddRun (rd ra : BitVec 4) (imm : BitVec 15) (x : KCore) (v : Invocation) : KOut :=
  let a := x.ea ra imm
  if areaOf a 8 = some .state then .next x { v with adds := v.adds ++ [(a - 0x2400, x.reg rd)] } else .trap 0x80

/-- EMIT (R210): 24 bytes of scratch are captured as they stand; a 33rd traps (R207). -/
def emitRun (ri ra : BitVec 4) (x : KCore) (v : Invocation) : KOut :=
  let a := (x.reg ra).toNat
  match itemAt x v ri with
  | none => .trap 0x82
  | some i =>
    if a % 8 ≠ 0 ∨ 0x1000 < a + 24 then .trap 0x80
    else if 32 ≤ v.emits.length then .trap 0x83
    else .next x { v with emits := v.emits ++ [(i, Mem.readBytes v.scratch a 24)] }

/-- SADD (R208). -/
def execSadd (c : Nat) (g : Guard) (rd ra : BitVec 4) (imm : BitVec 15) (s : State) : Host.Outcome State Fault Refusal :=
  .next (dataOnly c 2 g (saddRun rd ra imm) s)

/-- EMIT (R210). -/
def execEmit (c : Nat) (g : Guard) (ri ra : BitVec 4) (s : State) : Host.Outcome State Fault Refusal := .next (dataOnly c 16 g (emitRun ri ra) s)

/-- FAIL (R203). -/
def execFail (c : Nat) (g : Guard) (ri : BitVec 4) (reason : BitVec 6) (s : State) : Host.Outcome State Fault Refusal :=
  .next (dataOnly c 2 g (effectRun ri (fun f => { f with fail := some reason.toNat })) s)

/-- UNDO (R203). -/
def execUndo (c : Nat) (g : Guard) (ri : BitVec 4) (s : State) : Host.Outcome State Fault Refusal :=
  .next (dataOnly c 4 g (effectRun ri (fun f => { f with undo := true })) s)

/-- SHUF (R203). -/
def execShuf (c : Nat) (g : Guard) (ri : BitVec 4) (bits : BitVec 8) (s : State) : Host.Outcome State Fault Refusal :=
  .next (dataOnly c 4 g (effectRun ri (fun f => { f with shuf := some bits.toNat })) s)

/-- SQZ (R203). -/
def execSqz (c : Nat) (g : Guard) (ri : BitVec 4) (level : BitVec 2) (s : State) : Host.Outcome State Fault Refusal :=
  .next (dataOnly c 4 g (effectRun ri (fun f => { f with sqz := some level.toNat })) s)

/-- XTS (R203). -/
def execXts (c : Nat) (g : Guard) (ri : BitVec 4) (key : BitVec 4) (s : State) : Host.Outcome State Fault Refusal :=
  .next (dataOnly c 4 g (effectRun ri (fun f => { f with xts := some key.toNat })) s)

/-- HASH (R203). -/
def execHash (c : Nat) (g : Guard) (ri : BitVec 4) (s : State) : Host.Outcome State Fault Refusal :=
  .next (dataOnly c 4 g (effectRun ri (fun f => { f with hash := true })) s)

/-- PLACE (R203). -/
def execPlace (c : Nat) (g : Guard) (ri : BitVec 4) (evid : Bool) (s : State) : Host.Outcome State Fault Refusal :=
  .next (dataOnly c 4 g (effectRun ri (fun f => { f with evid := evid })) s)

/-- TAG (R203, R209): the low 32 bits of k[RA]. -/
def execTag (c : Nat) (g : Guard) (ri ra : BitVec 4) (s : State) : Host.Outcome State Fault Refusal :=
  .next (dataOnly c 4 g (fun x v => effectRun ri (fun f => { f with tags := [(x.reg ra).toNat % 2 ^ 32] }) x v) s)

/-- EXIT (R206): the invocation commits. -/
def execExit (c : Nat) (g : Guard) (s : State) : Host.Outcome State Fault Refusal := .next (dataOnly c 8 g (fun _ _ => .exit) s)

/-- ABORT (R207): the invocation ends with KT_ABORT. No rule says where its code is kept (log entry 48). -/
def execAbort (c : Nat) (g : Guard) (_code : BitVec 6) (s : State) : Host.Outcome State Fault Refusal := .next (dataOnly c 1 g (fun _ _ => .trap 0x84) s)

end Sys2Proof.Machine
end

