-- ==== Sys2Proof/Machine/Dispatch.lean ====
section
/-! DEFINITION. One arm per command: the meaning it calls. -/

namespace Sys2Proof.Machine

def exec (i : Instr) (s : State) : Host.Outcome State Fault Refusal :=
  match i with
  | .tickBoundary => Sys2Proof.Machine.execTickBoundary s
  | .commitWrite acc blk => Sys2Proof.Machine.execCommitWrite acc blk s
  | .registerWrite acc addr v => Sys2Proof.Machine.execRegisterWrite acc addr v s
  | .clearOnRead acc addr => Sys2Proof.Machine.execClearOnRead acc addr s
  | .reg64LowRead acc addr => Sys2Proof.Machine.execReg64LowRead acc addr s
  | .reg64HighWrite acc addr v => Sys2Proof.Machine.execReg64HighWrite acc addr v s
  | .reg64LowWrite acc addr v => Sys2Proof.Machine.execReg64LowWrite acc addr v s
  | .busErrorAccess acc addr width wr => Sys2Proof.Machine.execBusErrorAccess acc addr width wr s
  | .absentUnitAccess acc addr wr => Sys2Proof.Machine.execAbsentUnitAccess acc addr wr s
  | .debugWindowAccess addr width wr => Sys2Proof.Machine.execDebugWindowAccess addr width wr s
  | .planCommit cycle => Sys2Proof.Machine.execPlanCommit cycle s
  | .planAbandon => Sys2Proof.Machine.execPlanAbandon s
  | .shedStart => Sys2Proof.Machine.execShedStart s
  | .shedEnd => Sys2Proof.Machine.execShedEnd s
  | .arrayReadEnd die => Sys2Proof.Machine.execArrayReadEnd die s
  | .suspendDone die => Sys2Proof.Machine.execSuspendDone die s
  | .resumeDone die => Sys2Proof.Machine.execResumeDone die s
  | .lockEnd die => Sys2Proof.Machine.execLockEnd die s
  | .statusPoll die status => Sys2Proof.Machine.execStatusPoll die status s
  | .collectorGrant => Sys2Proof.Machine.execCollectorGrant s
  | .completionCollected => Sys2Proof.Machine.execCompletionCollected s
  | .dieTimeout die => Sys2Proof.Machine.execDieTimeout die s
  | .readAccept item => Sys2Proof.Machine.execReadAccept item s
  | .dieBusyPost item => Sys2Proof.Machine.execDieBusyPost item s
  | .reconstructXor job crcOk => Sys2Proof.Machine.execReconstructXor job crcOk s
  | .calAdmitTest nsid q nowait modes cls => Sys2Proof.Machine.execCalAdmitTest nsid q nowait modes cls s
  | .calAdmitBind nsid q nowait modes cls => Sys2Proof.Machine.execCalAdmitBind nsid q nowait modes cls s
  | .calAdmitRelease nsid => Sys2Proof.Machine.execCalAdmitRelease nsid s
  | .calFloorWrite acc v => Sys2Proof.Machine.execCalFloorWrite acc v s
  | .calNrgBudgetWrite acc v => Sys2Proof.Machine.execCalNrgBudgetWrite acc v s
  | .calMaintRead die planes ahead exact buf => Sys2Proof.Machine.execCalMaintRead die planes ahead exact buf s
  | .calMaintErase die planes ahead exact => Sys2Proof.Machine.execCalMaintErase die planes ahead exact s
  | .calMaintMaintenance die planes ahead exact buf => Sys2Proof.Machine.execCalMaintMaintenance die planes ahead exact buf s
  | .calDbgSelWrite acc v => Sys2Proof.Machine.execCalDbgSelWrite acc v s
  | .chStart n => Sys2Proof.Machine.execChStart n s
  | .bringupEnd n best => Sys2Proof.Machine.execBringupEnd n best s
  | .bringupTimeout n => Sys2Proof.Machine.execBringupTimeout n s
  | .chFence n => Sys2Proof.Machine.execChFence n s
  | .codewordDecode job sect out => Sys2Proof.Machine.execCodewordDecode job sect out s
  | .rewriteQueuePop acc c => Sys2Proof.Machine.execRewriteQueuePop acc c s
  | .decLaneFence c mask => Sys2Proof.Machine.execDecLaneFence c mask s
  | .firstSampleScan cord cblk => Sys2Proof.Machine.execFirstSampleScan cord cblk s
  | .patrolRead cord cblk member => Sys2Proof.Machine.execPatrolRead cord cblk member s
  | .groupPad grp => Sys2Proof.Machine.execGroupPad grp s
  | .pageLoss grp row slot plane => Sys2Proof.Machine.execPageLoss grp row slot plane s
  | .pageRebuildDone grp row => Sys2Proof.Machine.execPageRebuildDone grp row s
  | .mapFetchDone page => Sys2Proof.Machine.execMapFetchDone page s
  | .mapPin nsid => Sys2Proof.Machine.execMapPin nsid s
  | .mapUnpin nsid => Sys2Proof.Machine.execMapUnpin nsid s
  | .gcMoveCommit nsx ltag victim => Sys2Proof.Machine.execGcMoveCommit nsx ltag victim s
  | .refreshMove cord cblk bad => Sys2Proof.Machine.execRefreshMove cord cblk bad s
  | .bbtRead idx => Sys2Proof.Machine.execBbtRead idx s
  | .bbtAdd w0 w1 w2 w3 => Sys2Proof.Machine.execBbtAdd w0 w1 w2 w3 s
  | .bbtRemove idx => Sys2Proof.Machine.execBbtRemove idx s
  | .invocationDispatch c slot entry items => Sys2Proof.Machine.execInvocationDispatch c slot entry items s
  | .invocationBudgetOverrun c => Sys2Proof.Machine.execInvocationBudgetOverrun c s
  | .nop c g => Sys2Proof.Machine.execNop c g s
  | .add c g rd ra rb => Sys2Proof.Machine.execAdd c g rd ra rb s
  | .sub c g rd ra rb => Sys2Proof.Machine.execSub c g rd ra rb s
  | .mul c g rd ra rb => Sys2Proof.Machine.execMul c g rd ra rb s
  | .and c g rd ra rb => Sys2Proof.Machine.execAnd c g rd ra rb s
  | .or c g rd ra rb => Sys2Proof.Machine.execOr c g rd ra rb s
  | .xor c g rd ra rb => Sys2Proof.Machine.execXor c g rd ra rb s
  | .shl c g rd ra rb => Sys2Proof.Machine.execShl c g rd ra rb s
  | .shr c g rd ra rb => Sys2Proof.Machine.execShr c g rd ra rb s
  | .sar c g rd ra rb => Sys2Proof.Machine.execSar c g rd ra rb s
  | .minu c g rd ra rb => Sys2Proof.Machine.execMinu c g rd ra rb s
  | .maxu c g rd ra rb => Sys2Proof.Machine.execMaxu c g rd ra rb s
  | .popc c g rd ra => Sys2Proof.Machine.execPopc c g rd ra s
  | .clz c g rd ra => Sys2Proof.Machine.execClz c g rd ra s
  | .addi c g rd ra imm => Sys2Proof.Machine.execAddi c g rd ra imm s
  | .andi c g rd ra imm => Sys2Proof.Machine.execAndi c g rd ra imm s
  | .ori c g rd ra imm => Sys2Proof.Machine.execOri c g rd ra imm s
  | .xori c g rd ra imm => Sys2Proof.Machine.execXori c g rd ra imm s
  | .shli c g rd ra sh => Sys2Proof.Machine.execShli c g rd ra sh s
  | .shri c g rd ra sh => Sys2Proof.Machine.execShri c g rd ra sh s
  | .sari c g rd ra sh => Sys2Proof.Machine.execSari c g rd ra sh s
  | .movi c g rd imm => Sys2Proof.Machine.execMovi c g rd imm s
  | .movk c g rd hw imm => Sys2Proof.Machine.execMovk c g rd hw imm s
  | .bext c g rd ra pos lenm1 => Sys2Proof.Machine.execBext c g rd ra pos lenm1 s
  | .bins c g rd ra pos lenm1 => Sys2Proof.Machine.execBins c g rd ra pos lenm1 s
  | .cmp c g pd ra rb cond => Sys2Proof.Machine.execCmp c g pd ra rb cond s
  | .cmpi c g pd cond ra imm => Sys2Proof.Machine.execCmpi c g pd cond ra imm s
  | .pset c g pd pa pb fn => Sys2Proof.Machine.execPset c g pd pa pb fn s
  | .ldb c g rd ra imm => Sys2Proof.Machine.execLdb c g rd ra imm s
  | .ldh c g rd ra imm => Sys2Proof.Machine.execLdh c g rd ra imm s
  | .ldw c g rd ra imm => Sys2Proof.Machine.execLdw c g rd ra imm s
  | .ldd c g rd ra imm => Sys2Proof.Machine.execLdd c g rd ra imm s
  | .stb c g rd ra imm => Sys2Proof.Machine.execStb c g rd ra imm s
  | .sth c g rd ra imm => Sys2Proof.Machine.execSth c g rd ra imm s
  | .stw c g rd ra imm => Sys2Proof.Machine.execStw c g rd ra imm s
  | .std c g rd ra imm => Sys2Proof.Machine.execStd c g rd ra imm s
  | .sadd c g rd ra imm => Sys2Proof.Machine.execSadd c g rd ra imm s
  | .emit c g ri ra => Sys2Proof.Machine.execEmit c g ri ra s
  | .fail c g ri reason => Sys2Proof.Machine.execFail c g ri reason s
  | .undo c g ri => Sys2Proof.Machine.execUndo c g ri s
  | .br c g off => Sys2Proof.Machine.execBr c g off s
  | .loop c rc maxm1 len => Sys2Proof.Machine.execLoop c rc maxm1 len s
  | .exit c g => Sys2Proof.Machine.execExit c g s
  | .abort c g code => Sys2Proof.Machine.execAbort c g code s
  | .mfs c g rd sel => Sys2Proof.Machine.execMfs c g rd sel s
  | .clrv c g => Sys2Proof.Machine.execClrv c g s
  | .shuf c g ri bits => Sys2Proof.Machine.execShuf c g ri bits s
  | .sqz c g ri level => Sys2Proof.Machine.execSqz c g ri level s
  | .xts c g ri key => Sys2Proof.Machine.execXts c g ri key s
  | .hash c g ri => Sys2Proof.Machine.execHash c g ri s
  | .place c g ri evid => Sys2Proof.Machine.execPlace c g ri evid s
  | .tag c g ri ra => Sys2Proof.Machine.execTag c g ri ra s
  | .jmp c g off => Sys2Proof.Machine.execJmp c g off s
  | .call c g off => Sys2Proof.Machine.execCall c g off s
  | .jr c g ra => Sys2Proof.Machine.execJr c g ra s
  | .mfc c g rd csr => Sys2Proof.Machine.execMfc c g rd csr s
  | .mtc c g ra csr => Sys2Proof.Machine.execMtc c g ra csr s
  | .wcall c g svc => Sys2Proof.Machine.execWcall c g svc s
  | .eret c g => Sys2Proof.Machine.execEret c g s
  | .wfi c g => Sys2Proof.Machine.execWfi c g s
  | .fence c g => Sys2Proof.Machine.execFence c g s
  | .cas c g rd ra rb => Sys2Proof.Machine.execCas c g rd ra rb s
  | .interruptEntry c => Sys2Proof.Machine.execInterruptEntry c s
  | .krfLoad => Sys2Proof.Machine.execKrfLoad s
  | .krfUnload slot => Sys2Proof.Machine.execKrfUnload slot s
  | .slotDrainDone slot => Sys2Proof.Machine.execSlotDrainDone slot s
  | .krfBind nsx ph slot => Sys2Proof.Machine.execKrfBind nsx ph slot s
  | .krfUnbind nsx ph => Sys2Proof.Machine.execKrfUnbind nsx ph s
  | .krfLookup nsx ph => Sys2Proof.Machine.execKrfLookup nsx ph s
  | .wpCommit c => Sys2Proof.Machine.execWpCommit c s
  | .wpCommitDone p => Sys2Proof.Machine.execWpCommitDone p s
  | .wardenCoreFail c selfCheck => Sys2Proof.Machine.execWardenCoreFail c selfCheck s
  | .mbxPost c => Sys2Proof.Machine.execMbxPost c s
  | .mbxPop c => Sys2Proof.Machine.execMbxPop c s
  | .imageEnvelopeCheck addr => Sys2Proof.Machine.execImageEnvelopeCheck addr s
  | .tfLaneFence g mask => Sys2Proof.Machine.execTfLaneFence g mask s
  | .tqDescriptorFetch g => Sys2Proof.Machine.execTqDescriptorFetch g s
  | .copy g q => Sys2Proof.Machine.execCopy g q s
  | .fill g q => Sys2Proof.Machine.execFill g q s
  | .gather g q => Sys2Proof.Machine.execGather g q s
  | .tqShuf g q => Sys2Proof.Machine.execTqShuf g q s
  | .sqzC g q lane => Sys2Proof.Machine.execSqzC g q lane s
  | .sqzX g q lane => Sys2Proof.Machine.execSqzX g q lane s
  | .xtsE g q => Sys2Proof.Machine.execXtsE g q s
  | .xtsD g q => Sys2Proof.Machine.execXtsD g q s
  | .gcmE g q => Sys2Proof.Machine.execGcmE g q s
  | .gcmD g q => Sys2Proof.Machine.execGcmD g q s
  | .tqHash g q => Sys2Proof.Machine.execTqHash g q s
  | .tqResume g q => Sys2Proof.Machine.execTqResume g q s
  | .hostLinkUp link speed width => Sys2Proof.Machine.execHostLinkUp link speed width s
  | .hostLinkDown link => Sys2Proof.Machine.execHostLinkDown link s
  | .doorbellWrite fn qid isCq val => Sys2Proof.Machine.execDoorbellWrite fn qid isCq val s
  | .cmdFetch sqes => Sys2Proof.Machine.execCmdFetch sqes s
  | .hostDmaFailure what => Sys2Proof.Machine.execHostDmaFailure what s
  | .read cmd nsid slba nlb psdt => Sys2Proof.Machine.execRead cmd nsid slba nlb psdt s
  | .write cmd nsid slba nlb psdt dtype dspec data => Sys2Proof.Machine.execWrite cmd nsid slba nlb psdt dtype dspec data s
  | .flush cmd nsid => Sys2Proof.Machine.execFlush cmd nsid s
  | .writeZeroes cmd nsid slba nlb => Sys2Proof.Machine.execWriteZeroes cmd nsid slba nlb s
  | .datasetManagement cmd nsid ranges => Sys2Proof.Machine.execDatasetManagement cmd nsid ranges s
  | .zoneAppend cmd nsid zslba nlb psdt data => Sys2Proof.Machine.execZoneAppend cmd nsid zslba nlb psdt data s
  | .zoneOpen cmd nsid zslba all => Sys2Proof.Machine.execZoneOpen cmd nsid zslba all s
  | .zoneClose cmd nsid zslba all => Sys2Proof.Machine.execZoneClose cmd nsid zslba all s
  | .zoneFinish cmd nsid zslba all => Sys2Proof.Machine.execZoneFinish cmd nsid zslba all s
  | .zoneReset cmd nsid zslba all => Sys2Proof.Machine.execZoneReset cmd nsid zslba all s
  | .zoneOffline cmd nsid zslba => Sys2Proof.Machine.execZoneOffline cmd nsid zslba s
  | .setZoneDescriptorExt cmd nsid zslba => Sys2Proof.Machine.execSetZoneDescriptorExt cmd nsid zslba s
  | .zoneManagementReceive cmd nsid zslba => Sys2Proof.Machine.execZoneManagementReceive cmd nsid zslba s
  | .invalidOpcode cmd opc => Sys2Proof.Machine.execInvalidOpcode cmd opc s
  | .createIoSq cmd qid size cqid prio contiguous => Sys2Proof.Machine.execCreateIoSq cmd qid size cqid prio contiguous s
  | .createIoCq cmd qid size iv ien contiguous => Sys2Proof.Machine.execCreateIoCq cmd qid size iv ien contiguous s
  | .deleteIoSq cmd qid => Sys2Proof.Machine.execDeleteIoSq cmd qid s
  | .deleteIoCq cmd qid => Sys2Proof.Machine.execDeleteIoCq cmd qid s
  | .getLogPage cmd lid => Sys2Proof.Machine.execGetLogPage cmd lid s
  | .getLogEmitRing cmd lsp len => Sys2Proof.Machine.execGetLogEmitRing cmd lsp len s
  | .identify cmd cns nsid => Sys2Proof.Machine.execIdentify cmd cns nsid s
  | .nvmeAbort cmd sqid cid => Sys2Proof.Machine.execNvmeAbort cmd sqid cid s
  | .setFeatures cmd fid cdw11 save => Sys2Proof.Machine.execSetFeatures cmd fid cdw11 save s
  | .getFeatures cmd fid nsid => Sys2Proof.Machine.execGetFeatures cmd fid nsid s
  | .setFeatureArbitration cmd ab lpw mpw hpw => Sys2Proof.Machine.execSetFeatureArbitration cmd ab lpw mpw hpw s
  | .setFeatureNumberOfQueues cmd nsqr ncqr => Sys2Proof.Machine.execSetFeatureNumberOfQueues cmd nsqr ncqr s
  | .setFeaturePowerManagement cmd ps => Sys2Proof.Machine.execSetFeaturePowerManagement cmd ps s
  | .setFeatureApst cmd apste entries => Sys2Proof.Machine.execSetFeatureApst cmd apste entries s
  | .setFeatureFdp cmd enable => Sys2Proof.Machine.execSetFeatureFdp cmd enable s
  | .setFeatureReadContract cmd nsid cdw11 save => Sys2Proof.Machine.execSetFeatureReadContract cmd nsid cdw11 save s
  | .setFeatureOwnership cmd nsid => Sys2Proof.Machine.execSetFeatureOwnership cmd nsid s
  | .ownershipAutoMove nsid => Sys2Proof.Machine.execOwnershipAutoMove nsid s
  | .ownershipSwap nsid => Sys2Proof.Machine.execOwnershipSwap nsid s
  | .asyncEventRequest cmd => Sys2Proof.Machine.execAsyncEventRequest cmd s
  | .namespaceManagement cmd sel nsid zoned size mode w handles => Sys2Proof.Machine.execNamespaceManagement cmd sel nsid zoned size mode w handles s
  | .namespaceAttachment cmd sel nsid ctrls => Sys2Proof.Machine.execNamespaceAttachment cmd sel nsid ctrls s
  | .firmwareImageDownload cmd off len => Sys2Proof.Machine.execFirmwareImageDownload cmd off len s
  | .firmwareCommit cmd ca fs keyid svn sigOk => Sys2Proof.Machine.execFirmwareCommit cmd ca fs keyid svn sigOk s
  | .formatNvm cmd nsid lbaf ses => Sys2Proof.Machine.execFormatNvm cmd nsid lbaf ses s
  | .formatUnitDone ok => Sys2Proof.Machine.execFormatUnitDone ok s
  | .sanitizeBlockErase cmd => Sys2Proof.Machine.execSanitizeBlockErase cmd s
  | .sanitizeCryptoErase cmd => Sys2Proof.Machine.execSanitizeCryptoErase cmd s
  | .sanitizeExitFailureMode cmd => Sys2Proof.Machine.execSanitizeExitFailureMode cmd s
  | .sanitizeOverwrite cmd => Sys2Proof.Machine.execSanitizeOverwrite cmd s
  | .sanitizeUnitDone ok => Sys2Proof.Machine.execSanitizeUnitDone ok s
  | .nvmeMiSend cmd payload => Sys2Proof.Machine.execNvmeMiSend cmd payload s
  | .nvmeMiReceive cmd payload => Sys2Proof.Machine.execNvmeMiReceive cmd payload s
  | .miRequest tag payload => Sys2Proof.Machine.execMiRequest tag payload s
  | .adminCompletion => Sys2Proof.Machine.execAdminCompletion s
  | .tokenChallenge cmd => Sys2Proof.Machine.execTokenChallenge cmd s
  | .tokenReleaseZone cmd tok => Sys2Proof.Machine.execTokenReleaseZone cmd tok s
  | .tokenEnterHold cmd tok => Sys2Proof.Machine.execTokenEnterHold cmd tok s
  | .tokenLeaveHold cmd tok => Sys2Proof.Machine.execTokenLeaveHold cmd tok s
  | .tokenRetire cmd tok => Sys2Proof.Machine.execTokenRetire cmd tok s
  | .tokenDeploy cmd tok => Sys2Proof.Machine.execTokenDeploy cmd tok s
  | .rawSectorRangeSend cmd nsid payload => Sys2Proof.Machine.execRawSectorRangeSend cmd nsid payload s
  | .rawSectorReceive cmd nsid => Sys2Proof.Machine.execRawSectorReceive cmd nsid s
  | .sealLogSeqSend cmd payload => Sys2Proof.Machine.execSealLogSeqSend cmd payload s
  | .sealLogReceive cmd => Sys2Proof.Machine.execSealLogReceive cmd s
  | .epochKeyObjectReceive cmd => Sys2Proof.Machine.execEpochKeyObjectReceive cmd s
  | .identityChainReceive cmd => Sys2Proof.Machine.execIdentityChainReceive cmd s
  | .dirtyLogReceive cmd fn => Sys2Proof.Machine.execDirtyLogReceive cmd fn s
  | .keyPageGenerateXts cmd payload => Sys2Proof.Machine.execKeyPageGenerateXts cmd payload s
  | .keyPageGenerateGcm cmd payload => Sys2Proof.Machine.execKeyPageGenerateGcm cmd payload s
  | .keyPageErase cmd payload => Sys2Proof.Machine.execKeyPageErase cmd payload s
  | .keyPageRewrite cmd payload => Sys2Proof.Machine.execKeyPageRewrite cmd payload s
  | .securityProtocolInvalid cmd secp => Sys2Proof.Machine.execSecurityProtocolInvalid cmd secp s
  | .fnEnable fn => Sys2Proof.Machine.execFnEnable fn s
  | .fnDisable fn => Sys2Proof.Machine.execFnDisable fn s
  | .fnDrainReset fn => Sys2Proof.Machine.execFnDrainReset fn s
  | .fnSquashReset fn => Sys2Proof.Machine.execFnSquashReset fn s
  | .fnPause fn => Sys2Proof.Machine.execFnPause fn s
  | .fnResume fn => Sys2Proof.Machine.execFnResume fn s
  | .functionLevelReset fn => Sys2Proof.Machine.execFunctionLevelReset fn s
  | .ccEnClear fn => Sys2Proof.Machine.execCcEnClear fn s
  | .shutdownNotification fn => Sys2Proof.Machine.execShutdownNotification fn s
  | .vfEnableChange link vfEnable numVfs => Sys2Proof.Machine.execVfEnableChange link vfEnable numVfs s
  | .functionResetDone fn => Sys2Proof.Machine.execFunctionResetDone fn s
  | .drainTimeout fn => Sys2Proof.Machine.execDrainTimeout fn s
  | .dlogStart slot fn => Sys2Proof.Machine.execDlogStart slot fn s
  | .dlogStop slot => Sys2Proof.Machine.execDlogStop slot s
  | .dlogCut slot => Sys2Proof.Machine.execDlogCut slot s
  | .translationCompletion req res => Sys2Proof.Machine.execTranslationCompletion req res s
  | .translationTimeout req => Sys2Proof.Machine.execTranslationTimeout req s
  | .atsInvalidate fn pasid page pages => Sys2Proof.Machine.execAtsInvalidate fn pasid page pages s
  | .keyGenerateXts page index => Sys2Proof.Machine.execKeyGenerateXts page index s
  | .keyGenerateGcm page index => Sys2Proof.Machine.execKeyGenerateGcm page index s
  | .keyEraseIndex page index => Sys2Proof.Machine.execKeyEraseIndex page index s
  | .keyRewrite page index => Sys2Proof.Machine.execKeyRewrite page index s
  | .keyEraseSlot slot => Sys2Proof.Machine.execKeyEraseSlot slot s
  | .keyReloadPage page => Sys2Proof.Machine.execKeyReloadPage page s
  | .keySlotDrained slot => Sys2Proof.Machine.execKeySlotDrained slot s
  | .keyVaultUpdated => Sys2Proof.Machine.execKeyVaultUpdated s
  | .keyAlarm src => Sys2Proof.Machine.execKeyAlarm src s
  | .keyAnchorWrite acc a v => Sys2Proof.Machine.execKeyAnchorWrite acc a v s
  | .epochStrikePeriodic => Sys2Proof.Machine.execEpochStrikePeriodic s
  | .sealStrikeRequest acc v => Sys2Proof.Machine.execSealStrikeRequest acc v s
  | .epochStrikeRequested => Sys2Proof.Machine.execEpochStrikeRequested s
  | .epochSigned => Sys2Proof.Machine.execEpochSigned s
  | .bufferAlloc kind fn region landing contracted => Sys2Proof.Machine.execBufferAlloc kind fn region landing contracted s
  | .bpmAlloc => Sys2Proof.Machine.execBpmAlloc s
  | .bpmRefTake handle => Sys2Proof.Machine.execBpmRefTake handle s
  | .bpmRefRelease handle => Sys2Proof.Machine.execBpmRefRelease handle s
  | .bufferWindowAccess acc off wr => Sys2Proof.Machine.execBufferWindowAccess acc off wr s
  | .leakAuditSample => Sys2Proof.Machine.execLeakAuditSample s
  | .auditUnfence => Sys2Proof.Machine.execAuditUnfence s
  | .dramCommandSlot sub now arrivals => Sys2Proof.Machine.execDramCommandSlot sub now arrivals s
  | .dramAgePromotion sub now => Sys2Proof.Machine.execDramAgePromotion sub now s
  | .dramRefresh sub bank hot => Sys2Proof.Machine.execDramRefresh sub bank hot s
  | .dramRecalibration sub => Sys2Proof.Machine.execDramRecalibration sub s
  | .dramEccError offset dev dev2 => Sys2Proof.Machine.execDramEccError offset dev dev2 s
  | .frameSlotSend port => Sys2Proof.Machine.execFrameSlotSend port s
  | .frameRetransmit port => Sys2Proof.Machine.execFrameRetransmit port s
  | .frameRxKx h msg frag bytes => Sys2Proof.Machine.execFrameRxKx h msg frag bytes s
  | .frameRxIdle h => Sys2Proof.Machine.execFrameRxIdle h s
  | .frameRxRoot h m => Sys2Proof.Machine.execFrameRxRoot h m s
  | .frameRxTsync h m => Sys2Proof.Machine.execFrameRxTsync h m s
  | .frameRxSvc h m => Sys2Proof.Machine.execFrameRxSvc h m s
  | .boomPortTrained port => Sys2Proof.Machine.execBoomPortTrained port s
  | .boomKeyingDone port node serial fp sigOk => Sys2Proof.Machine.execBoomKeyingDone port node serial fp sigOk s
  | .boomKeyingTimeout port => Sys2Proof.Machine.execBoomKeyingTimeout port s
  | .boomPortRetry port => Sys2Proof.Machine.execBoomPortRetry port s
  | .boomPeerSlow port => Sys2Proof.Machine.execBoomPeerSlow port s
  | .boomPortFence port => Sys2Proof.Machine.execBoomPortFence port s
  | .boomPortUnfence port => Sys2Proof.Machine.execBoomPortUnfence port s
  | .boomBroadcast => Sys2Proof.Machine.execBoomBroadcast s
  | .boomBarrier => Sys2Proof.Machine.execBoomBarrier s
  | .boomSnapshot => Sys2Proof.Machine.execBoomSnapshot s
  | .boomSystemReset => Sys2Proof.Machine.execBoomSystemReset s
  | .systemResetTick => Sys2Proof.Machine.execSystemResetTick s
  | .svcReportTimeout port => Sys2Proof.Machine.execSvcReportTimeout port s
  | .pmuSetState acc ps => Sys2Proof.Machine.execPmuSetState acc ps s
  | .pmuSetCeiling acc pt => Sys2Proof.Machine.execPmuSetCeiling acc pt s
  | .ps3Entry => Sys2Proof.Machine.execPs3Entry s
  | .ps3CommitPoint => Sys2Proof.Machine.execPs3CommitPoint s
  | .ps4Entry => Sys2Proof.Machine.execPs4Entry s
  | .ps4CommitPoint => Sys2Proof.Machine.execPs4CommitPoint s
  | .ps4EntryAbandon => Sys2Proof.Machine.execPs4EntryAbandon s
  | .wakeEvent src => Sys2Proof.Machine.execWakeEvent src s
  | .pmuTimerExpiry => Sys2Proof.Machine.execPmuTimerExpiry s
  | .ps3Exit => Sys2Proof.Machine.execPs3Exit s
  | .ps4Exit => Sys2Proof.Machine.execPs4Exit s
  | .dvfsChange => Sys2Proof.Machine.execDvfsChange s
  | .vddSettled => Sys2Proof.Machine.execVddSettled s
  | .supplyTimeout what => Sys2Proof.Machine.execSupplyTimeout what s
  | .vcorePgLow => Sys2Proof.Machine.execVcorePgLow s
  | .capExceed mw => Sys2Proof.Machine.execCapExceed mw s
  | .refLoss => Sys2Proof.Machine.execRefLoss s
  | .plnNLow => Sys2Proof.Machine.execPlnNLow s
  | .vinTrip => Sys2Proof.Machine.execVinTrip s
  | .landingFlushEnd => Sys2Proof.Machine.execLandingFlushEnd s
  | .railAdcRound samples => Sys2Proof.Machine.execRailAdcRound samples s
  | .siliconModelStep act => Sys2Proof.Machine.execSiliconModelStep act s
  | .sensorRead readings => Sys2Proof.Machine.execSensorRead readings s
  | .sensorCrossCheck => Sys2Proof.Machine.execSensorCrossCheck s
  | .thermalStep => Sys2Proof.Machine.execThermalStep s
  | .powerOn => Sys2Proof.Machine.execPowerOn s
  | .rstNLow => Sys2Proof.Machine.execRstNLow s
  | .rstNHigh => Sys2Proof.Machine.execRstNHigh s
  | .rcuWarm => Sys2Proof.Machine.execRcuWarm s
  | .rcuLifecycle acc => Sys2Proof.Machine.execRcuLifecycle acc s
  | .startUp rep => Sys2Proof.Machine.execStartUp rep s
  | .rcuTickStep acc v => Sys2Proof.Machine.execRcuTickStep acc v s
  | .tickMarkWrite => Sys2Proof.Machine.execTickMarkWrite s
  | .logFlClear acc => Sys2Proof.Machine.execLogFlClear acc s
  | .logFlCurWrite acc v => Sys2Proof.Machine.execLogFlCurWrite acc v s
  | .logTyCurWrite acc v => Sys2Proof.Machine.execLogTyCurWrite acc v s
  | .logCaptureAdvance acc tally => Sys2Proof.Machine.execLogCaptureAdvance acc tally s
  | .tallyPeriodEnd => Sys2Proof.Machine.execTallyPeriodEnd s
  | .tallyRestart => Sys2Proof.Machine.execTallyRestart s
  | .unitSelfCheckFail u => Sys2Proof.Machine.execUnitSelfCheckFail u s
  | .lockstepMismatch b => Sys2Proof.Machine.execLockstepMismatch b s
  | .lockstepRestartDone b => Sys2Proof.Machine.execLockstepRestartDone b s
  | .refRestored => Sys2Proof.Machine.execRefRestored s
  | .powerRecovery => Sys2Proof.Machine.execPowerRecovery s
  | .powerLoss => Sys2Proof.Machine.execPowerLoss s
  | .ccEnSet fn ams asqs acqs => Sys2Proof.Machine.execCcEnSet fn ams asqs acqs s
  | .msixVectorUnmask fn vector => Sys2Proof.Machine.execMsixVectorUnmask fn vector s
  | .boomTrainingTimeout port => Sys2Proof.Machine.execBoomTrainingTimeout port s
  | .lifecycleProvision => Sys2Proof.Machine.execLifecycleProvision s
  | .entropyHealthChange ok => Sys2Proof.Machine.execEntropyHealthChange ok s
  | .packageFault p => Sys2Proof.Machine.execPackageFault p s

end Sys2Proof.Machine
end

