-- ==== Sys2Proof/Safety.lean ====
section
/-! DEFINITION. What a safe run is, and the words in which statements speak of the Kerf cores: when an instruction runs, and where the core goes on. -/

namespace Sys2Proof.Machine

/-- A step that answers a next state. -/
def Steps (s t : State) : Prop := step s = .next t

/-- The command has an effect in this state: it ends neither in a fault nor in a refusal. -/
def Completes (i : Instr) (s : State) : Prop := ∃ t, exec i s = .next t

/-- `P` holds before and after every step that answers a next state. -/
def Invariant (P : State → Prop) : Prop := ∀ s t, P s → Steps s t → P t

/-- A data-profile core is ready for an instruction (R194): `k` names one, it is not fenced, and its invocation `v` has not reached the budget. -/
def DataReady (s : State) (k : Nat) (v : Invocation) : Prop :=
  k < 40 ∧ (s.chip.kcore k).fenced = false ∧ (s.chip.kcore k).inv = some v ∧ v.cycles < 4096

/-- A warden core is ready for an instruction (R222, R226-R228): it is neither fenced nor halted, takes no interrupt first and does not wait any
more, and its fetch traps on nothing. -/
def WardenReady (s : State) (w : Nat) : Prop :=
  w < 8 ∧ (s.chip.warden w).fenced = false ∧ (s.chip.warden w).halted = false ∧
    ((s.chip.warden w).waiting = false ∨ s.chip.wakes w = true) ∧ s.chip.takesIrq w = none ∧ fetchTrap (s.awake w) w = none

/-- The registers of a Kerf core, numbered as MFS selector 7 numbers the cores. -/
def coreOf (s : State) (k : Nat) : KCore :=
  if k < 40 then (s.chip.kcore k).core else ((s.awake (k - 40)).chip.warden (k - 40)).core

/-- An instruction runs on core `k` (R190-R199): the core is ready, and the guard is one that can hold and holds. -/
def KerfReady (s : State) (k : Nat) (g : Guard) : Prop :=
  ((∃ v, DataReady s k v) ∨ (40 ≤ k ∧ WardenReady s (k - 40))) ∧ Guard.never g = false ∧ (coreOf s k).guard g = true

/-- The state after an instruction of `cost` cycles that leaves `x` in the core's registers and goes on at the next instruction.
Nothing else changes but the cycles of the invocation, in the data profile. -/
def afterCore (s : State) (k cost : Nat) (x : KCore) : State :=
  if k < 40 then
    match (s.chip.kcore k).inv with
    | some v => { s with chip := s.chip.kput k cost (x.advance 1) v }
    | none => s
  else
    let t := s.awake (k - 40)
    t.putWarden (k - 40) { t.chip.warden (k - 40) with core := x }.advance

/-- A data-profile core goes on with registers `x` and invocation `v`, at the next instruction. -/
def afterData (s : State) (k cost : Nat) (x : KCore) (v : Invocation) : State :=
  { s with chip := s.chip.kput k cost (x.advance 1) v }

/-- The state after a trap of the invocation on core `k` with a detail code (R207); what waited for the items of the batch goes on. -/
def afterTrap (s : State) (k code : Nat) : State := flushDlog { s with chip := (s.chip.kerfTrap s.env k code).settle s.env }

/-- A controller `c` after which the host engine's items, zone operations and dirty-page records go on as far as they can. -/
def goesOn (s : State) (c : Chip) : State := flushDlog { s with chip := c.settle s.env }

/-- Ring `q` of region `g` holds descriptor `d`, which carries operation `op`, and R39's checks that every operation has pass (R269, R273): a lane is in
service, the ranges lie at `sp` and `dp`, LEN is from 1 to 1 MiB, no reference count is full, and no access meets an uncorrectable burst. -/
def RingReady (s : State) (g q op : Nat) (d : Desc) (sp dp : Place) : Prop :=
  (s.chip.tring g q).running = some d ∧ bitsOf d.ctrl 3 0 = op ∧ (opLane op = 1 → s.env.part.full = true) ∧
    (s.chip.ringPick s.env g q (opLane op)).isSome = true ∧ s.chip.srcPlace s.env g d = some sp ∧ s.chip.dstPlace s.env g d = some dp ∧
    0 < d.len ∧ d.len ≤ 1048576 ∧ s.chip.refsFull sp = false ∧ s.chip.refsFull dp = false ∧
    sp.readBad s.chip (srcLen d) = false ∧ dp.writeBad s.chip (dstLen d) = false

/-- The state after a descriptor of ring `q` that has written `bs` at its destination on a lane of kind `lane`, with its write-back. -/
def ringDone (s : State) (g q : Nat) (d : Desc) (lane : Nat) (dp : Place) (bs : List Byte) (r2 : Nat) : State :=
  let t := s.put dp bs
  tringBack g q d 0x00 d.len bs.length r2 false { t with chip := t.chip.countLane g lane d.len }

/-- An I/O command on a namespace meets nothing that stops it before its own checks (R283, R287, R303, R377, R466): its function is in service, no flush
runs, neither lifecycle nor degraded hold refuses it, the namespace is the function's, of the command set `zoned`, and no deferred error waits. -/
def IoReady (s : State) (cmd : Cmd) (nsid psdt : Nat) (zoned : Option Bool) (lba : Nat) : Prop :=
  (s.chip.func cmd.fn).phase = .enabled ∧ s.chip.pmu.flush = none ∧ ioStop s = none ∧ nsStop s cmd nsid psdt zoned = none ∧
    s.chip.deferred cmd (nsxOf nsid) lba = none

/-- WP1 takes the admin command (R305, R377): its function is in service, no flush runs, and the lifecycle state does not refuse it. -/
def AdminReady (s : State) (cmd : Cmd) : Prop :=
  (s.chip.func cmd.fn).phase = .enabled ∧ s.chip.pmu.flush = none ∧ lifecycleRefuses s = false

/-- The state after an admin command that leaves the controller `d`: the records of dirty pages have reached their rings. -/
def adminDone (s : State) (d : Chip) : State := flushDlog { s with chip := d }

/-- Every memory has its canonical form. -/
def Memories.wf (m : Memories) : Bool := Mem.wf m.dram && Mem.wf m.near && Mem.wf m.sram && Mem.wf m.nor

/-- What the fuses keep in every run (R374, R376): no transition counts before DEPLOYED is blown, the lifecycle counter stays within 4,096, and KILL never
stands without RETIRED. -/
def Fuses.sound (f : Fuses) : Bool := (f.deployed || f.lcCount == 0) && decide (f.lcCount ≤ 4096) && (!f.kill || f.retired)

/-- The fuses `g` hold all that `f` held: no fuse clears, no counter and no minimum version falls, and a programmed anchor stays as it is (R243, R373, R374). -/
def Fuses.Keeps (f g : Fuses) : Prop :=
  (f.provisioned = true → g.provisioned = true) ∧ (f.deployed = true → g.deployed = true) ∧ (f.retired = true → g.retired = true) ∧
    (f.kill = true → g.kill = true) ∧ f.lcCount ≤ g.lcCount ∧ f.nonce ≤ g.nonce ∧ (∀ k, f.svn.getD k 0 ≤ g.svn.getD k 0) ∧
    ∀ a, Tab.get (fun _ => []) f.anchors a ≠ [] → Tab.get (fun _ => []) g.anchors a = Tab.get (fun _ => []) f.anchors a

/-- The transitions of R374's table; no others exist. -/
def lifecycleMoves : List (Lifecycle × Lifecycle) :=
  [(.blank, .provisioned), (.provisioned, .deployed), (.deployed, .hold), (.hold, .deployed), (.deployed, .retired), (.provisioned, .retired), (.blank, .retired)]

end Sys2Proof.Machine
end

