-- ==== Sys2Proof/Certificates/Slice0/Obligations.lean ====
section
/-! DEFINITION. What is claimed of the model: one proposition for each obligation, each from the rules that its docstring names. -/

open Sys2Proof Sys2Proof.Machine

/-! The queue and the step. -/

/-- A command at the front of the queue runs with the queue's rest; an empty queue leaves the block as it is (log entry 1). -/
def Obligations.StepRunsTheFrontCommand : Prop :=
  (∀ (c : Instr) (rest : List Instr) (s : State), s.pending = c :: rest → step s = exec c { s with pending := rest }) ∧
  (∀ s : State, s.pending = [] → step s = .next s)

/-- Every command completes: in every state exec answers a next state, which keeps the option block's records and the queue. The model's one refusal is
never met. -/
def Obligations.EveryCommandCompletes : Prop :=
  ∀ (i : Instr) (s : State), ∃ t, exec i s = .next t ∧ t.env = s.env ∧ t.pending = s.pending

/-- After reset (R14, R374, R462): no command waits, the lifecycle is BLANK and no fuse is blown, the tick is 0 and the controller is in reset, every register
holds its reset word and no key slot is valid; the invariants of the memories and the fuses hold. The reset words the tables leave open are the log's. -/
def Obligations.AfterReset : Prop :=
  let s := State.reset
  s.pending = [] ∧ s.mem.wf = true ∧ s.fuse.sound = true ∧ s.fuse.lifecycle = .blank ∧ s.fuse.nonce = 0 ∧ s.fuse.kill = false ∧
    s.chip.tick = 0 ∧ s.chip.time.len = 200 ∧ s.chip.rcu.phase = .inReset ∧ s.chip.pmu.ps = 0 ∧ s.chip.pmu.point = 2 ∧
    (∀ a, s.chip.reg a = (resetOf a).toNat) ∧ (∀ k, (s.chip.slot k).state = .empty) ∧ (∀ a, Mem.read s.mem.dram a = 0) ∧
    (∀ f, (s.chip.func f).phase = .disabled) ∧ (∀ n, (s.chip.port n).phase = .off) ∧ (∀ w, (s.chip.warden w).fenced = false)

/-- Every step keeps the canonical form of DRAM, the near pool, the warden SRAM and the boot NOR: addresses rise strictly, and no listed byte is the 0 that an
unlisted one reads as (log entry 2), so that equal memories are equal data. -/
def Obligations.StepsKeepTheMemoriesForm : Prop :=
  ∀ (s t : State), Steps s t → s.mem.wf = true → t.mem.wf = true

/-- The lifecycle moves only as R374's table says, whatever command runs (R35, R374, R376): a step leaves the state or takes a transition of the table; no fuse
clears, no counter and no minimum version falls, a programmed anchor stays as it is (R373), and KILL stands with RETIRED. The premise is kept by
every step, and holds after reset. ID_LIFECYCLE shows the state and the counter. -/
def Obligations.LifecycleMovesByTheTable : Prop :=
  (∀ (s t : State), Steps s t → s.fuse.sound = true →
    t.fuse.sound = true ∧ s.fuse.Keeps t.fuse ∧ (t.fuse.lifecycle = s.fuse.lifecycle ∨ (s.fuse.lifecycle, t.fuse.lifecycle) ∈ lifecycleMoves) ∧
      (t.fuse.lifecycle = s.fuse.lifecycle → t.fuse.lcCount = s.fuse.lcCount)) ∧
  (∀ (s : State) (acc : Access), acc.who < 8 → ∃ t, exec (.clearOnRead acc Reg.idLifecycle) s = .next t ∧
    t.chip.resp = ⟨BitVec.ofNat 32 (s.fuse.lcCount % 2 ^ 24 * 256 + s.fuse.lifecycle.code), 0x00⟩)

/-! The Kerf cores. -/

/-- k0 reads 0 and p0 reads true, whatever is written; another register holds what is written to it and leaves the rest alone (R189). -/
def Obligations.KerfFixedRegisters : Prop :=
  ∀ (c : KCore) (r q : BitVec 4) (i : BitVec 2) (v : Dword) (b : Bool),
    (c.setReg r v).reg 0 = 0 ∧ c.setReg 0 v = c ∧ (c.setPred i b).pred 0 = true ∧ c.setPred 0 b = c ∧
    (q ≠ r → (c.setReg r v).reg q = c.reg q) ∧
    (r ≠ 0 → c.k.length = 16 → (c.setReg r v).reg r = v) ∧
    (i ≠ 0 → c.p.length = 4 → (c.setPred i b).pred i = b) ∧
    (c.setReg r v).k.length = c.k.length ∧ (c.setPred i b).p.length = c.p.length ∧
    (KCore.fresh 0).k.length = 16 ∧ (KCore.fresh 0).p.length = 4

/-- The register-register instructions (R190, R200), on a core of either profile (R221).
The immediate and bit-field instructions (R190, R200), on a core of either profile (R221). -/
def Obligations.KerfArithmetic : Prop :=
  (∀ (s : State) (k : Nat) (g : Guard) (rd ra rb : BitVec 4), KerfReady s k g →
    let x := coreOf s k
    let a := x.reg ra
    let b := x.reg rb
    exec (.add k g rd ra rb) s = .next (afterCore s k 1 ((x.setReg rd (a + b)).orV (decide (2 ^ 64 ≤ a.toNat + b.toNat)))) ∧
    exec (.sub k g rd ra rb) s = .next (afterCore s k 1 ((x.setReg rd (a - b)).orV (decide (a.toNat < b.toNat)))) ∧
    exec (.mul k g rd ra rb) s = .next (afterCore s k 3 ((x.setReg rd (a * b)).orV (decide (2 ^ 64 ≤ a.toNat * b.toNat)))) ∧
    exec (.and k g rd ra rb) s = .next (afterCore s k 1 (x.setReg rd (a &&& b))) ∧
    exec (.or k g rd ra rb) s = .next (afterCore s k 1 (x.setReg rd (a ||| b))) ∧
    exec (.xor k g rd ra rb) s = .next (afterCore s k 1 (x.setReg rd (a ^^^ b))) ∧
    exec (.shl k g rd ra rb) s = .next (afterCore s k 1 (x.setReg rd (a <<< (b.toNat % 64)))) ∧
    exec (.shr k g rd ra rb) s = .next (afterCore s k 1 (x.setReg rd (a >>> (b.toNat % 64)))) ∧
    exec (.sar k g rd ra rb) s = .next (afterCore s k 1 (x.setReg rd (a.sshiftRight (b.toNat % 64)))) ∧
    exec (.minu k g rd ra rb) s = .next (afterCore s k 1 (x.setReg rd (if a.toNat ≤ b.toNat then a else b))) ∧
    exec (.maxu k g rd ra rb) s = .next (afterCore s k 1 (x.setReg rd (if a.toNat ≤ b.toNat then b else a))) ∧
    exec (.popc k g rd ra) s = .next (afterCore s k 1 (x.setReg rd (BitVec.ofNat 64 ((List.range 64).countP (fun i => a.getLsbD i))))) ∧
    exec (.clz k g rd ra) s = .next (afterCore s k 1 (x.setReg rd (BitVec.ofNat 64 (64 - bitLen a.toNat))))) ∧
  (∀ (s : State) (k : Nat) (g : Guard) (rd ra : BitVec 4) (imm : BitVec 15) (sh pos lenm1 : BitVec 6) (hw : BitVec 2) (h : BitVec 16),
    KerfReady s k g →
    let x := coreOf s k
    let a := x.reg ra
    let d := x.reg rd
    exec (.addi k g rd ra imm) s = .next (afterCore s k 1 ((x.setReg rd (a + imm.signExtend 64)).orV
      (decide ((a.toNat : Int) + imm.toInt < 0 ∨ 2 ^ 64 ≤ (a.toNat : Int) + imm.toInt)))) ∧
    exec (.andi k g rd ra imm) s = .next (afterCore s k 1 (x.setReg rd (a &&& imm.zeroExtend 64))) ∧
    exec (.ori k g rd ra imm) s = .next (afterCore s k 1 (x.setReg rd (a ||| imm.zeroExtend 64))) ∧
    exec (.xori k g rd ra imm) s = .next (afterCore s k 1 (x.setReg rd (a ^^^ imm.zeroExtend 64))) ∧
    exec (.shli k g rd ra sh) s = .next (afterCore s k 1 (x.setReg rd (a <<< sh.toNat))) ∧
    exec (.shri k g rd ra sh) s = .next (afterCore s k 1 (x.setReg rd (a >>> sh.toNat))) ∧
    exec (.sari k g rd ra sh) s = .next (afterCore s k 1 (x.setReg rd (a.sshiftRight sh.toNat))) ∧
    exec (.movi k g rd imm) s = .next (afterCore s k 1 (x.setReg rd (imm.signExtend 64))) ∧
    (∃ r : Dword,
      (∀ i < 64, r.getLsbD i = if 16 * hw.toNat ≤ i ∧ i < 16 * hw.toNat + 16 then h.getLsbD (i - 16 * hw.toNat) else d.getLsbD i) ∧
      exec (.movk k g rd hw h) s = .next (afterCore s k 1 (x.setReg rd r))) ∧
    (∃ r : Dword, (∀ i < 64, r.getLsbD i = (decide (i ≤ lenm1.toNat) && a.getLsbD (i + pos.toNat))) ∧
      exec (.bext k g rd ra pos lenm1) s = .next (afterCore s k 1 (x.setReg rd r))) ∧
    (∃ r : Dword,
      (∀ i < 64, r.getLsbD i = if pos.toNat ≤ i ∧ i ≤ pos.toNat + lenm1.toNat then a.getLsbD (i - pos.toNat) else d.getLsbD i) ∧
      exec (.bins k g rd ra pos lenm1) s = .next (afterCore s k 1 (x.setReg rd r))))

/-- The instructions on predicates, V and the special values, and NOP (R190, R199, R200), on a core of either profile (R221). The loader rejects a write
of p0 and a warden core traps it, so the destination is another predicate.
MFS (R200, R221): the eight special values of an invocation, and what a warden core reads; its selectors 0-2, 5 and 6 read 0. -/
def Obligations.KerfPredicatesAndSpecialValues : Prop :=
  (∀ (s : State) (k : Nat) (g : Guard) (pd pa pb : BitVec 2) (ra rb : BitVec 4) (imm : BitVec 14), KerfReady s k g → pd ≠ 0 →
    let x := coreOf s k
    let a := x.reg ra
    let b := x.reg rb
    exec (.nop k g) s = .next (afterCore s k 1 x) ∧
    exec (.clrv k g) s = .next (afterCore s k 1 { x with v := false }) ∧
    exec (.cmp k g pd ra rb .eq) s = .next (afterCore s k 1 (x.setPred pd (decide (a = b)))) ∧
    exec (.cmp k g pd ra rb .ne) s = .next (afterCore s k 1 (x.setPred pd (decide (a ≠ b)))) ∧
    exec (.cmp k g pd ra rb .ltu) s = .next (afterCore s k 1 (x.setPred pd (decide (a.toNat < b.toNat)))) ∧
    exec (.cmp k g pd ra rb .geu) s = .next (afterCore s k 1 (x.setPred pd (decide (b.toNat ≤ a.toNat)))) ∧
    exec (.cmp k g pd ra rb .lt) s = .next (afterCore s k 1 (x.setPred pd (decide (a.toInt < b.toInt)))) ∧
    exec (.cmp k g pd ra rb .ge) s = .next (afterCore s k 1 (x.setPred pd (decide (b.toInt ≤ a.toInt)))) ∧
    exec (.cmp k g pd ra rb .tst) s = .next (afterCore s k 1 (x.setPred pd (decide (a &&& b ≠ 0)))) ∧
    exec (.cmp k g pd ra rb .ntst) s = .next (afterCore s k 1 (x.setPred pd (decide (a &&& b = 0)))) ∧
    (∀ cond : Cond, exec (.cmpi k g pd cond ra imm) s = .next (afterCore s k 1 (x.setPred pd (Cond.holds cond a (imm.signExtend 64))))) ∧
    exec (.pset k g pd pa pb .and) s = .next (afterCore s k 1 (x.setPred pd (x.pred pa && x.pred pb))) ∧
    exec (.pset k g pd pa pb .or) s = .next (afterCore s k 1 (x.setPred pd (x.pred pa || x.pred pb))) ∧
    exec (.pset k g pd pa pb .xor) s = .next (afterCore s k 1 (x.setPred pd (x.pred pa != x.pred pb))) ∧
    exec (.pset k g pd pa pb .andNot) s = .next (afterCore s k 1 (x.setPred pd (x.pred pa && !x.pred pb)))) ∧
  ((∀ (s : State) (k : Nat) (g : Guard) (rd : BitVec 4) (v : Invocation), DataReady s k v → KerfReady s k g →
    let x := coreOf s k
    let put := fun (n : Nat) => (Host.Outcome.next (afterCore s k 1 (x.setReg rd (BitVec.ofNat 64 n))) : Host.Outcome State Fault Refusal)
    exec (.mfs k g rd 0) s = put v.items.length ∧
    exec (.mfs k g rd 1) s = put (match x.loops with | l :: _ => l.index | [] => 0) ∧
    exec (.mfs k g rd 2) s = put (match x.loops with | _ :: l :: _ => l.index | _ => 0) ∧
    exec (.mfs k g rd 3) s = put v.time ∧
    exec (.mfs k g rd 4) s = put (if x.v then 1 else 0) ∧
    exec (.mfs k g rd 5) s = put v.slot ∧
    exec (.mfs k g rd 6) s = put v.entry ∧
    exec (.mfs k g rd 7) s = put k) ∧
  (∀ (s : State) (w : Nat) (g : Guard) (rd : BitVec 4) (sel : BitVec 3), KerfReady s (40 + w) g →
    exec (.mfs (40 + w) g rd sel) s = .next (afterCore s (40 + w) 1 ((coreOf s (40 + w)).setReg rd (BitVec.ofNat 64
      (if sel = 3 then s.chip.stamp else if sel = 4 then (if (s.chip.warden w).core.v then 1 else 0) else if sel = 7 then 40 + w else 0))))))

/-- Where a Kerf core goes on after an instruction (R201): at the next one; after the last instruction of a loop body at the body's start, with the
index raised, while iterations remain, and else past the body, where the loop no longer runs.
BR and LOOP in the data profile (R194, R200, R201): a branch outside loops; a loop with a count of 0, which skips its body; a loop that is entered. -/
def Obligations.KerfLoopsAndBranches : Prop :=
  (∀ (u : Nat) (c : KCore) (l : KLoop) (rest : List KLoop),
    (c.loops = [] → c.advance u = { c with pc := c.pc + u }) ∧
    (c.loops = l :: rest → c.pc ≠ l.last → c.advance u = { c with pc := c.pc + u }) ∧
    (c.loops = l :: rest → c.pc = l.last → l.index + 1 < l.count →
      c.advance u = { c with
        pc := l.first
        loops := ⟨l.first, l.last, l.count, l.index + 1⟩ :: rest }) ∧
    (c.loops = l :: rest → c.pc = l.last → l.count ≤ l.index + 1 → rest = [] → c.advance u = { c with
      pc := c.pc + u
      loops := [] })) ∧
  (∀ (s : State) (k : Nat) (g : Guard) (v : Invocation) (off len : BitVec 10) (rc : BitVec 4) (maxm1 : BitVec 9), DataReady s k v →
    let x := coreOf s k
    let n := if rc = 0 then maxm1.toNat + 1 else Nat.min (x.reg rc).toNat (maxm1.toNat + 1)
    let inside : KCore := { x with
      pc := x.pc + 1
      loops := ⟨x.pc + 1, x.pc + len.toNat, n, 0⟩ :: x.loops }
    (KerfReady s k g → x.loops = [] →
      exec (.br k g off) s = .next { s with chip := s.chip.kput k 1 { x with pc := x.pc + off.toNat } v }) ∧
    (n = 0 → x.loops = [] →
      exec (.loop k rc maxm1 len) s = .next { s with chip := s.chip.kput k 2 { x with pc := x.pc + len.toNat + 1 } v }) ∧
    (0 < n → 0 < len.toNat →
      exec (.loop k rc maxm1 len) s = .next { s with chip := s.chip.kput k 2 inside { v with cycles := v.cycles + 1 } }))

/-- What one instruction of the data profile leaves as it is (R193-R200): after a register instruction only its core has changed, which holds the
registers the instruction gives, the same invocation with its cycles counted, and is not fenced.
An instruction whose guard is false costs the same and has no other effect (R194, R199). -/
def Obligations.KerfFrames : Prop :=
  (∀ (s : State) (k j cost : Nat) (x : KCore) (v : Invocation), DataReady s k v →
    let t := afterCore s k cost x
    t.pending = s.pending ∧ t.env = s.env ∧ t.fuse = s.fuse ∧ t.mem = s.mem ∧
    { t.chip with kerf := { t.chip.kerf with cores := s.chip.kerf.cores } } = s.chip ∧
    (j ≠ k → t.chip.kcore j = s.chip.kcore j) ∧
    (t.chip.kcore k).core = x.advance 1 ∧ (t.chip.kcore k).fenced = false ∧
    (∃ n, (t.chip.kcore k).inv = some { v with cycles := n } ∧ v.cycles + cost ≤ n ∧ n ≤ v.cycles + cost + 1) ∧
    (x.advance 1).k = x.k ∧ (x.advance 1).p = x.p ∧ (x.advance 1).v = x.v) ∧
  (∀ (s : State) (k : Nat) (g : Guard) (v : Invocation) (rd ra rb ri : BitVec 4) (imm : BitVec 15) (reason : BitVec 6),
    DataReady s k v → (coreOf s k).guard g = false →
    let x := coreOf s k
    exec (.add k g rd ra rb) s = .next (afterCore s k 1 x) ∧ exec (.mul k g rd ra rb) s = .next (afterCore s k 3 x) ∧
    exec (.ldd k g rd ra imm) s = .next (afterCore s k 2 x) ∧ exec (.std k g rd ra imm) s = .next (afterCore s k 1 x) ∧
    exec (.sadd k g rd ra imm) s = .next (afterCore s k 2 x) ∧ exec (.emit k g ri ra) s = .next (afterCore s k 16 x) ∧
    exec (.fail k g ri reason) s = .next (afterCore s k 2 x) ∧ exec (.hash k g ri) s = .next (afterCore s k 4 x) ∧
    exec (.exit k g) s = .next (afterCore s k 8 x) ∧ exec (.abort k g reason) s = .next (afterCore s k 1 x))

/-- Loads of the data profile (R195, R196, R200): 1, 2, 4 or 8 bytes at an aligned address, zero-extended, from scratch, the constant table, the item
table or the binding state.
Stores of the data profile (R196, R200): the low bytes of the register go to scratch, and to nothing else.
Accesses that trap (R196, R207): KT_ADDR for one that is misaligned or lies wholly within no area, KT_RO for a store outside scratch. -/
def Obligations.KerfDataAccesses : Prop :=
  (∀ (s : State) (k : Nat) (g : Guard) (v : Invocation) (rd ra : BitVec 4) (imm : BitVec 15) (n : Nat) (i : Instr),
    DataReady s k v → KerfReady s k g →
    (n, i) ∈ [(1, Instr.ldb k g rd ra imm), (2, .ldh k g rd ra imm), (4, .ldw k g rd ra imm), (8, .ldd k g rd ra imm)] →
    let x := coreOf s k
    let a := (x.reg ra + imm.signExtend 64).toNat
    let got := fun (value : Nat) => exec i s = .next (afterCore s k 2 (x.setReg rd (BitVec.ofNat 64 value)))
    a % n = 0 →
      (a + n ≤ 0x1000 → got (Mem.readLe v.scratch a n)) ∧
      (0x1000 ≤ a → a + n ≤ 0x2000 →
        got (leNat (sliceBytes (((s.chip.slotProg v.slot).map (fun p => p.consts)).getD []) (a - 0x1000) n))) ∧
      (0x2000 ≤ a → a + n ≤ 0x2400 → got (leNat (sliceBytes v.table (a - 0x2000) n))) ∧
      (0x2400 ≤ a → a + n ≤ 0x2500 → got (leNat (sliceBytes v.snap (a - 0x2400) n)))) ∧
  (∀ (s : State) (k : Nat) (g : Guard) (v : Invocation) (rd ra : BitVec 4) (imm : BitVec 15) (n : Nat) (i : Instr),
    DataReady s k v → KerfReady s k g →
    (n, i) ∈ [(1, Instr.stb k g rd ra imm), (2, .sth k g rd ra imm), (4, .stw k g rd ra imm), (8, .std k g rd ra imm)] →
    let x := coreOf s k
    let a := (x.reg ra + imm.signExtend 64).toNat
    a % n = 0 → a + n ≤ 0x1000 →
      exec i s = .next (afterData s k 1 x { v with scratch := Mem.writeLe v.scratch a n (x.reg rd).toNat })) ∧
  (∀ (s : State) (k : Nat) (g : Guard) (v : Invocation) (rd ra : BitVec 4) (imm : BitVec 15) (n : Nat) (i j : Instr),
    DataReady s k v → KerfReady s k g →
    (n, i, j) ∈ [(1, Instr.ldb k g rd ra imm, Instr.stb k g rd ra imm), (2, .ldh k g rd ra imm, .sth k g rd ra imm),
      (4, .ldw k g rd ra imm, .stw k g rd ra imm), (8, .ldd k g rd ra imm, .std k g rd ra imm)] →
    let a := ((coreOf s k).reg ra + imm.signExtend 64).toNat
    (a % n ≠ 0 ∨ 0x2500 < a + n ∨ (a < 0x1000 ∧ 0x1000 < a + n) ∨ (a < 0x2000 ∧ 0x2000 < a + n) ∨ (a < 0x2400 ∧ 0x2400 < a + n) →
      exec i s = .next (afterTrap s k 0x80) ∧ exec j s = .next (afterTrap s k 0x80)) ∧
    (a % n = 0 → (0x1000 ≤ a ∧ a + n ≤ 0x2000) ∨ (0x2000 ≤ a ∧ a + n ≤ 0x2400) ∨ (0x2400 ≤ a ∧ a + n ≤ 0x2500) →
      exec j s = .next (afterTrap s k 0x81)))

/-- The effect instructions (R203, R208-R210): each records its choice against the item that k[RI] names, the last of a kind standing.
How an invocation ends (R200, R206, R207, R210): ABORT, an item index out of range and a 33rd EMIT trap; EXIT commits. -/
def Obligations.KerfEffectsAndEnds : Prop :=
  (∀ (s : State) (k : Nat) (g : Guard) (v : Invocation) (rd ra ri key : BitVec 4) (imm : BitVec 15) (reason : BitVec 6) (bits : BitVec 8)
    (level : BitVec 2) (evid : Bool), DataReady s k v → KerfReady s k g →
    let x := coreOf s k
    let n := (x.reg ri).toNat
    let on := fun (i : Instr) (cost : Nat) (f : ItemFx → ItemFx) => exec i s = .next (afterData s k cost x { v with fx := updateAt v.fx n f })
    (n < v.items.length →
      on (.fail k g ri reason) 2 (fun f => { f with fail := some reason.toNat }) ∧
      on (.undo k g ri) 4 (fun f => { f with undo := true }) ∧
      on (.shuf k g ri bits) 4 (fun f => { f with shuf := some bits.toNat }) ∧
      on (.sqz k g ri level) 4 (fun f => { f with sqz := some level.toNat }) ∧
      on (.xts k g ri key) 4 (fun f => { f with xts := some key.toNat }) ∧
      on (.hash k g ri) 4 (fun f => { f with hash := true }) ∧
      on (.place k g ri evid) 4 (fun f => { f with evid := evid }) ∧
      on (.tag k g ri ra) 4 (fun f => { f with tags := [(x.reg ra).toNat % 2 ^ 32] })) ∧
    (∀ a, a = (x.reg ra + imm.signExtend 64).toNat → a % 8 = 0 → 0x2400 ≤ a → a + 8 ≤ 0x2500 →
      exec (.sadd k g rd ra imm) s = .next (afterData s k 2 x { v with adds := v.adds ++ [(a - 0x2400, x.reg rd)] })) ∧
    (∀ a, a = (x.reg ra).toNat → n < v.items.length → a % 8 = 0 → a + 24 ≤ 0x1000 → v.emits.length < 32 →
      exec (.emit k g ri ra) s = .next (afterData s k 16 x { v with emits := v.emits ++ [(n, Mem.readBytes v.scratch a 24)] }))) ∧
  (∀ (s : State) (k : Nat) (g : Guard) (v : Invocation) (ri ra : BitVec 4) (reason : BitVec 6), DataReady s k v → KerfReady s k g →
    let x := coreOf s k
    exec (.abort k g reason) s = .next (afterTrap s k 0x84) ∧
    exec (.exit k g) s = .next (flushDlog { s with chip := (s.chip.commitInv s.env k).settle s.env }) ∧
    (v.items.length ≤ (x.reg ri).toNat →
      exec (.fail k g ri reason) s = .next (afterTrap s k 0x82) ∧ exec (.undo k g ri) s = .next (afterTrap s k 0x82) ∧
      exec (.tag k g ri ra) s = .next (afterTrap s k 0x82) ∧ exec (.emit k g ri ra) s = .next (afterTrap s k 0x82)) ∧
    ((x.reg ri).toNat < v.items.length → (x.reg ra).toNat % 8 = 0 → (x.reg ra).toNat + 24 ≤ 0x1000 → 32 ≤ v.emits.length →
      exec (.emit k g ri ra) s = .next (afterTrap s k 0x83)))

/-! The warden cores. -/

/-- JMP, CALL, JR, FENCE and WFI of the control profile (R222, R224).
A jump outside loops changes the pc alone (R222): what `goTo` and `advance` do to a warden core. -/
def Obligations.WardenControlFlow : Prop :=
  (∀ (s : State) (w : Nat) (g : Guard) (off : BitVec 23) (ra : BitVec 4), KerfReady s (40 + w) g →
    let t := s.awake w
    let x := t.chip.warden w
    let dest := (BitVec.ofNat 32 x.core.pc + 4 * off.signExtend 32).toNat
    exec (.jmp (40 + w) g off) s = .next (t.putWarden w (x.goTo dest)) ∧
    exec (.call (40 + w) g off) s = .next (t.putWarden w ((x.setReg 15 (BitVec.ofNat 64 ((x.core.pc + 4) % 2 ^ 32))).goTo dest)) ∧
    exec (.jr (40 + w) g ra) s = .next (t.putWarden w (x.goTo ((x.core.reg ra).toNat % 2 ^ 32))) ∧
    exec (.fence (40 + w) g) s = .next (t.putWarden w x.advance) ∧
    (x.thread = false → exec (.wfi (40 + w) g) s = .next (t.putWarden w { x.advance with waiting := true }))) ∧
  (∀ (x : WardenCore) (n : Nat), x.core.loops = [] →
    x.goTo n = { x with core := { x.core with pc := n % 2 ^ 32 } } ∧ x.advance = { x with core := { x.core with pc := (x.core.pc + 4) % 2 ^ 32 } })

/-- MFC and MTC (R222, R224) at handler level: the core's own registers TIME, CORE, ROLE and HBEAT, the banked ones of its world, the copies of the normal
world from 0x100 on, and interrupt claim and end (R477).
What a control register refuses (R224, R225): an unlisted number traps as ILLEGAL; at thread level all but reads of TIME, CORE and ROLE trap as
PRIV, in the normal world the numbers from 0x100 on. -/
def Obligations.WardenControlRegisterMoves : Prop :=
  (∀ (s : State) (w : Nat) (g : Guard) (rd : BitVec 4) (n : Nat), KerfReady s (40 + w) g →
    let t := s.awake w
    let x := t.chip.warden w
    let v := x.core.reg rd
    let reads := fun (csr value : Nat) =>
      exec (.mfc (40 + w) g rd (BitVec.ofNat 12 csr)) s = .next (t.putWarden w (x.setReg rd (BitVec.ofNat 64 value)).advance)
    let writes := fun (csr : Nat) (u : State) => exec (.mtc (40 + w) g rd (BitVec.ofNat 12 csr)) s = .next (u.putWarden w (u.chip.warden w).advance)
    x.thread = false →
      reads 0x010 t.chip.stamp ∧ reads 0x011 (40 + w) ∧ reads 0x012 (if t.chip.isActive w then 0 else 1) ∧ reads 0x000 x.wstat ∧
      ((1 ≤ n ∧ n < 8) ∨ (0x20 ≤ n ∧ n < 0x30) → reads n (x.csrOf x.secure n) ∧ writes n (t.putWarden w (x.putCsr x.secure n v.toNat))) ∧
      (x.secure = true → n < 8 ∨ (0x20 ≤ n ∧ n < 0x30) →
        reads (0x100 + n) (x.csrOf false n) ∧ writes (0x100 + n) (t.putWarden w (x.putCsr false n v.toNat))) ∧
      writes 0x040 (t.putWarden w { x with beat := t.chip.tick }) ∧ writes 0x011 t ∧
      writes 0x031 { t with chip := t.chip.ieoi w v.toNat }) ∧
  (∀ (s : State) (w : Nat) (g : Guard) (r : BitVec 4) (csr : BitVec 12), KerfReady s (40 + w) g →
    let t := s.awake w
    let x := t.chip.warden w
    (csrListed csr.toNat = false →
      exec (.mfc (40 + w) g r csr) s = .next (t.trap w 1 none false) ∧ exec (.mtc (40 + w) g r csr) s = .next (t.trap w 1 none false)) ∧
    (csrListed csr.toNat = true → x.thread = true →
      exec (.mtc (40 + w) g r csr) s = .next (t.trap w 2 none false) ∧
      (csr ≠ 0x10 → csr ≠ 0x11 → csr ≠ 0x12 → exec (.mfc (40 + w) g r csr) s = .next (t.trap w 2 none false))) ∧
    (csrListed csr.toNat = true → x.secure = false → 0x100 ≤ csr.toNat →
      exec (.mfc (40 + w) g r csr) s = .next (t.trap w 2 none false) ∧ exec (.mtc (40 + w) g r csr) s = .next (t.trap w 2 none false)))

/-- What a trap leaves of a warden core (R227): the saved status, pc, cause and address in the registers of its world, handler level, interrupts off and
the pc at the vector; its other registers are as they were.
The entry of an interrupt (R227, R228): it goes to VBASE + 0x040 of the world that takes it with cause 0x11 or 0x10; a secure one that meets the
normal world saves the registers in the shadow and zeroes them. -/
def Obligations.WardenTrapsAndInterrupts : Prop :=
  (∀ (x : WardenCore) (estat epc cause vector a : Nat),
    let y := x.enter estat epc cause vector (some a)
    y.thread = false ∧ y.secure = x.secure ∧ y.waiting = false ∧ y.core.pc = (x.csrOf x.secure 5 + vector) % 2 ^ 32 ∧
    y.core.k = x.core.k ∧ y.core.p = x.core.p ∧ y.core.v = x.core.v ∧ y.core.loops = x.core.loops ∧
    y.csrOf x.secure 4 = estat % 2 ^ 64 ∧ y.csrOf x.secure 1 = epc % 2 ^ 64 ∧ y.csrOf x.secure 2 = cause % 2 ^ 64 ∧ y.csrOf x.secure 3 = a % 2 ^ 64 ∧
    y.enabled = false ∧ (∀ n, 5 ≤ n → n < 0x1000 → y.csrOf x.secure n = x.csrOf x.secure n) ∧
    (x.enter estat epc cause vector none).csrOf x.secure 3 = x.csrOf x.secure 3) ∧
  (∀ (s : State) (w : Nat) (b : Bool), s.chip.takesIrq w = some b →
    let x := s.chip.warden w
    ∃ y, exec (.interruptEntry w) s = .next { s with chip := s.chip.setWarden w y } ∧
      y.thread = false ∧ y.waiting = false ∧ y.secure = (x.secure || b) ∧
      (b = true → x.secure = false → y.core.k = List.replicate 16 0 ∧ y.core.p = [true, false, false, false] ∧ y.core.v = false ∧
        y.shadow = (x.core.k, x.core.p, x.core.v)) ∧
      (x.secure = b → y = x.enter x.wstat x.core.pc (if b then 0x11 else 0x10) 0x40 none))

/-- WCALL and ERET (R222, R227, R228): a call of the normal world enters the secure one at its VBASE + 0x080 with the service in the cause; in the secure
world it is ILLEGAL; ERET that would enter the secure world from the normal one is PRIV.
The instructions that the control profile does not have trap as ILLEGAL there (R221, R225). -/
def Obligations.WardenWorlds : Prop :=
  (∀ (s : State) (w : Nat) (g : Guard) (svc : BitVec 15), KerfReady s (40 + w) g →
    let t := s.awake w
    let x := t.chip.warden w
    (x.secure = true → exec (.wcall (40 + w) g svc) s = .next (t.trap w 1 none false)) ∧
    (x.secure = false → ∃ y, exec (.wcall (40 + w) g svc) s = .next (t.putWarden w y) ∧
      y = { x.setCsr false 0 x.wstat with secure := true }.enter x.wstat ((x.core.pc + 4) % 2 ^ 32) (8 + svc.toNat * 256) 0x80 none ∧
      y.secure = true ∧ y.thread = false ∧ y.core.k = x.core.k ∧ y.core.p = x.core.p ∧ y.core.v = x.core.v) ∧
    (x.secure = false → (x.csrOf false 4).testBit 0 = true → exec (.eret (40 + w) g) s = .next (t.trap w 2 none false)) ∧
    ((x.secure = true ∨ (x.csrOf false 4).testBit 0 = false) → x.core.loops = [] →
      ∃ y, exec (.eret (40 + w) g) s = .next (t.putWarden w y) ∧
        y.secure = (x.csrOf x.secure 4).testBit 0 ∧ y.thread = !(x.csrOf x.secure 4).testBit 1 ∧ y.core.pc = x.csrOf x.secure 1 % 2 ^ 32 ∧
        ((x.csrOf x.secure 4).testBit 3 = true → y.core.k = x.shadow.1 ∧ y.core.p = x.shadow.2.1 ∧ y.core.v = x.shadow.2.2) ∧
        ((x.csrOf x.secure 4).testBit 3 = false → y.core.k = x.core.k ∧ y.core.p = x.core.p ∧ y.core.v = x.core.v))) ∧
  (∀ (s : State) (w : Nat) (g : Guard) (rd ra ri key : BitVec 4) (imm : BitVec 15) (reason : BitVec 6) (bits : BitVec 8) (level : BitVec 2) (evid : Bool)
    (i : Instr), WardenReady s w →
    i ∈ [Instr.sadd (40 + w) g rd ra imm, .emit (40 + w) g ri ra, .fail (40 + w) g ri reason, .undo (40 + w) g ri, .exit (40 + w) g,
      .abort (40 + w) g reason, .shuf (40 + w) g ri bits, .sqz (40 + w) g ri level, .xts (40 + w) g ri key, .hash (40 + w) g ri,
      .place (40 + w) g ri evid, .tag (40 + w) g ri ra] →
    exec i s = .next ((s.awake w).trap w 1 none false))

/-- Loads and stores of a warden core (R221, R226): an access that the checks pass acts on control space; one that is misaligned, has address bits above
31 or another width than a register takes traps as ALIGN, one that memory protection refuses as MPU, one that control space refuses as BUS.
CAS (R222): 8 bytes are read; if they equal k[RD], k[RB] is stored there; k[RD] takes what was read. -/
def Obligations.WardenMemoryAccesses : Prop :=
  (∀ (s u : State) (w : Nat) (g : Guard) (rd ra : BitVec 4) (imm : BitVec 15) (n v : Nat) (l : Bool) (i j : Instr), KerfReady s (40 + w) g →
    (n, i, j) ∈ [(1, Instr.ldb (40 + w) g rd ra imm, Instr.stb (40 + w) g rd ra imm), (2, .ldh (40 + w) g rd ra imm, .sth (40 + w) g rd ra imm),
      (4, .ldw (40 + w) g rd ra imm, .stw (40 + w) g rd ra imm), (8, .ldd (40 + w) g rd ra imm, .std (40 + w) g rd ra imm)] →
    let t := s.awake w
    let x := t.chip.warden w
    let a := (x.core.reg ra + imm.signExtend 64).toNat
    let acc : Access := ⟨w, x.secure⟩
    let aligned := a < 2 ^ 32 ∧ a % n = 0 ∧ (a < 0x20000000 → n = 4)
    (¬ aligned → exec i s = .next (t.trap w 3 (some a) false) ∧ exec j s = .next (t.trap w 3 (some a) false)) ∧
    (aligned → x.grants mpuR a = false → exec i s = .next (t.trap w 4 (some a) false)) ∧
    (aligned → x.grants mpuW a = false → exec j s = .next (t.trap w 4 (some a) false)) ∧
    (aligned → x.grants mpuR a = true → busRead acc a n t = .bus l → exec i s = .next (t.trap w 5 (some a) l)) ∧
    (aligned → x.grants mpuR a = true → busRead acc a n t = .ok v u →
      exec i s = .next (u.putWarden w ((u.chip.warden w).setReg rd (BitVec.ofNat 64 v)).advance)) ∧
    (aligned → x.grants mpuW a = true → busWrite acc a n ((x.core.reg rd).toNat % 2 ^ (8 * n)) (t.putWarden w x.advance) = .ok v u →
      exec j s = .next u)) ∧
  (∀ (s u r : State) (w : Nat) (g : Guard) (rd ra rb : BitVec 4) (v z : Nat), KerfReady s (40 + w) g →
    let t := s.awake w
    let x := t.chip.warden w
    let a := (x.core.reg ra).toNat
    let acc : Access := ⟨w, x.secure⟩
    let done := u.putWarden w (x.setReg rd (BitVec.ofNat 64 v)).advance
    a < 2 ^ 32 → a % 8 = 0 → 0x20000000 ≤ a → x.grants mpuR a = true → x.grants mpuW a = true → busRead acc a 8 t = .ok v u →
      (BitVec.ofNat 64 v ≠ x.core.reg rd → exec (.cas (40 + w) g rd ra rb) s = .next done) ∧
      (BitVec.ofNat 64 v = x.core.reg rd → busWrite acc a 8 (x.core.reg rb).toNat done = .ok z r → exec (.cas (40 + w) g rd ra rb) s = .next r))

/-- The mirror and the mailboxes of a warden pair (R231, R232, R238): a commit by the active core invalidates the copy that does not hold the committed
generation and runs; when it ends, that copy holds the working region under the next generation, what the pair had taken is free and its held posts
are released; the active core takes the oldest pending slot.
Posts (R238-R241): one with LEN 0 is ZERO_COUNT, one with another fault BAD_DESCRIPTOR, one to a pair whose warden share is full BUSY_RETRY, and
nothing is posted then; a good one is held until the pair's next commit in the lowest free slot of its destination. A request of the management
endpoint is pending for WP1 at once, and its response is the status. -/
def Obligations.WardenPairsAndMailboxes : Prop :=
  (∀ (s : State) (w p i : Nat) (rest : List Nat),
    let c := s.chip
    let x := c.pair (w / 2)
    let y := c.pair p
    let target := fun (x : Pair) (k : MirrorCopy) => if x.copy0.valid = true ∧ x.copy0.gen = x.gen then { x with copy1 := k } else { x with copy0 := k }
    let old := fun (x : Pair) => if x.copy0.valid = true ∧ x.copy0.gen = x.gen then x.copy1 else x.copy0
    (c.isActive w = true → x.committing = false → x.gen + 1 < 2 ^ 64 →
      let stale := fun (x : Pair) => target x ⟨false, (old x).gen, (old x).image⟩
      let runs := c.updPair (w / 2) (fun x => { stale x with committing := true })
      exec (.wpCommit w) s = .next { s with chip := runs.setBit (Reg.krfWpCommit (w / 2)) 31 true }) ∧
    (c.isActive w = false → exec (.wpCommit w) s = .next s ∧ exec (.mbxPop w) s = .next s) ∧
    (c.isActive w = true → x.queue = i :: rest → w / 2 < c.kerf.pairs.length →
      ∃ t, exec (.mbxPop w) s = .next t ∧ (t.chip.pair (w / 2)).queue = rest ∧ (t.chip.pair (w / 2)).taken = x.taken ++ [i] ∧
        (t.chip.pair (w / 2)).slot i = { x.slot i with state := 3, owner := w } ∧
        (∀ q, q ≠ w / 2 → t.chip.pair q = c.pair q) ∧ t.mem = s.mem ∧ t.fuse = s.fuse ∧ t.chip.kerf.held = c.kerf.held) ∧
    (y.committing = true →
      let done := c.updPair p (fun x => { Pair.freeTaken (target x ⟨true, x.gen + 1, workImage s.mem.sram p⟩) with
        gen := x.gen + 1
        committing := false })
      let told : Chip := { done with pmu := { done.pmu with commits := insertNat p done.pmu.commits } }
      exec (.wpCommitDone p) s = .next { s with chip := (told.setReg (Reg.krfWpCommit p) 0x00).releasePosts p })) ∧
  (∀ (s : State) (w i : Nat) (tag : Word) (pay : List Byte), w < 8 → (s.chip.warden w).fenced = false →
    let c := s.chip
    let b := c.mbxBytes w
    let le := fun (o n : Nat) => leNat (sliceBytes b o n)
    let dst := le 1 1
    let len := le 3 1
    let stops := fun (st : Nat) => exec (.mbxPost w) s = .next { s with chip := c.setReg (Reg.krfMbxTx w) st }
    let msg := c.mbxMessage w dst (le 2 1) (le 4 4) 0xFFFF (sliceBytes b 16 len)
    (len = 0 → stops 0x02) ∧ (0 < len → (112 < len ∨ 5 < dst ∨ (4 ≤ dst ∧ w / 2 ≠ 1)) → stops 0x05) ∧
    (0 < len → len ≤ 112 → dst < 4 → (c.pair dst).freeFor false = none → stops 0x01) ∧
    (0 < len → len ≤ 112 → dst < 4 → (c.pair dst).freeFor false = some i → ((c.warden (2 * dst)).fenced && (c.warden (2 * dst + 1)).fenced) = false →
      let put := c.updPair dst (fun x => x.setSlot i ⟨1, w, false, msg⟩)
      let kept : Chip := { put with kerf := { put.kerf with held := put.kerf.held ++ [HeldPost.mk w dst (some i) msg] } }
      exec (.mbxPost w) s = .next { s with chip := (kept.setReg (Reg.krfMbxTx w) (i % 128 * 256)).pass }) ∧
    (let answers := fun (d : Chip) (st : Nat) => exec (.miRequest tag pay) s = .next { s with chip := { d.wakeSee .mi with resp := ⟨0, st⟩ } }
     let sent := c.updPair 1 (fun x => { x.setSlot i ⟨2, 9, true, c.mbxMessage 9 1 3 tag.toNat 0xFFFF pay⟩ with queue := x.queue ++ [i] })
     (pay.length = 0 → answers c 0x02) ∧ (112 < pay.length → answers c 0x05) ∧
     (0 < pay.length → pay.length ≤ 112 → (c.pair 1).freeFor true = none → answers c 0x01) ∧
     (0 < pay.length → pay.length ≤ 112 → (c.pair 1).freeFor true = some i → ((c.warden 2).fenced && (c.warden 3).fenced) = false →
      answers (sent.raise0 277) 0x00)))

/-- A failed warden core (R235-R237): with too many missed heartbeats, a double trap or a failed self-check, in this order of causes, it is fenced and
named in KRF_WP_FAIL; with its twin fenced as well the hold of cause 8 begins; the standby takes over from an active core, with the newer valid copy
in the working region; without a reason nothing happens.
The check of a signed image (R242, R243): a field that is not as the envelope says is BAD_DESCRIPTOR, a signature that the anchor does not verify
0x80, a version number below the minimum 0x81; only an image that passes puts its address into KRF_LOAD_ADDR. -/
def Obligations.WardenFailoverAndImages : Prop :=
  (∀ (s : State) (w : Nat) (check : Bool), w < 8 → (s.chip.warden w).fenced = false →
    let c := s.chip
    let late := c.fld (Reg.krfWpHb (w / 2)) 3 0 ≤ c.tick - (c.warden w).beat - 1
    let cause := if late then 1 else if (c.warden w).doubleTrap = true then 2 else 3
    let noted := ((c.setWarden w { c.warden w with fenced := true }).setReg (Reg.krfWpFail (w / 2))
      (satTo 255 (c.fld (Reg.krfWpFail (w / 2)) 31 24 + 1) * 2 ^ 24 + (40 + w) * 256 + cause)).raise 327 (40 + w) 0xFFFF 0 0
    let other := w / 2 * 2 + (1 - w % 2)
    (¬ late → (c.warden w).doubleTrap = false → check = false → exec (.wardenCoreFail w check) s = .next s) ∧
    (late ∨ (c.warden w).doubleTrap = true ∨ check = true →
      ((noted.warden other).fenced = true → exec (.wardenCoreFail w check) s = .next { s with chip := noted.enterHold 8 }) ∧
      ((noted.warden other).fenced = false → (noted.pair (w / 2)).active ≠ w % 2 → exec (.wardenCoreFail w check) s = .next { s with chip := noted }) ∧
      ((noted.warden other).fenced = false → (noted.pair (w / 2)).active = w % 2 → w / 2 < noted.kerf.pairs.length →
        ∃ t, exec (.wardenCoreFail w check) s = .next t ∧
          t.mem = { s.mem with sram := restoreImage s.mem.sram (w / 2) ((((noted.dropPosts w).pair (w / 2)).best.map (fun m => m.image)).getD []) } ∧
          (t.chip.pair (w / 2)).active = 1 - w % 2 ∧ (t.chip.pair (w / 2)).committing = false ∧ (t.chip.pair (w / 2)).taken = [] ∧
          (t.chip.pair (w / 2)).queue = ((noted.dropPosts w).pair (w / 2)).taken ++ ((noted.dropPosts w).pair (w / 2)).queue ∧ t.fuse = s.fuse))) ∧
  (∀ (s : State) (addr : Nat),
    let c := s.chip
    let b := Mem.readBytes s.mem.dram (addr - 0x40000000) 8352
    let le := fun (o n : Nat) => leNat (sliceBytes b o n)
    let a := s.fuse.anchor (le 6 2)
    let good := le 0 4 = 0x564E454B ∧ le 4 2 = 1 ∧ le 8 4 = 8224 ∧ (∀ x ∈ sliceBytes b 0x10 16, x = 0) ∧ le 6 2 ≤ 3
    let signed := a ≠ [] ∧ Config.ecdsaOk a (Config.sha384 (sliceBytes b 0 0x2040)) (sliceBytes b 0x2040 96) = true
    let told := fun (d : Chip) (st : Nat) => { d with resp := ⟨0, st⟩ }
    let answers := fun (d : Chip) (st : Nat) => exec (.imageEnvelopeCheck addr) s = .next { s with chip := told d st }
    let checked :=
      if ¬ signed then told c 0x80
      else if le 12 4 < s.fuse.svn.getD (le 6 2) 0 then told c 0x81
      else told (c.setReg Reg.krfLoadAddr (addr + 0x20)) 0x00
    (addr % 8 ≠ 0 ∨ addr < 0x40000000 ∨ 0x80000000 < addr + 8352 → answers c 0x05) ∧
    (addr % 8 = 0 → 0x40000000 ≤ addr → addr + 8352 ≤ 0x80000000 →
      (¬ good → answers c 0x05) ∧
      (good → exec (.imageEnvelopeCheck addr) s = .next { s with chip := checked })))

/-! Control space. -/

/-- What a write leaves in a field, bit by bit (R12, R43): a field outside the written one keeps its bits; read-only and read-clear fields keep theirs;
W1C clears where the write has ones, W1S sets there; RW takes the value, unless it lies outside the limits, and RWL so only while it is not locked. -/
def Obligations.RegisterFieldWrites : Prop :=
  ∀ (f : RegField) (locked : Bool) (old v i : Nat), f.lo ≤ f.hi →
    let x := v / 2 ^ f.lo % 2 ^ (f.hi + 1 - f.lo)
    let new := f.write locked old v
    let inside := f.lo ≤ i ∧ i ≤ f.hi
    let fits := f.min ≤ x ∧ x ≤ f.max
    (¬ inside → new.testBit i = old.testBit i) ∧
    (f.acc = .ro ∨ f.acc = .rc ∨ f.acc = .st → new = old) ∧
    (f.acc = .w1c → inside → new.testBit i = (old.testBit i && !v.testBit i)) ∧
    (f.acc = .w1s → inside → new.testBit i = (old.testBit i || v.testBit i)) ∧
    (f.acc = .rw ∨ f.acc = .rws ∨ (f.acc = .rwl ∧ locked = false) → fits → inside → new.testBit i = v.testBit i) ∧
    (f.acc = .rw ∨ f.acc = .rws ∨ f.acc = .rwl → ¬ fits → new = old) ∧
    (f.acc = .rwl → locked = true → new = old) ∧
    (f.acc ≠ .st → f.stage old v = old) ∧ (f.acc = .st → fits → inside → (f.stage old v).testBit i = v.testBit i)

/-- REGISTER_WRITE and CLEAR_ON_READ of a register word (R12, R29): a write of a core that reaches the word does what the register's rule says; a read
answers the word and clears its RC fields.
The registers that only hold their fields (R12, R43): a write to one changes the word and its staging copy by the rules of their fields, and
nothing else of the machine. The modes' figures and the link speeds stand for the others. -/
def Obligations.RegisterWordAccesses : Prop :=
  (∀ (s : State) (acc : Access) (a i : Nat) (v : Word) (r : RegRow), acc.who < 8 → a < 0x300000 → a % 4 = 0 →
    findReg a = some (r, i) → r.half = .one →
    exec (.registerWrite acc a v) s = .next (answer 0 0x00 (regWrite acc r a v.toNat s)) ∧
    exec (.clearOnRead acc a) s = .next (answer (regView s r a) 0x00 { s with chip := s.chip.clearRc r a })) ∧
  (∀ (s : State) (acc : Access) (m : Nat) (v : Word) (r : RegRow) (i : Nat), acc.who < 8 → m < 3 → findReg (Reg.calModeA m) = some (r, i) →
    exec (.registerWrite acc (Reg.calModeA m) v) s = .next (answer 0 0x00 { s with chip := { s.chip with regs := { s.chip.regs with
      cur := Tab.set resetOf s.chip.regs.cur (Reg.calModeA m) (BitVec.ofNat 32 (r.fields.foldl (fun w f => f.write s.locked w v.toNat) (s.chip.reg (Reg.calModeA m))))
      stg := Tab.set resetOf s.chip.regs.stg (Reg.calModeA m) (BitVec.ofNat 32 (r.fields.foldl (fun w f => f.stage w v.toNat) (s.chip.stgReg (Reg.calModeA m)))) } } }))

/-- A commit write (R21) takes a copy of the block's staged settings for the next boundary; an earlier commit that still waits is replaced, and the
commits of other blocks stay.
A commit takes effect whole or not at all (R21, R87): one that a check refuses leaves every word as it is but for the REFUSED bits it sets and its
COMMIT bit, which reads 0; one that passes gives the staged fields of the words of its block the committed values. -/
def Obligations.Commits : Prop :=
  (∀ (s : State) (acc : Access) (b : CommitBlk), acc.who < 8 → acc.secure = true →
    b ∈ [CommitBlk.cal, .map, .fn, .keySca, .seal, .bpm, .mem, .thm, .tally] → ∃ t, exec (.commitWrite acc b) s = .next t ∧
      t.chip.regs.commits = s.chip.regs.commits.filter (fun p => p.1 != b) ++ [(b, s.chip.stagingCopy b)] ∧
      t.chip.resp.status = 0x00 ∧ t.env = s.env ∧ t.fuse = s.fuse ∧ t.mem = s.mem ∧ t.chip.cal = s.chip.cal ∧ t.chip.host = s.chip.host) ∧
  (∀ (c : Chip) (e : Env) (b : CommitBlk) (copy : Tab Word),
    (c.commitCheck e b copy = (false, []) → c.commitApply e (b, copy) = c.setBit (commitBit b).1 (commitBit b).2 false) ∧
    (b ∈ [CommitBlk.fn, .seal, .bpm, .mem, .boom, .tally] → (∀ w ∈ copy, w.1 < 2 ^ 32) →
      c.commitApply e (b, copy) = (copy.foldl (fun c w => c.commitWord w.1 w.2.toNat) c).setBit (commitBit b).1 (commitBit b).2 false) ∧
    (c.commitsApply e).regs.commits = [])

/-- What control space refuses to a warden core (R26-R29): an access of another width or at an odd address, a hub or region address that no block has,
an S block from the normal world. Nothing changes but the core, which traps with BUS; event 304 is raised where R26-R28 call for a fault log entry. -/
def Obligations.BusErrorAccesses : Prop :=
  ∀ (s : State) (acc : Access) (a width : Nat) (wr : Option Word), acc.who < 8 → absentAt s.env.part a = false →
    let plain := exec (.busErrorAccess acc a width wr) s =
      .next { s with chip := { s.chip.wardenTrap acc.who 5 (some a) with resp := ⟨0, 0x06⟩ } }
    let logged := exec (.busErrorAccess acc a width wr) s =
      .next { s with chip := { (s.chip.raise 304 0x06 0xFFFF 0 0).wardenTrap acc.who 5 (some a) with resp := ⟨0, 0x06⟩ } }
    (a < 0x20000000 → (width ≠ 4 ∨ a % 4 ≠ 0) → plain) ∧
    (width = 4 → a % 4 = 0 →
      (0xC00000 ≤ a → a < 0x10000000 → logged) ∧
      (0x300000 ≤ a → a < 0x400000 → acc.secure = false → logged) ∧
      (0x10000000 ≤ a → a < 0x20000000 → 0xE00000 ≤ a % 0x4000000 → logged) ∧
      (0x80000000 ≤ a → logged) ∧
      (0x20000000 ≤ a → a < 0x20020000 → acc.secure = false → logged))

/-- The range of an absent unit reads 0 and ignores writes, without error, entry or event: G2 and G3 on a CRN-7064, the Boom block and the squeeze registers on a
CRN-7128S (R5). The debug window is asked where it reaches (R31). -/
def Obligations.AbsentUnitAccesses : Prop :=
  ∀ (s : State) (acc : Access) (a : Nat) (wr : Option Word), acc.who < 8 ∨ s.fuse.lifecycle = .blank ∨ s.fuse.lifecycle = .provisioned →
    (s.env.part = .crn7064 ∧ 0x18000000 ≤ a ∧ a < 0x20000000) ∨ (s.env.part = .crn7128S ∧ 0x600000 ≤ a ∧ a < 0x700000) ∨
      (s.env.part = .crn7128S ∧ 0x10000000 ≤ a ∧ a < 0x20000000 ∧ 0x80003C ≤ a % 0x4000000 ∧ a % 0x4000000 < 0x800040) →
    exec (.absentUnitAccess acc a wr) s = .next { s with chip := { s.chip with resp := ⟨0, 0x00⟩ } }

/-- The debug window (R31): outside BLANK and PROVISIONED, above 0x1FFF_FFFF and at an S block, and where control space would answer BUS_ERROR, an access
is refused with event 303, reads 0, and traps no core; else a register word is read and written as by any accessor. -/
def Obligations.DebugWindowAccesses : Prop :=
  ∀ (s : State) (a width : Nat) (wr : Option Word) (v : Word) (r : RegRow) (i : Nat),
    let refused := exec (.debugWindowAccess a width wr) s = .next { s with chip := { s.chip.raise 303 0 0xFFFF 0 0 with resp := ⟨0, 0x00⟩ } }
    let open_ := s.fuse.lifecycle = .blank ∨ s.fuse.lifecycle = .provisioned
    (¬ open_ ∨ 0x20000000 ≤ a ∨ (0x300000 ≤ a ∧ a < 0x400000) → refused) ∧
    (open_ → a < 0x10000000 → absentAt s.env.part a = false → width ≠ 4 ∨ a % 4 ≠ 0 ∨ 0xC00000 ≤ a → refused) ∧
    (open_ → a < 0x300000 → a % 4 = 0 → findReg a = some (r, i) → r.half = .one →
      exec (.debugWindowAccess a 4 (some v)) s = .next (answer 0 0x00 (regWrite ⟨8, false⟩ r a v.toNat s)))

/-- The two words of a 64-bit register (R30): a read of the low word latches the high one for its accessor, who then reads it from the latch; a write
of the high word is held for its accessor, and the write of the low word commits both. -/
def Obligations.WideRegisterAccesses : Prop :=
  ∀ (s : State) (acc : Access) (lo i j : Nat) (v h : Word) (rl rh : RegRow), acc.who < 8 → lo + 4 < 0x300000 → lo % 4 = 0 →
    findReg lo = some (rl, i) → rl.half = .lo → findReg (lo + 4) = some (rh, j) → rh.half = .hi → lo ≠ Reg.rcuTickStepLo →
    let key := acc.who * 2 ^ 32 + lo
    let hold := fun (t : State) (w : Option Word) => { t with chip := { t.chip with regs := { t.chip.regs with
      wrHold := Tab.set (fun _ => none) t.chip.regs.wrHold key w } } }
    exec (.reg64HighWrite acc (lo + 4) h) s = .next (answer 0 0x00 (hold s (some (BitVec.ofNat 32 h.toNat)))) ∧
    (Tab.get (fun _ => none) s.chip.regs.wrHold key = some h →
      exec (.reg64LowWrite acc lo v) s = .next (answer 0 0x00 (plainWrite rl lo v.toNat (plainWrite rh (lo + 4) h.toNat (hold s none))))) ∧
    (Tab.get (fun _ => none) s.chip.regs.wrHold key = none →
      exec (.reg64LowWrite acc lo v) s = .next (answer 0 0x00 (plainWrite rl lo v.toNat (plainWrite rh (lo + 4) (regView s rh (lo + 4)) (hold s none))))) ∧
    (∃ t, exec (.reg64LowRead acc lo) s = .next t ∧ t.chip.resp.data = BitVec.ofNat 32 (regView s rl lo) ∧
      t.chip.regs.rdHold = Tab.set (fun _ => none) s.chip.regs.rdHold key (some (BitVec.ofNat 32 (regView s rh (lo + 4))))) ∧
    (Tab.get (fun _ => none) s.chip.regs.rdHold key = some h → ∃ t, exec (.clearOnRead acc (lo + 4)) s = .next t ∧ t.chip.resp.data = h) ∧
    (∀ acc' : Access, acc'.who ≠ acc.who → acc'.who * 2 ^ 32 + lo ≠ key)

/-- The identity registers read as the part and its stepping say (R4, R32, R33, R34), from every warden core and both worlds. -/
def Obligations.IdentityRegisters : Prop :=
  ∀ (s : State) (acc : Access), acc.who < 8 →
    let reads := fun (a : Nat) (v : Nat) => ∃ t, exec (.clearOnRead acc a) s = .next t ∧ t.chip.resp = ⟨BitVec.ofNat 32 v, 0x00⟩
    reads Reg.idPart (match s.env.part with | .crn7128 => 0x00007128 | .crn7128S => 0x00017128 | .crn7064 => 0x00007064) ∧
    reads Reg.idStep 0x00000011 ∧
    reads Reg.capUnits (match s.env.part with | .crn7128 => 0x0000FFFF | .crn7128S => 0x0000F00F | .crn7064 => 0x00007F33) ∧
    reads Reg.capScale 0x08159B00

/-! The tick, the calendars, reads and the map. -/

/-- TICK_BOUNDARY (R48, R21): in reset and after a boot failure the tick number goes on and nothing else happens; while the controller runs, the lanes'
portions of the tick that ends come first, then the tick number goes on, the commits take effect, and the hub, the calendar, the bindings, the mapping
engine, the Boom ports and the event router follow in this order. -/
def Obligations.TickBoundary : Prop :=
  ∀ s : State,
    (s.chip.rcu.phase ≠ .ready → s.chip.rcu.phase ≠ .hold → s.chip.fn.dlogOut = [] →
      exec .tickBoundary s = .next { s with chip := { s.chip with time := ⟨s.chip.time.tick + 1, 0, 200, false⟩ } }) ∧
    (s.chip.rcu.phase = .ready ∨ s.chip.rcu.phase = .hold → s.chip.obs.restart = false →
      let lanes := if s.chip.held then s.chip else s.chip.lanePortions s.env
      lanes.obs.restart = false → lanes.regs.commits = [] → (s.env.part.full = false ∨ lanes.bit Reg.boomCtrl 0 = false) →
      let opened : Chip := { lanes with time := ⟨lanes.time.tick + 1, 0, 200, true⟩ }
      let hub := (opened.restartsEnd).hubBoundary s.env s.fuse.kill
      let flash := (((hub.calBoundary).applyChanges).unboundItems s.env).flashBoundary s.env
      let last := ((flash.boomBoundary s.env).sendEvents).settle s.env
      exec .tickBoundary s = .next (flushDlog { s with chip := { last with time := { last.time with opening := false } } }))

/-- The timed ends of the die state table (R56): SUSPENDING becomes SUSPENDED, RESUMING becomes RUN_LOCK or, with the suspends spent, RUN_SPENT, RUN_LOCK
becomes RUN_OPEN, READING becomes IDLE or SUSP_READING SUSPENDED; what ended leaves its completion record, and the entry that is due issues.
A status poll that is due (R110, R111): with the LUN ready and its array idle the operation has ended, with OK or with the failure of its kind; while
it is busy the poll is due again. -/
def Obligations.DieTimersAndPolls : Prop :=
  (∀ (s : State) (die : Nat) (o : RunningOp) (x : CalEntry),
    let c := s.chip
    let d := c.die die
    let ends := fun (i : Instr) (d' : Die) (rs : List CplRec) =>
      exec i s = .next { s with chip := (((rs.foldl (fun c r => c.enqueueCpl r) (c.setDie die d')).pass).issueDue die) }
    d.till ≤ c.tick →
      (d.phase = .suspending → d.op = some o →
        ends (.suspendDone die) { d with phase := .suspended } [⟨die, .suspend, 0x00, o.job, c.stamp, false⟩]) ∧
      (d.phase = .resuming → d.op = some o → d.suspN < (c.fig d.opMode).smax →
        ends (.resumeDone die) { d with phase := .runLock, till := c.tick + (c.fig d.opMode).lmin } [⟨die, .resume, 0x00, o.job, c.stamp, false⟩]) ∧
      (d.phase = .resuming → d.op = some o → (c.fig d.opMode).smax ≤ d.suspN →
        ends (.resumeDone die) { d with phase := .runSpent } [⟨die, .resume, 0x00, o.job, c.stamp, false⟩]) ∧
      (d.phase = .runLock → ends (.lockEnd die) { d with phase := .runOpen } []) ∧
      (d.phase = .reading → d.op = none → d.reading = some x → x.kind = .read → x.peer = false → 4 < x.cls →
        exec (.arrayReadEnd die) s = .next { s with chip := ((((c.pageRead die).setDie die { d with phase := .idle, reading := none }).enqueueCpl
          ⟨die, .read, 0x00, x.job, c.stamp, false⟩).pass).issueDue die }) ∧
      (d.phase = .suspReading → d.reading = some x → x.kind = .read → x.peer = false → 4 < x.cls →
        exec (.arrayReadEnd die) s = .next { s with chip := ((((c.pageRead die).setDie die { d with phase := .suspended, reading := none }).enqueueCpl
          ⟨die, .read, 0x00, x.job, c.stamp, false⟩).pass).issueDue die })) ∧
  (∀ (s : State) (die : Nat) (st : Byte) (o : RunningOp), s.chip.pollDue die = true → st.getLsbD 7 = true →
    let c := (s.chip.setReg (Reg.chLastStat (die / 32)) (die % 32 * 256 + st.toNat)).pass
    let d := c.die die
    d.op = some o → d.phase = .runOpen ∨ d.phase = .runLock ∨ d.phase = .runSpent →
      (st.getLsbD 6 = true → st.getLsbD 5 = true → st.getLsbD 0 = false → st.getLsbD 1 = false →
        exec (.statusPoll die st) s = .next (goesOn s (((c.setDie die { d with op := some { o with ended := true } }).enqueueCpl
          ⟨die, o.kind, 0x00, o.job, c.stamp, false⟩).issueDue die))) ∧
      (st.getLsbD 6 = false ∨ st.getLsbD 5 = false →
        exec (.statusPoll die st) s = .next (goesOn s (c.setDie die { d with nextPoll := c.pollNext die o }))))

/-- A collector grant (R82) serves the first channel with a record, searching from the one after the channel last served and wrapping; the record that
entered its queue first moves.
The calendar master takes the oldest delivered record (R57, R152): a suspend's or resume's is only taken; that of an erase that passed makes its die
idle and counts the block's erase; a die whose operation has no completion two ticks after its booked end fails.
Plans and shedding (R49, R50, R79): a plan that ends in time makes the tick after next one that has a plan, an abandoned one does not; the third
hold tick of a run, and each later one, starts 16 ticks of shedding, which end with the last of them. -/
def Obligations.CompletionsAndPlans : Prop :=
  (∀ (s : State) (k : Nat) (r : CplRec) (rest : List CplRec), s.chip.cal.collRestarting = false →
    let q := fun (n : Nat) => Tab.get (fun _ => []) s.chip.cal.queues n
    let far := fun (n : Nat) => (n + 127 * (s.chip.cal.ptr + 1)) % 128
    k < 32 * s.env.part.regions → q k = r :: rest → (∀ n < 32 * s.env.part.regions, far n < far k → q n = []) →
    exec .collectorGrant s = .next { s with chip := { s.chip with cal := { s.chip.cal with
      queues := Tab.set (fun _ => []) s.chip.cal.queues k rest
      delivered := s.chip.cal.delivered ++ [r]
      ptr := k } } }) ∧
  (∀ (s : State) (r : CplRec) (rest : List CplRec) (o : RunningOp) (die b : Nat),
    let c := s.chip
    let taken : Chip := { c with cal := { c.cal with delivered := rest } }
    (c.cal.delivered = r :: rest → r.kind = .suspend ∨ r.kind = .resume → exec .completionCollected s = .next (goesOn s taken)) ∧
    (c.cal.delivered = r :: rest → r.kind = .erase → r.code = 0x00 → (taken.die r.die).op = some o → o.job = r.job → o.ended = true →
      o.owner = .erase die b → (taken.die r.die).phase = .runOpen →
      let idle := taken.setDie r.die { taken.die r.die with op := none, phase := .idle }
      exec .completionCollected s = .next (goesOn s ((idle.setBlk die b { idle.blk die b with
        erased := true
        erases := (idle.blk die b).erases + 1
        inUse := false }).issueDue r.die))) ∧
    ((c.die die).op = some o → (c.die die).phase = .runOpen ∨ (c.die die).phase = .runLock ∨ (c.die die).phase = .runSpent → o.ends + 2 ≤ c.tick →
      c.noRecord die o.job = true →
      exec (.dieTimeout die) s = .next (goesOn s (((c.orReg (Reg.chFault (die / 32)) (2 ^ 5)).raise (die / 32) 0x09 0xFFFF 0 0).failDie s.env die)))) ∧
  (∀ (s : State) (cycle : Nat), s.chip.modelsRun = false →
    let c := s.chip
    let planned : Chip := { c with
      time := { c.time with cyc := cycle }
      cal := { c.cal with
        planDone := true
        committed := c.cal.committed ++ [c.tick + 2] } }
    (c.planOpen cycle = true → c.held = true →
      let d := ((planned.setFld Reg.calPlanWin 15 8 cycle).raiseTo Reg.calPlanWin 23 16 cycle).tally 40 cycle
      (d.nandStep s.env).modelsRun = false → ((d.nandStep s.env).settle s.env).modelsRun = false →
      exec (.planCommit cycle) s = .next (goesOn s (d.nandStep s.env))) ∧
    (c.bit Reg.calCtrl 0 = true → c.cal.planDone = false →
      let d := (({ c with cal := { c.cal with planDone := true } } : Chip).pass).nandStep s.env
      d.modelsRun = false → exec .planAbandon s = .next { s with chip := d }) ∧
    (c.cal.hold = true → 3 ≤ c.cal.holdRun →
      exec .shedStart s = .next { s with chip := { c with cal := { c.cal with
        shedding := true
        shedTill := c.tick + 17 } } }) ∧
    (c.cal.shedding = true → c.cal.shedTill ≤ c.tick →
      exec .shedEnd s = .next { s with chip := { c with cal := { c.cal with shedding := false } } }))

/-- Admission (R72, R86): a test changes no contract; a bind that passes binds it, one that fails changes none; a release takes the contract away and,
where there is none, completes with BAD_DESCRIPTOR. The result register names the namespace, T and the status.
What an admission tests (R72, R86): it is refused with CONTRACT_REFUSED when the contracts' depths come to more than 14 or one of them, the new one
included, has a T above its class; the order of the other refusals is that of their codes. -/
def Obligations.Admission : Prop :=
  (∀ (s : State) (nsid q cls modes : Nat) (nowait : Bool), nsid < 1024 → q < 16 → cls < 8 → modes < 8 →
    let c := s.chip
    let asked := fun (op q cls modes : Nat) (nowait : Bool) =>
      c.setReg Reg.calAdmitReq (nsid * 2 ^ 16 + op * 2 ^ 12 + q * 2 ^ 8 + (if nowait then 128 else 0) + modes * 2 ^ 4 + cls)
    let answers := fun (d : Chip) (n t st : Nat) =>
      (d.setReg Reg.calAdmitRes (2 ^ 31 + n % 1024 * 65536 + Nat.min 255 t * 256 + st)).setBit Reg.calAdmitReq 31 false
    let tested := (asked 0 q cls modes nowait).admitCheck s.env ⟨nsid, cls, q, nowait, modes⟩
    let binding := asked 1 q cls modes nowait
    let bound := binding.admitCheck s.env ⟨nsid, cls, q, nowait, modes⟩
    exec (.calAdmitTest nsid q nowait modes cls) s = .next { s with chip := answers (asked 0 q cls modes nowait) tested.1 tested.2.1 tested.2.2 } ∧
    (bound.2.2 ≠ 0x00 → exec (.calAdmitBind nsid q nowait modes cls) s = .next { s with chip := answers binding bound.1 bound.2.1 bound.2.2 }) ∧
    (bound.2.2 = 0x00 → exec (.calAdmitBind nsid q nowait modes cls) s =
      .next { s with chip := answers (binding.setContract nsid (some ⟨cls, q, nowait, modes, bound.2.1, c.stamp, 0, 0, 0⟩)) bound.1 bound.2.1 0x00 }) ∧
    (c.contract nsid = none → exec (.calAdmitRelease nsid) s = .next { s with chip := answers (asked 2 0 0 0 false) nsid 0 0x05 }) ∧
    (c.contract nsid ≠ none → exec (.calAdmitRelease nsid) s = .next { s with chip := answers ((asked 2 0 0 0 false).setContract nsid none) nsid 0 0x00 })) ∧
  (∀ (c : Chip) (e : Env) (b : Bound),
    let all := c.bounds.filter (fun x => x.nsx != b.nsx) ++ [b]
    let k := kOf (c.fld Reg.calFloor 1 0)
    let late := fun (x : Bound) => classTicks x.cls < termT c.fig k all x
    let st := (c.admitCheck e b).2.2
    (5 ≤ b.cls → st = 0x05) ∧
    (b.cls < 5 → (∀ m ∈ modesOf b.modes, (c.fig m).inuse = true) →
      (b.q = 0 ∨ b.modes = 0 → st = 0x02) ∧
      (b.q ≠ 0 → b.modes ≠ 0 → 15 ≤ b.q → st = 0x03) ∧
      (b.q ≠ 0 → b.modes ≠ 0 → b.q < 15 → (14 < termN all ∨ (∃ x ∈ all, late x)) → st = 0x0E) ∧
      (st = 0x00 → termN all ≤ 14 ∧ ∀ x ∈ all, termT c.fig k all x ≤ classTicks x.cls)))

/-- Writes of CAL_FLOOR, CAL_NRG_BUDGET and CAL_DBG_SEL (R54, R85, R109): a value that fails its test is ignored and REFUSED is set, one that passes
goes to the staging copy; the debug view takes the four words of the chosen entry in one cycle.
Requests through CAL_MAINT (R504, R505): one that is written while another runs changes nothing; an absent channel, a tick too near, an empty plane
mask and a fenced die refuse it with their codes; one that finds its tick is booked there as an entry of the die, and runs. -/
def Obligations.CalendarRegisters : Prop :=
  (∀ (s : State) (acc : Access) (v : Word) (x : CalEntry), acc.who < 8 →
    let c := s.chip
    let pt := v.toNat % 4
    let budget := v.toNat % 2 ^ 24
    (v.getLsbD 8 = false → c.floorOk c.fig pt = true → exec (.calFloorWrite acc v) s =
      .next { s with chip := c.setStg Reg.calFloor (putBits (c.stgReg Reg.calFloor) 1 0 pt) }) ∧
    (v.getLsbD 8 = false → c.floorOk c.fig pt = false → exec (.calFloorWrite acc v) s = .next { s with chip := c.setBit Reg.calFloor 8 true }) ∧
    (v.getLsbD 31 = false → budgetFloor c.stgFig c.stgNrg ≤ budget → exec (.calNrgBudgetWrite acc v) s =
      .next { s with chip := c.setStg Reg.calNrgBudget (putBits (c.stgReg Reg.calNrgBudget) 23 0 budget) }) ∧
    (v.getLsbD 31 = false → budget < budgetFloor c.stgFig c.stgNrg → exec (.calNrgBudgetWrite acc v) s =
      .next { s with chip := c.setBit Reg.calNrgBudget 31 true }) ∧
    ((c.die (v.toNat % 4096)).entryAt (v.toNat / 4096 % 32) = some x → exec (.calDbgSelWrite acc v) s =
      let w0 := x.tick % 4096 + x.kind.code * 2 ^ 12 + x.cls % 8 * 2 ^ 16 + b2n x.nowait * 2 ^ 19 + b2n x.peer * 2 ^ 20 + x.suspN % 8 * 2 ^ 21 +
        x.fn % 256 * 2 ^ 24
      let w1 := v.toNat % 4096 + Nat.min 4095 x.dur * 2 ^ 12 + Nat.min 255 x.dl * 2 ^ 24
      let d := ((c.setReg Reg.calDbgSel (v.toNat % 2 ^ 17)).setReg (Reg.calDbgE 0) w0).setReg (Reg.calDbgE 1) w1
      .next { s with chip := (d.setReg (Reg.calDbgE 2) (x.buf % 2 ^ 32)).setReg (Reg.calDbgE 3) (x.job % 2 ^ 24 + x.planes % 64 * 2 ^ 24) })) ∧
  (∀ (s : State) (die planes ahead kind : Nat) (exact : Bool) (buf : Word) (i : Instr),
    (kind, i) ∈ [(1, Instr.calMaintRead die planes ahead exact buf), (3, .calMaintErase die planes ahead exact),
      (6, .calMaintMaintenance die planes ahead exact buf)] →
    let c := s.chip
    let word := if kind = 3 then c.reg Reg.calMaintBuf else buf.toNat
    let c0 := ((c.setReg Reg.calMaintCtrl (b2n exact * 2 ^ 22 + planes % 64 * 2 ^ 16 + kind * 2 ^ 12 + die % 4096)).setReg Reg.calMaintTick
      (ahead % 4096)).setReg Reg.calMaintBuf word
    let stops := fun (st : Nat) => exec i s = .next { s with chip := c0.setReg Reg.calMaintStat st }
    let tr := maxNat ((inUseModes c.fig).map (fun m => (c.fig m).tr))
    let m := if kind = 3 then c.maintMode else 0
    let dur := if kind = 3 then (c.fig m).tbers else tr
    let ei := maxNat ((inUseModes c.fig).map (fun m => (c.nrg m (if kind = 3 then 2 else 0)).1))
    let er := maxNat ((inUseModes c.fig).map (fun m => (c.nrg m (if kind = 3 then 2 else 0)).2))
    let t := Nat.max (c.tick + ahead) c.reach
    (c.bit Reg.calMaintStat 8 = true → exec i s = .next s) ∧
    (c.bit Reg.calMaintStat 8 = false →
      (s.env.chanPresent (die / 32) = false → stops 0x04) ∧
      (s.env.chanPresent (die / 32) = true → ahead < 2 → stops 0x05) ∧
      (s.env.chanPresent (die / 32) = true → 2 ≤ ahead → planes % 64 = 0 → stops 0x02) ∧
      (s.env.chanPresent (die / 32) = true → 2 ≤ ahead → planes % 64 ≠ 0 → c.dieFenced die = true → stops 0x87) ∧
      (s.env.chanPresent (die / 32) = true → 2 ≤ ahead → planes % 64 ≠ 0 → c.dieFenced die = false →
        (exact = true → c.tick + ahead < c.reach → stops 0x01) ∧
        (∀ n, (exact = true → c.reach ≤ c.tick + ahead) → (c.die die).hasEntry false = true →
          c.maintSlot die dur ei er (if kind = 1 then 4 else 0) (kind == 3) (if exact then 1 else c.tick + horizon - t) t (c.dieAt die t) = some n →
          ∃ (u : State) (x : CalEntry), exec i s = .next u ∧ x.tick = n ∧ x.dur = dur ∧ x.planes = planes % 64 ∧ x.job = c.cal.nextJob ∧ x.cls = 7 ∧
            x.kind = (if kind = 1 then .read else if kind = 3 then .erase else .maint) ∧
            (let d := ((c0.setDie die ((c0.die die).addEntry x)).bookEnergy n dur ei er).setReg Reg.calMaintStat 256
             u = { s with chip := { d with cal := { d.cal with
              nextJob := (c.cal.nextJob + 1) % 2 ^ 24
              maint := some (c.cal.nextJob, die, exact) } } })))))

/-- Reads (R65, R71, R133, R138, R142, R144): a contracted read waits while its contract's depth is used up; a read whose sectors all lie in the landing
or hold no data is resolved at once; Die Busy is posted a tick after acceptance; a codeword that HARD corrects is counted and its sector ends with OK,
one that it does not correct goes to the soft lane, a tag mismatch is queued for rewrite, logged and ends with code 0x81; the XOR of a reconstruct ends
the sectors with OK or DEC_UNCORR; a pop of the rewrite queue answers its oldest entry.
Scans (R148): the first sample of a closed cord block reads one codeword of each wordline group and of the last row on each of its 16 members, and
stamps the block; a patrol, after it, one codeword of each wordline group of a member. -/
def Obligations.ReadsDecodesAndScans : Prop :=
  (∀ (s : State) (id sect bits k : Nat) (x : Item) (n : Ns) (j : CalJob) (q : SectJob) (acc : Access) (r : Rewrite) (rest : List Rewrite),
    let c := s.chip
    let ready := x.write = false ∧ x.stage = .waiting ∧ c.ftuWaits x.cmd = false ∧ c.cal.restarting = false ∧ c.restartRuns .map = false ∧
      c.bit Reg.calCtrl 0 = true ∧ c.noNewWork = false ∧ n.zoned = true ∧ (n.zone (c.itemZone x).1).firstBusy = false
    let j0 : CalJob := j
    (c.item id = some x → c.ns x.nsx = some n → ready → x.contracted = true → (∃ b, c.contract x.nsx = some b ∧ b.q ≤ c.depthUsed x.nsx) →
      exec (.readAccept id) s = .next (goesOn s c)) ∧
    (c.item id = some x → c.ns x.nsx = some n → ready → x.contracted = false → c.map.missq = [] →
      x.nsect ≤ c.firstRun s.env x.nsx x.ltag x.nsect n false → c.readSize s.env x n = 0 →
      (c.itemSrcs s.env x n (c.packAt x.nsx x.ltag n)).contains .rebuild = false → c.firstRun s.env x.nsx x.ltag x.nsect n false = x.nsect →
      exec (.readAccept id) s = .next (goesOn s ((c.updItem id (fun y => { y with buffers := [] })).resolveRead s.env id n))) ∧
    (c.item id = some x → x.stage = .flash → x.status = itBusy → x.accept + 1 ≤ c.tick →
      exec (.dieBusyPost id) s = .next (goesOn s ((c.updItem id (fun y => { y with hint := y.hint - c.tick })).endItem s.env id itBusy 0 0))) ∧
    (c.job id = some j → j.sects.find? (fun y => y.sect == sect) = some q → c.canDecode j q = true → q.step = 0 → q.soft = false →
      (bits ≤ c.fld (Reg.decThr (dieCluster j.die)) 7 0 → 0 < c.fld (Reg.decThr (dieCluster j.die)) 9 8 →
        exec (.codewordDecode id sect (.corrected bits)) s =
          .next (goesOn s ((c.countCodeword (dieCluster j.die) 0 0 bits).sectDone s.env j.id q.sect 0x00 bits))) ∧
      (c.bit (Reg.decCtrl (dieCluster j.die)) 5 = false →
        exec (.codewordDecode id sect .failed) s = .next (goesOn s (c.updJob j.id (fun y => { y with
          sects := updateWhere (fun z => z.sect == q.sect) (fun z => { z with step := 1, soft := true, hardTick := c.tick }) y.sects })))) ∧
      (j.parityMember = false → j.parent = none →
        exec (.codewordDecode id sect .tagMismatch) s = .next (goesOn s
          ((((c.countCodeword (dieCluster j.die) 0 0 0).rewriteJob j 4 0 0).raise 320 0x81 j.fn (j.die + c.jobBlock j * 4096) 0).sectDone
            s.env id sect 0x81 0)))) ∧
    (∀ ok : Bool, c.job id = some j0 → c.peersReady j0 = true → j0.sects = [q] → q.done = none →
      exec (.reconstructXor id ok) s = .next (goesOn s (((c.endRecon id).updJob id (fun y => { y with waiting := false, read := true })).sectDone
        s.env id q.sect (if ok then 0x00 else 0x80) 0))) ∧
    (acc.who < 9 → k < 8 * s.env.part.regions → (c.dec k).queue = r :: rest →
      let d := (c.setDec k { c.dec k with queue := rest }).planRewrite r
      exec (.rewriteQueuePop acc k) s = .next { s with chip := { d with
        resp := ⟨BitVec.ofNat 32 (r.word % 2 ^ 32), 0x00⟩
        regs := { d.regs with rdHold := Tab.insert d.regs.rdHold (acc.who * 2 ^ 32 + Reg.decRwqLo k) (some (BitVec.ofNat 32 (r.word / 2 ^ 32))) } } }) ∧
    (k < 8 * s.env.part.regions → bits < 16 → exec (.decLaneFence k bits) s = .next (goesOn s (c.orReg (Reg.decCtrl k) (bits * 2))))) ∧
  (∀ (s : State) (cord cblk m : Nat) (b : CordBlk), s.chip.cblk cord cblk = some b → s.chip.noNewWork = false → s.chip.cblkQuiet cord cblk = true →
    let c := s.chip
    let stamp := Tab.get (fun _ => 0) c.map.sampled (cord * 65536 + cblk)
    let firsts := (List.range b.groups).map (fun g => g * rpwOf b.mode)
    (0 < b.groups → stamp = 0 →
      let d := (List.range 16).foldl (fun c k => (firsts ++ [b.groups * rpwOf b.mode - 1]).foldl (fun c r => c.scanRead b k r) c) c
      exec (.firstSampleScan cord cblk) s = .next { s with chip := { d with map := { d.map with
        sampled := Tab.set (fun _ => 0) d.map.sampled (cord * 65536 + cblk) (c.tick + 1) } } }) ∧
    (m < 16 → stamp ≠ 0 → exec (.patrolRead cord cblk m) s = .next { s with chip := firsts.foldl (fun c r => c.scanRead b m r) c }) ∧
    (∀ row, ∃ j, (c.scanRead b m row).cal.jobs = c.cal.jobs ++ [j] ∧ j.owner = .maint ∧ j.die = (b.members.getD m (0, 0)).1 ∧ j.row = row ∧
      j.contracted = false ∧ j.sects.length = 1))

/-- Channel engines (R88, R91-R93, R121): START begins the bring-up of a declared channel that is OFF; training that every chip enable passes at the
declared rate leaves it RUNNING at that rate; one that has not ended after 25,000 ticks fails with TRAIN_FAIL; a channel told to fence shows FENCE.
Rows and lost pages (R159, R162, R164): a group that is due is padded; the first lost page of a row is noted, a second one in the row loses it; a
rebuild leaves the row with nothing lost. -/
def Obligations.ChannelsRowsAndPages : Prop :=
  (∀ (s : State) (n : Nat) (best : List Nat),
    let c := s.chip
    let luns := c.fld (Reg.chCfg n) 15 12
    let rate := c.fld (Reg.chCfg n) 22 20
    (c.held = false → s.env.chanPresent n = true → (c.chan n).phase = .off → 1 ≤ luns → luns ≤ 8 → c.declaredCe n ≠ [] → c.map.grown = [] →
      exec (.chStart n) s = .next { s with chip := c.updChan n (fun x => { x with
        phase := .bringup
        started := c.tick }) }) ∧
    ((c.chan n).phase = .bringup → (c.chan n).ceFenced = 0 → c.declaredCe n = [0] → rate < 7 → 3 ≤ rate → best = [rate + 1] →
      exec (.bringupEnd n best) s = .next (goesOn s (((c.updChan n (fun x => { x with
        phase := .running
        rateNow := rate
        extNow := c.bit (Reg.chCfg n) 19 })).bringDies s.env n).setEyes n 0))) ∧
    ((c.chan n).phase = .bringup → (c.chan n).started + 25000 ≤ c.tick →
      exec (.bringupTimeout n) s = .next (goesOn s ((c.fenceChan s.env n true).updChan n (fun x => { x with detail := 0x85 })))) ∧
    (s.env.chanPresent n = true → (c.chan n).phase = .running →
      exec (.chFence n) s = .next (goesOn s ((c.setBit (Reg.chCtrl n) 1 true).fenceChan s.env n false))) ∧
    (s.env.chanPresent n = true → (c.chan n).phase = .off → exec (.chFence n) s = .next (goesOn s (c.setBit (Reg.chCtrl n) 1 true)))) ∧
  (∀ (s : State) (id row plane : Nat) (slot : Nat) (g : Group), s.chip.group id = some g →
    let c := s.chip
    (c.padDue g = true → exec (.groupPad id) s = .next (goesOn s (c.padNow s.env id true).2)) ∧
    ((g.pages.any (fun p => p.row == row && p.slot == slot && p.plane == plane && !p.passed)) = true → g.pageLost row (some slot) plane = false →
      g.plRows.contains row = false →
      let lost := c.updGroup id (fun y => { y with lost := y.lost ++ [(row, some slot, plane)] })
      ((∀ l ∈ g.lost, l.1 ≠ row) → exec (.pageLoss id row (some slot) plane) s = .next (goesOn s lost)) ∧
      ((∃ l ∈ g.lost, l.1 = row) → exec (.pageLoss id row (some slot) plane) s = .next (goesOn s (lost.parityLost s.env id row)))) ∧
    exec (.pageRebuildDone id row) s = .next (goesOn s (c.updGroup id (fun y => { y with lost := y.lost.filter (fun l => l.1 != row) }))))

/-- The map (R175-R187): a pin beyond the limit is refused with LIMIT and one of a zoned namespace with BAD_DESCRIPTOR, an accepted one pins the pages; an
unpin ends it; a fetch that has ended applies the entries that were held for the page. The bad block table shows an entry, takes one with CAUSE 4 and
gives one up in PROVISIONED; collection moves a sector only from the cord's victim under pressure, refresh only what is queued or too old. -/
def Obligations.MappingEngine : Prop :=
  ∀ (s : State) (nsx page idx nsx' ltag cord cblk : Nat) (n : Ns) (g : Grown) (w0 w1 w2 w3 : Word) (l : Loc) (b : CordBlk) (r : Refresh) (x : Cord),
    let c := s.chip
    let asked := fun (un : Nat) => c.setReg Reg.mapPinCtrl (2 ^ 31 + un * 2 ^ 30 + nsx * 2 ^ 16)
    let pinEnd := fun (d : Chip) (st : Nat) => (d.setFld Reg.mapPinCtrl 15 8 st).setBit Reg.mapPinCtrl 31 false
    let bbtEnd := fun (d : Chip) (st : Nat) => (d.setFld Reg.mapBbtStat 7 0 st).setBit Reg.mapBbtCmd 31 false
    let bbt := fun (op : Nat) => ((c.setFld Reg.mapBbtIdx 22 0 idx).setFld Reg.mapBbtCmd 30 28 op).setBit Reg.mapBbtCmd 31 true
    (nsx < 1024 → c.bit Reg.mapPinCtrl 31 = false →
      (c.ns nsx = none → exec (.mapPin nsx) s = .next { s with chip := pinEnd (asked 0) 0x05 }) ∧
      (c.ns nsx = some n → n.zoned = true → exec (.mapPin nsx) s = .next { s with chip := pinEnd (asked 0) 0x05 }) ∧
      (c.ns nsx = some n → n.zoned = false → nsx ∉ c.map.pinned → c.pinLimit < c.pinnedSlots (fun _ => true) + pagesIn n.size →
        exec (.mapPin nsx) s = .next { s with chip := pinEnd (asked 0) 0x03 }) ∧
      (c.ns nsx = some n → c.pinCheck nsx = 0x00 → exec (.mapPin nsx) s = .next { s with chip := ((asked 0).pinNs nsx).pinSettle }) ∧
      (c.ns nsx = some n → n.zoned = false → nsx ∈ c.map.pinned → exec (.mapUnpin nsx) s = .next { s with chip := pinEnd ((asked 1).unpinNs nsx) 0x00 }) ∧
      (nsx ∉ c.map.pinned → exec (.mapUnpin nsx) s = .next { s with chip := pinEnd (asked 1) 0x05 })) ∧
    ((c.mslot page).state = .fetching → (c.mslot page).read = true → (∀ j ∈ c.cal.jobs, j.owner ≠ .mapFetch page) →
      exec (.mapFetchDone page) s = .next (goesOn s (((((c.mslot page).held.foldl (fun c h => c.applyEntry h.1 h.2) c).setMslot page { c.mslot page with
        state := if (c.mslot page).held = [] then .clean else .dirty
        held := []
        read := false })).pinSettle))) ∧
    (c.map.bbtWait = none →
      ((bbt 0).fld Reg.mapBbtIdx 22 0 = idx → (bbt 0).fld Reg.mapBbtCmd 30 28 = 0 → c.map.grown[idx]? = some g →
        exec (.bbtRead idx) s = .next { s with chip := bbtEnd (((((bbt 0).setReg (Reg.mapBbtE 0) (g.die + g.planes * 2 ^ 12 + g.cause * 2 ^ 18)).setReg
          (Reg.mapBbtE 1) g.block).setReg (Reg.mapBbtE 2) (g.time % 2 ^ 32)).setReg (Reg.mapBbtE 3) (g.time / 2 ^ 32 % 2 ^ 32)) 0x00 }) ∧
      ((bbt 2).fld Reg.mapBbtIdx 22 0 = idx → (bbt 2).fld Reg.mapBbtCmd 30 28 = 2 →
        (s.fuse.lifecycle ≠ .provisioned → exec (.bbtRemove idx) s = .next { s with chip := bbtEnd (bbt 2) 0x11 }) ∧
        (s.fuse.lifecycle = .provisioned → c.map.grown[idx]? = some g → 5 < g.cause →
          exec (.bbtRemove idx) s = .next { s with chip := bbtEnd { bbt 2 with map := { (bbt 2).map with grown := c.map.grown.eraseIdx idx } } 0x00 })) ∧
      (let d := ((((((c.setReg (Reg.mapBbtE 0) w0.toNat).setReg (Reg.mapBbtE 1) w1.toNat).setReg (Reg.mapBbtE 2) w2.toNat).setReg
          (Reg.mapBbtE 3) w3.toNat).setFld Reg.mapBbtCmd 30 28 1).setBit Reg.mapBbtCmd 31 true)
       let y := grownOf (d.reg (Reg.mapBbtE 0)) (d.reg (Reg.mapBbtE 1)) (d.reg (Reg.mapBbtE 2)) (d.reg (Reg.mapBbtE 3))
       d.fld Reg.mapBbtCmd 30 28 = 1 →
         (y.cause ≠ 4 → exec (.bbtAdd w0 w1 w2 w3) s = .next (goesOn s (bbtEnd d 0x05))) ∧
         (y.cause = 4 → (∀ b ∈ c.map.cblks, (y.die, y.block) ∉ b.members) →
           exec (.bbtAdd w0 w1 w2 w3) s = .next (goesOn s ((bbtEnd { d with map := { d.map with
             grown := c.map.grown ++ [y]
             bbtWait := none } } 0x00).retireCheck s.env y.die))))) ∧
    (c.cord l.cord = some x → c.victim s.env l.cord = some b → (b.idx ≠ l.cblk ∨ c.gcLevel s.env x = 0) →
      exec (.gcMoveCommit nsx' ltag l) s = .next (goesOn s c)) ∧
    (∀ d, c.cord l.cord = some x → c.victim s.env l.cord = some b → b.idx = l.cblk → c.gcLevel s.env x ≠ 0 → c.noNewWork = false →
      (c.flashAt l).nsx = nsx' → (c.flashAt l).ltag = ltag → c.flashAt l ≠ Stored.none → ¬ bitOf (c.flashAt l).flags 0 = true →
      c.moveSector s.env b l = some d → exec (.gcMoveCommit nsx' ltag l) s = .next (goesOn s (d.eraseVictim s.env b))) ∧
    (c.cblk cord cblk = some b → c.refreshOf s.env b = none → exec (.refreshMove cord cblk []) s = .next (goesOn s c)) ∧
    (c.cblk cord cblk = some b → c.refreshOf s.env b = some r → c.noNewWork = false → c.refreshWaits r = false → c.refreshFirst r = true →
      (b.conventional = true → exec (.refreshMove cord cblk []) s = .next (goesOn s (c.refreshConv s.env b r))) ∧
      (b.conventional = false → b.cls = .host → exec (.refreshMove cord cblk []) s = .next (goesOn s (c.refreshZone s.env b r))))

/-! Invocations, programs and bindings. -/

/-- An invocation begins and is cut off (R189, R191-R195, R23, R194): a free core that runs the entry takes the items that come first, with fresh
registers, the pc at the entry, 128 cycles counted, and the item records and the binding's state as they are; one that has reached 4,096 cycles is
aborted, its items wait again, its core is fenced and hub core 7 covers for a cluster's. -/
def Obligations.InvocationsBeginAndAreCutOff : Prop :=
  ∀ (s : State) (k slot entry b : Nat) (ids : List Nat) (p : Program) (x : Item) (g : Binding) (v : Invocation),
    let c := s.chip
    let inv : Invocation := ⟨slot, entry, ids, some b, c.stamp, 128, [], (ids.filterMap c.item).flatMap (c.itemRecord entry), g.state,
      (ids.filterMap c.item).map (fun _ => ItemFx.none), [], []⟩
    let started := c.setKcore k { c.kcore k with
      core := KCore.fresh (p.entries.getD entry 0)
      inv := some inv }
    (8 * s.env.part.regions ≤ k → 32 ≤ k) → (c.kcore k).fenced = false → coreRuns k entry = true →
      ((c.kcore k).inv = none → c.slotProg slot = some p → p.has entry = true → ids.length ≤ p.batch → (ids.head?).bind c.item = some x →
        c.bindFor x.nsx x.ph = some b → c.binding b = some g → g.slot = slot →
        ids = ((sortBy (fun y => y.id) (c.host.items.filter (c.itemWaits k entry b))).map (fun y => y.id)).take ids.length →
        exec (.invocationDispatch k slot entry ids) s =
          .next (goesOn s (ids.foldl (fun c i => c.updItem i (fun y => { y with stage := .running k })) started).pass)) ∧
      ((c.kcore k).inv = some v → 4096 ≤ v.cycles → k < 32 →
        let ended := c.abortInv k
        let fenced := ended.setKcore k { ended.kcore k with fenced := true }
        let covered := fenced.setKcore 39 { fenced.kcore 39 with covers := insertNat k (fenced.kcore 39).covers }
        exec (.invocationBudgetOverrun k) s = .next (goesOn s ((covered.raise (192 + k) 0 0xFFFF 0 0).excuseAll)))

/-- KRF_LOAD and KRF_UNLOAD (R211, R212, R214): an image that the checks refuse completes with their status, reason and place; one that passes takes the
lowest free slot, and with none free it is LIMIT with reason 8; a slot that a binding names is not unloaded, another one drains and, with its last
invocation ended, is free.
SLOT_DRAIN_DONE and the operations of KRF_BIND_CTRL (R214-R217): a drained slot is free; a bind that a check refuses changes no binding, one that
passes takes effect at the next boundary; an unbind of a bound key likewise, and of another key it is BAD_DESCRIPTOR; a lookup answers the index and
the slot. -/
def Obligations.ProgramSlotsAndBindings : Prop :=
  (∀ (s : State) (slot i : Nat) (p : Program), slot < 64 → s.chip.loadRuns = false →
    let c := s.chip
    let a := c.reg Reg.krfLoadAddr
    let r := checkImage s.env.part.full (Mem.readBytes s.mem.dram (a - 0x40000000) 8224)
    let asked := fun (un : Nat) (slot : Nat) => (c.setReg Reg.krfLoadCtrl (2 ^ 31 + un * 2 ^ 30 + slot % 64)).setReg Reg.krfLoadRes 0
    let ends := fun (d : Chip) (st reason index slot : Nat) =>
      (d.setReg Reg.krfLoadRes (2 ^ 31 + reason % 16 * 2 ^ 24 + index % 1024 * 2 ^ 14 + slot % 64 * 256 + st)).setBit Reg.krfLoadCtrl 31 false
    let c0 := asked 0 (c.fld Reg.krfLoadCtrl 5 0)
    (a % 8 ≠ 0 → exec .krfLoad s = .next { s with chip := ends c0 0x05 0 0 0 }) ∧
    (a % 8 = 0 → 0x40000000 ≤ a → a + 8224 ≤ 0x80000000 →
      (r.prog = none → exec .krfLoad s = .next { s with chip := ends c0 r.status r.reason r.index 0 }) ∧
      (r.prog = some p → (∀ j < 64, c.slotProg j ≠ none) → exec .krfLoad s = .next { s with chip := ends c0 0x03 8 0 0 }) ∧
      (r.prog = some p → i < 64 → c.slotProg i = none → (∀ j < i, c.slotProg j ≠ none) →
        exec .krfLoad s = .next { s with chip := ends (c0.setProg i (some p)) 0x00 0 0 i })) ∧
    (c.slotProg slot = none → exec (.krfUnload slot) s = .next { s with chip := ends (asked 1 slot) 0x05 0 0 0 }) ∧
    (c.slotProg slot = some p → 0 < c.bindsOf slot → exec (.krfUnload slot) s = .next { s with chip := ends (asked 1 slot) 0x05 0 0 0 }) ∧
    (c.slotProg slot = some p → c.bindsOf slot = 0 →
      let d := (asked 1 slot).setProg slot (some { p with draining := true })
      exec (.krfUnload slot) s = .next { s with chip := { d with kerf := { d.kerf with unloading := some slot } } })) ∧
  (∀ (s : State) (nsx ph slot i : Nat), nsx < 1024 → ph < 65536 → slot < 64 →
    let c := s.chip
    let asked := fun (op slot : Nat) =>
      ((c.setReg Reg.krfBindCtrl (op * 2 ^ 29 + nsx * 2 ^ 16 + ph)).setReg Reg.krfBindArg slot).setReg Reg.krfBindRes 0
    let ends := fun (d : Chip) (st index slot : Nat) =>
      (d.setReg Reg.krfBindRes (2 ^ 31 + index % 4096 * 2 ^ 14 + slot % 64 * 256 + st)).setBit Reg.krfBindCtrl 31 false
    let arg := c.fld Reg.krfBindArg 5 0
    let st := c.bindCheck nsx ph slot
    let index := (c.keyIndex nsx ph).getD (kthFree c.bindUsed 0 0)
    (st ≠ 0x00 → exec (.krfBind nsx ph slot) s = .next { s with chip := ends (asked 0 slot) st 0 0 }) ∧
    (st = 0x00 → exec (.krfBind nsx ph slot) s =
      .next { s with chip := ends ((asked 0 slot).addChange ⟨nsx, ph, some slot, index⟩) 0x00 index 0 }) ∧
    (c.keyIndex nsx ph = none → exec (.krfUnbind nsx ph) s = .next { s with chip := ends (asked 1 arg) 0x05 0 0 }) ∧
    (c.keyIndex nsx ph = some i → exec (.krfUnbind nsx ph) s =
      .next { s with chip := ends ((asked 1 arg).addChange ⟨nsx, ph, none, i⟩) 0x00 i 0 }) ∧
    (c.bindIdx nsx ph = none → exec (.krfLookup nsx ph) s = .next { s with chip := ends (asked 2 arg) 0x05 0 0 }) ∧
    (c.bindIdx nsx ph = some i → exec (.krfLookup nsx ph) s =
      .next { s with chip := ends (asked 2 arg) 0x00 i (((c.binding i).map (fun b => b.slot)).getD 0) }) ∧
    (c.kerf.unloading = some slot → (∀ p ∈ c.kerf.cores, ∀ v, p.2.inv = some v → v.slot ≠ slot) →
      let d := c.setProg slot none
      exec (.slotDrainDone slot) s = .next { s with chip := { d with kerf := { d.kerf with unloading := none } }.loadEnd 0x00 0 0 0 }))

/-! Rings, buffers and DRAM. -/

/-- The operations of a descriptor without a key (R253-R255, R269-R271): what each writes at its destination. A squeezed stream that starts anew and
ends, on a part that has the lanes, is written if it fits in OUTMAX and else ends with 0x81; its bytes are DEFLATE's, of which the model fixes only that they expand to the
input (log entry 7).
The operations with a key (R252, R264-R266, R346, R350): XTS over data units under consecutive tweaks; GCM takes the key slot's next counter for an
encryption and writes the tag after the data, and a decryption whose tag does not match writes zeros and ends with 0x82. A key that is not there
stops them with KEY_UNAVAILABLE, with nothing written but the write-back.
A ring's descriptors (R267, R269, R272-R274): the ring whose turn it is fetches its descriptor at HEAD, which runs; one that software still owns
halts the ring; one of length 0, or above 1 MiB, or with a place that is no range of its region is written back with its code; a write-back moves HEAD
on, frees the ring and counts it; RESUME clears HALT. -/
def Obligations.TransformRings : Prop :=
  (∀ (s : State) (g q lane : Nat) (d : Desc) (sp dp : Place) (o : List Byte) (used : Nat) (fin : Bool),
    let c := s.chip
    let src := sp.read s.mem d.len
    let ws := gatherTable s.mem d
    let ps := ws.filterMap (fun w => (gatherPlace s.env c g w).map (fun p => (p, bitsOf w 47 32)))
    let x : QArgs := ⟨g, q, d, sp, dp, [], 0⟩
    let key := c.streamKey s.env x lane
    let fresh : State := { s with chip := c.setStream key Stream.fresh }
    (RingReady s g q 1 d sp dp → exec (.copy g q) s = .next (ringDone s g q d 0 dp src 0)) ∧
    (RingReady s g q 2 d sp dp →
      exec (.fill g q) s = .next (ringDone s g q d 0 dp ((List.range d.len).map (fun i => BitVec.ofNat 8 (d.arg0 / 2 ^ (8 * (i % 8))))) 0)) ∧
    (RingReady s g q 3 d sp dp → gatherBad c d = false → bitsOf d.arg0 40 32 ≠ 0 → bitsOf d.arg0 40 32 ≤ 256 →
      c.dramReadBad (bitsOf d.arg0 31 0 - 0x40000000) (8 * ws.length) = false → gatherStatus s.env c g d.len ws = 0x00 →
      (∀ p ∈ ps, p.1.readBad c p.2 = false) →
      exec (.gather g q) s = .next (ringDone s g q d 0 dp (ps.flatMap (fun p => p.1.read s.mem p.2)) 0)) ∧
    (RingReady s g q 4 d sp dp → bitsOf d.arg0 7 0 = 0 ∨ shufImmOk (bitsOf d.arg0 7 0) = true →
      exec (.tqShuf g q) s = .next (ringDone s g q d 0 dp
        (if d.arg0.testBit 8 = true then unreshape (bitsOf d.arg0 7 0) src else reshape (bitsOf d.arg0 7 0) src) 0)) ∧
    (RingReady s g q 5 d sp dp → d.arg0.testBit 8 = false → d.arg0.testBit 10 = true → bitsOf d.arg0 3 2 = 0 → bitsOf d.arg0 63 11 = 0 → 0 < d.outMax →
      let z := deflate (bitsOf d.arg0 1 0) true [] src
      let used := c.pick (d.len + 1)
      let cut : State := State.put { s with chip := used.2.setStream key Stream.fresh } dp (z.take d.outMax)
      exec (.sqzC g q lane) s = .next (if z.length ≤ d.outMax then ringDone fresh g q d 1 dp z 0
        else tringBack g q d 0x81 used.1 d.outMax 0 false { cut with chip := cut.chip.countLane g 1 d.len })) ∧
    (RingReady s g q 6 d sp dp → d.arg0.testBit 8 = false → 0 < d.outMax → inflate [] src d.outMax = .ok (o, used, fin) → fin = true →
      let t := fresh.put dp o
      exec (.sqzX g q lane) s = .next (tringBack g q d 0x00 used o.length 0 false { t with chip := t.chip.countLane g 1 d.len })) ∧
    (RingReady s g q 11 d sp dp → exec (.tqHash g q) s = .next (ringDone s g q d 3 dp (sha256 src) 0))) ∧
  (∀ (s : State) (g q i : Nat) (d : Desc) (sp dp : Place) (key : List Byte),
    let c := s.chip
    let src := sp.read s.mem d.len
    let units := ceilDiv d.len (duLen d)
    let aad := aadOf s.mem d
    let all := sp.read s.mem (d.len + 16)
    let ct := all.take d.len
    let aadGood := aadBad c d = false ∧ aadLen d ≤ 4096 ∧
      (aadLen d ≠ 0 → c.dramReadBad (bitsOf d.arg1 31 0 - 0x40000000) (aadLen d) = false)
    let n := (c.slot i).ctr
    let out := gcmCrypt key (gcmIv d n) src
    let taken : State := { s with chip := c.setSlot i { c.slot i with ctr := n + 1 } }
    (RingReady s g q 7 d sp dp → xtsBad c d = false → c.ringKey g q 1 d = .ok (i, key) →
      exec (.xtsE g q) s = .next (ringDone s g q d 2 dp (xtsUnits true key (duLen d) units d.arg1 src) 0)) ∧
    (RingReady s g q 8 d sp dp → xtsBad c d = false → c.ringKey g q 1 d = .ok (i, key) →
      exec (.xtsD g q) s = .next (ringDone s g q d 2 dp (xtsUnits false key (duLen d) units d.arg1 src) 0)) ∧
    (RingReady s g q 9 d sp dp → aadGood → c.ringKey g q 2 d = .ok (i, key) → n + 1 + gcmBlock / 2 ≤ (c.slot i).resv →
      exec (.gcmE g q) s = .next (ringDone taken g q d 4 dp (out ++ gcmTag key (gcmIv d n) aad out) n)) ∧
    (RingReady s g q 10 d sp dp → aadGood → c.ringKey g q 2 d = .ok (i, key) →
      (gcmTag key (gcmIv d d.arg2) aad ct = all.drop d.len →
        exec (.gcmD g q) s = .next (ringDone s g q d 4 dp (gcmCrypt key (gcmIv d d.arg2) ct) d.arg2)) ∧
      (gcmTag key (gcmIv d d.arg2) aad ct ≠ all.drop d.len →
        let t := s.put dp (List.replicate d.len 0)
        exec (.gcmD g q) s = .next (tringBack g q d 0x82 d.len d.len d.arg2 false { t with chip := t.chip.countLane g 4 d.len }))) ∧
    (RingReady s g q 7 d sp dp → xtsBad c d = false → c.ringKey g q 1 d = .error 0x07 →
      exec (.xtsE g q) s = .next (tringBack g q d 0x07 0 0 0 false s))) ∧
  (∀ (s : State) (g q : Nat) (d : Desc) (sp dp : Place),
    let c := s.chip
    let b := c.reg (Reg.tqBase g q)
    let o := b + c.reg (Reg.tqHead g q) % c.tringSize g q * 64 - 0x40000000
    let turn : Chip := { c with tf := { c.tf with next := Tab.set (fun _ => 0) c.tf.next g ((q + 1) % 4) } }
    let x := readDesc s.mem o
    let clean := x.ctrl.testBit 30 = false ∧ 1 ≤ x.ctrl % 16 ∧ x.ctrl % 16 ≤ 11 ∧ bitsOf x.ctrl 26 24 = 0 ∧ bitsOf x.ctrl 15 4 = 0 ∧
      bitsOf x.offs 15 14 = 0 ∧ bitsOf x.offs 31 30 = 0
    (c.held = false → g < s.env.part.regions → c.tringNext g = some q → 0x40000000 ≤ b → b < 0x80000000 → o + 64 ≤ 0x40000000 →
      c.dramReadBad o 64 = false →
      (x.ctrl.testBit 31 = false → exec (.tqDescriptorFetch g) s = .next { s with chip := c.tringHalt g q 3 }) ∧
      (x.ctrl.testBit 31 = true → clean → exec (.tqDescriptorFetch g) s = .next { s with chip := turn.setTring g q ⟨some x⟩ })) ∧
    (c.held = false → g < s.env.part.regions → c.tringNext g = some q → b < 0x40000000 →
      exec (.tqDescriptorFetch g) s = .next { s with chip := c.tringHalt g q 4 }) ∧
    ((c.tring g q).running = some d → bitsOf d.ctrl 3 0 = 1 → (c.ringPick s.env g q 0).isSome = true →
      (c.srcPlace s.env g d = none → exec (.copy g q) s = .next (tringBack g q d 0x05 0 0 0 false s)) ∧
      (c.srcPlace s.env g d = some sp → c.dstPlace s.env g d = some dp →
        (d.len = 0 → exec (.copy g q) s = .next (tringBack g q d 0x02 0 0 0 false s)) ∧
        (1048576 < d.len → exec (.copy g q) s = .next (tringBack g q d 0x03 0 0 0 false s)))) ∧
    (∀ (st r0 r1 r2 : Nat) (t : State), t = tringBack g q d st r0 r1 r2 false s → c.dramWriteBad (d.addr + 0x30) 16 = false → c.dramWriteBad d.addr 4 = false →
      (t.chip.tring g q) = Ring.idle ∧ t.env = s.env ∧ t.fuse = s.fuse ∧ t.pending = s.pending ∧ t.mem.near = s.mem.near ∧ t.mem.sram = s.mem.sram ∧
      t.mem.nor = s.mem.nor ∧
      (∀ a, (a < d.addr ∨ d.addr + 4 ≤ a) → (a < d.addr + 0x30 ∨ d.addr + 0x40 ≤ a) → Mem.read t.mem.dram a = Mem.read s.mem.dram a)) ∧
    exec (.tqResume g q) s = .next { s with chip := c.setFld (Reg.tqStat g q) 10 8 0 } ∧
    exec (.tfLaneFence g 0) s = .next s ∧
    (∀ l, l < 16 → s.env.laneBit g l = true → c.bit (Reg.tfFence g) l = false →
      exec (.tfLaneFence g (2 ^ l)) s = .next { s with chip := Chip.fenceLane g c l }))

/-- Buffers (R379-R387): a kind beyond 9 is BAD_DESCRIPTOR, a fenced owner LEAK, a landing buffer over the dirty limit POOL_EMPTY, and nothing is
taken then; else the first charge that grants gives a buffer, with one reference. BPM_ALLOC gives a zeroed one of kind WARDEN. A reference is taken up
to 65,535, then WRAP_REFUSED; the last one given back frees the buffer; a handle that is not valid is BAD_DESCRIPTOR with event 323.
The buffer window and the leak audit (R380, R388-R390): a word of the buffer that BPM_WIN_SEL names, when it is of kind WARDEN, is read and written;
the audit samples at ticks that are multiples of its period; an unfence ends the fence of the owner that BPM_AUDIT_SEL names.
The DRAM (R392, R396-R400): a command slot of an idle sub-channel serves the one request that arrives, at its row, and counts its latency; what
waits beyond the age limit is promoted; a refresh is put off while an urgent request waits on its bank, four times at most; recalibration repeats
after 2,500 ticks; an error in one device is corrected and counted, in two it raises event 305. -/
def Obligations.BuffersAndDram : Prop :=
  (∀ (s : State) (kind fn region h : Nat) (landing contracted : Bool) (ch : Charge) (c1 : Chip) (v : Word),
    let c := s.chip
    let e := s.env
    let owner := if kind ≤ 1 then fn else 0
    let answers := fun (d : Chip) (h st : Nat) =>
      exec (.bufferAlloc kind fn region landing contracted) s = .next { s with chip := { d with resp := ⟨BitVec.ofNat 32 h, st⟩ } }
    let open_ := kind ≤ 9 ∧ kind * 256 + owner ∉ c.buf.fenced ∧ (landing = true → c.dirtyCount < c.dirtyLimit ∧ c.pmu.flush = none)
    (9 < kind → answers c 0 0x05) ∧ (kind ≤ 9 → kind * 256 + owner ∈ c.buf.fenced → answers c 0 0x0D) ∧
    (kind ≤ 9 → kind * 256 + owner ∉ c.buf.fenced → landing = true → c.dirtyLimit ≤ c.dirtyCount → answers c 0 0x0B) ∧
    (open_ → c.grantFirst e owner region (kindCharges kind contracted false) = none → answers c 0 0x0B) ∧
    (open_ → c.grantFirst e owner region (kindCharges kind contracted false) = some (h, ch, c1) → c.bit Reg.bpmCtrl 0 = true → c.buf.restarting = false →
      answers (c1.setBuffer h ⟨kind, owner, ch, 1, c.tick, landing⟩) h 0x00) ∧
    (9 * 256 ∉ c.buf.fenced → c.grantFirst e 0 0 [.farReserve] = some (h, ch, c1) → c.bit Reg.bpmCtrl 0 = true → c.buf.restarting = false →
      let d := c1.setBuffer h ⟨9, 0, ch, 1, c.tick, false⟩
      exec .bpmAlloc s = .next { s with
        chip := ((d.setReg Reg.bpmAllocRes (2 ^ 31)).setReg Reg.bpmAllocHandle h).setBit Reg.bpmAlloc 31 false
        mem := { s.mem with dram := Mem.zeroRange s.mem.dram (farOffset h) (farOffset h + 16384) } }) ∧
    (let told := fun (op : Nat) => (c.setReg Reg.bpmRefHandle v.toNat).setReg Reg.bpmRef op
     let ends := fun (d : Chip) (n st : Nat) => (d.setReg Reg.bpmRefRes (2 ^ 31 + n * 256 + st)).setBit Reg.bpmRef 31 false
     let b := c.buffer v.toNat
     (handleValid e c v.toNat = false →
       exec (.bpmRefTake v) s = .next { s with chip := ends ((told 0).raise 323 0x05 0xFFFF 0 0) 0 0x05 } ∧
       exec (.bpmRefRelease v) s = .next { s with chip := ends ((told (2 ^ 30)).raise 323 0x05 0xFFFF 0 0) 0 0x05 }) ∧
     (handleValid e c v.toNat = true → b.kind ≠ 9 →
       exec (.bpmRefTake v) s = .next { s with chip := ends (told 0) 0 0x05 } ∧
       exec (.bpmRefRelease v) s = .next { s with chip := ends (told (2 ^ 30)) 0 0x05 }) ∧
     (handleValid e c v.toNat = true → b.kind = 9 →
       (b.refs = 65535 → exec (.bpmRefTake v) s = .next { s with chip := ends (told 0) 0 0x0A }) ∧
       (b.refs < 65535 →
         exec (.bpmRefTake v) s = .next { s with chip := ends ((told 0).setBuffer v.toNat { b with refs := b.refs + 1 }) (b.refs + 1) 0x00 }) ∧
       (1 < b.refs → b.refs ≤ 65535 →
         exec (.bpmRefRelease v) s = .next { s with chip := ends ((told (2 ^ 30)).setBuffer v.toNat { b with refs := b.refs - 1 }) (b.refs - 1) 0x00 }) ∧
       (b.refs = 1 → exec (.bpmRefRelease v) s = .next { s with chip := ends ((told (2 ^ 30)).setBuffer v.toNat Buf.free) 0 0x00 })))) ∧
  (∀ (s : State) (acc : Access) (off h : Nat) (v : Word), acc.who < 8 → off < 16384 → off % 4 = 0 →
    let c := s.chip
    let shows := fun (w : Option Word) (t : State) (d : Nat) =>
      exec (.bufferWindowAccess acc off w) s = .next { t with chip := { t.chip with resp := ⟨BitVec.ofNat 32 d, 0x00⟩ } }
    (c.windowHandle s.env = none → shows none s 0 ∧ shows (some v) s 0) ∧
    (c.windowHandle s.env = some h → shows none s (leNat (bufBytes s.mem h off 4)) ∧
      shows (some v) { s with mem := setBufBytes s.mem h off (leBytes 4 v.toNat) } 0) ∧
    (c.tick % c.fld Reg.bpmAuditCfg 11 0 ≠ 0 → exec .leakAuditSample s = .next s) ∧
    (c.tick % c.fld Reg.bpmAuditCfg 11 0 = 0 → exec .leakAuditSample s = .next { s with chip := c.auditSample }) ∧
    (∀ owner, owner = c.fld Reg.bpmAuditSel 11 0 →
      exec .auditUnfence s = .next { s with chip := { c with buf := { c.buf with fenced := c.buf.fenced.filter (fun x => x != owner) } } })) ∧
  (∀ (s : State) (sub now bank dev off : Nat) (hot : Bool) (r : DramReq),
    let c := s.chip
    let x := c.subCh sub
    (c.bit Reg.memCtrl 0 = true → c.dram.rate ≠ 0 → sub < 8 → x.now ≤ now → x.waiting = [] → (∀ p ∈ x.postponed, p.2 < 4) → c.dram.flush = false →
      dramSub r.offset = sub → r.port < 8 → r.arrived ≤ now →
      let served := (c.setSubCh sub { x with
        waiting := []
        now := now
        openRow := Tab.insert x.openRow (dramBank r.offset) (dramRow r.offset + 1)
        issued := r :: x.issued }).raiseTo (Reg.memLat r.port) 15 0 (now - r.arrived)
      exec (.dramCommandSlot sub now [r]) s =
        .next { s with chip := if c.portTarget r.port < now - r.arrived then served.bump (Reg.memLat r.port) 31 16 1 else served }) ∧
    exec (.dramAgePromotion sub now) s = .next { s with chip := c.setSubCh sub { x with
      waiting := x.waiting.map (fun w => if c.fld Reg.memAge 15 0 < now - w.req.arrived then { w with promoted := true } else w) } } ∧
    (let d := c.setBit Reg.memRef 16 hot
     let n := Tab.get (fun _ => 0) (d.subCh sub).postponed bank
     let urgent := ∃ w ∈ (d.subCh sub).waiting, dramBank w.req.offset = bank ∧ d.urgency (d.subCh sub).now w = 3
     let open_ := Tab.erase (d.subCh sub).openRow bank
     (urgent → n < 4 → exec (.dramRefresh sub bank hot) s = .next { s with chip :=
       (d.setSubCh sub { d.subCh sub with postponed := Tab.insert (d.subCh sub).postponed bank (n + 1) }).bump Reg.memRef 15 0 1 }) ∧
     (¬ urgent ∨ 4 ≤ n → exec (.dramRefresh sub bank hot) s = .next { s with chip := d.setSubCh sub { d.subCh sub with
       postponed := Tab.erase (d.subCh sub).postponed bank
       openRow := open_ } })) ∧
    (x.recal + 2500 ≤ c.tick → exec (.dramRecalibration sub) s = .next { s with chip := c.setSubCh sub { x with recal := c.tick } }) ∧
    (c.tick < x.recal + 2500 → exec (.dramRecalibration sub) s = .next s) ∧
    (dev < 10 → c.dram.rate ≠ 0 → off < s.env.board.dramGib * 2 ^ 30 →
      let d := c.setReg Reg.memEccLast (dev % 16 * 16 + dramSub off)
      exec (.dramEccError off dev none) s = .next (goesOn s (d.bump Reg.memEcc 31 16 1)) ∧
      exec (.dramEccError off dev (some dev)) s = .next (goesOn s (d.bump Reg.memEcc 31 16 1)) ∧
      (∀ dev2, dev2 < 10 → dev2 ≠ dev → off < 2 ^ 31 →
        let bad := (d.bump Reg.memEcc 15 0 1).raise0 305
        exec (.dramEccError off dev (some dev2)) s = .next (goesOn s { bad with
          dram := { bad.dram with poison := insertNat (dramBurst off) bad.dram.poison }
          resp := ⟨0, 0x06⟩ }))))

/-- Units that fail (R45, R80, R248): a transform lane is fenced and named; a Kerf core is fenced; a lockstep pair that mismatches restarts, with its event, and
excuses the contracted reads in flight; the calendar master loses the plans that have not opened; at the restart's end the block serves again. A unit
that is fenced already does not fail.
Dirty-page logging and invalidations (R333-R335, R338): START of a slot makes it follow its function with an empty ring and filter, one whose function
another active slot follows is LIMIT; STOP keeps the ring; CUT marks the epoch once; an invalidation drops the matching translations at once. -/
def Obligations.FailuresAndDirtyPages : Prop :=
  (∀ (s : State) (g l k : Nat) (b : LockstepBlk),
    let c := s.chip
    let bound := match b with | .cal => 4 | .coll => 2 | .bpm => 10 | .map => 16 | .seal => 20
    let event := match b with | .cal => 292 | .coll => 293 | .bpm => 294 | .map => 295 | .seal => 296
    let down : Chip := { c with rcu := { c.rcu with restarts := c.rcu.restarts.filter (fun (p : LockstepBlk × Nat) => p.1 != b) ++ [(b, c.tick + bound)] } }
    (s.env.laneBit g l = true → c.bit (Reg.tfFence g) l = true → exec (.unitSelfCheckFail (.tfLane g l)) s = .next (goesOn s c)) ∧
    (s.env.laneBit g l = true → c.bit (Reg.tfFence g) l = false →
      exec (.unitSelfCheckFail (.tfLane g l)) s =
        .next (goesOn s (Chip.fenceLanes ((c.orReg (Reg.tfFault g) (2 ^ l)).raise (256 + g) 0 0xFFFF 0 0) s.env g (2 ^ l)))) ∧
    (k < 8 * s.env.part.regions ∨ (32 ≤ k ∧ k < 40) → exec (.unitSelfCheckFail (.kerfCore k)) s = .next (goesOn s (c.kerfCoreFail k))) ∧
    (c.rcu.phase ≠ .inReset → b = .map ∨ b = .seal →
      exec (.lockstepMismatch b) s = .next { s with chip := (down.raise0 event).excuseAll }) ∧
    (c.rcu.phase ≠ .inReset → b = .coll → exec (.lockstepMismatch b) s =
      .next { s with chip := (({ down with cal := { down.cal with collRestarting := true } } : Chip).raise0 event).excuseAll }) ∧
    (c.rcu.phase ≠ .inReset → b = .bpm → exec (.lockstepMismatch b) s =
      .next { s with chip := (({ down with buf := { down.buf with restarting := true } } : Chip).raise0 event).excuseAll }) ∧
    (c.rcu.phase ≠ .inReset → b = .cal →
      let lost : Chip := { down with cal := { down.cal with
        restarting := true
        committed := []
        planDone := true } }
      exec (.lockstepMismatch b) s = .next { s with chip := ((lost.bump Reg.calStatus 15 8 1).raise0 event).excuseAll }) ∧
    (c.restartRuns b = true → b = .map ∨ b = .seal → exec (.lockstepRestartDone b) s =
      .next (goesOn s { c with rcu := { c.rcu with restarts := c.rcu.restarts.filter (fun p => p.1 != b) } })) ∧
    (c.restartRuns b = false → exec (.lockstepRestartDone b) s = .next (goesOn s c))) ∧
  (∀ (s : State) (slot fn page pages : Nat) (pasid : Option Nat), slot < 8 → fn < 256 → s.chip.fn.dlog.length = 8 →
    let c := s.chip
    let named := c.setFld (Reg.fnDlogCtrl slot) 7 0 fn
    let put := fun (d : Chip) (x : DlogSlot) => { d with fn := { d.fn with dlog := d.fn.dlog.set slot x } }
    let x := c.dlogSlot slot
    let hit := fun (f : Nat) (q : Option Nat) (p : Nat) => f == fn && q == pasid && decide (page ≤ p) && decide (p < page + pages)
    ((∀ i < 8, i ≠ slot → (c.dlogSlot i).active = true → (c.dlogSlot i).fn ≠ fn) →
      exec (.dlogStart slot fn) s = .next { s with chip := put (named.setReg (Reg.fnDlogHead slot) 0) ⟨true, fn, false, 0, [], false, false, 0, 0x00⟩ }) ∧
    ((∃ i < 8, i ≠ slot ∧ (c.dlogSlot i).active = true ∧ (c.dlogSlot i).fn = fn) →
      exec (.dlogStart slot fn) s = .next { s with chip := put named { x with status := 0x03 } }) ∧
    exec (.dlogStop slot) s = .next { s with chip := put c { x with active := false } } ∧
    (x.cutPending = false → exec (.dlogCut slot) s = .next { s with chip := put c { x with cutPending := true, cutDone := false } }) ∧
    (x.cutPending = true → exec (.dlogCut slot) s = .next s) ∧
    exec (.atsInvalidate fn pasid page pages) s = .next { s with chip := { c with fn := { c.fn with
      ftu := c.fn.ftu.filter (fun y => !hit y.fn y.pasid y.page)
      ftuReqs := c.fn.ftuReqs.map (fun r => if hit r.fn r.pasid r.page = true then { r with noStore := true } else r) } } })

/-! The host. -/

/-- What stops an I/O command (R283, R287, R306, R377, R466), READ and FLUSH standing for all: BLANK and RETIRED with Operation Denied, degraded hold with
Namespace Not Ready, a namespace that is not the function's, a pointer type other than PRP, more than 512 sectors, an address past the namespace, a read
that crosses a zone. The command completes with that status.
READ, WRITE, FLUSH, WRITE_ZEROES and DATASET_MANAGEMENT (R287-R289, R192, R303, R306): a transfer is taken as the extents that tile it; a write into a
zone opens it and is assigned its sectors; the others take effect and complete; a deferred write error completes the command in its place, once. -/
def Obligations.HostCommands : Prop :=
  (∀ (s : State) (cmd : Cmd) (nsid slba nlb psdt : Nat) (n : Ns), (s.chip.func cmd.fn).phase = .enabled → s.chip.pmu.flush = none →
    let c := s.chip
    let ends := fun (st : NStat) (d : Nat) => exec (.read cmd nsid slba nlb psdt) s = .next (goesOn s (c.complete cmd st d 0))
    let serves := s.fuse.lifecycle ≠ .blank ∧ s.fuse.lifecycle ≠ .retired ∧ c.inHold = false
    (s.fuse.lifecycle = .blank ∨ s.fuse.lifecycle = .retired → ends ⟨0, 0x15, true⟩ 0x11 ∧
      exec (.flush cmd nsid) s = .next (goesOn s (c.complete cmd ⟨0, 0x15, true⟩ 0x11 0))) ∧
    (s.fuse.lifecycle ≠ .blank → s.fuse.lifecycle ≠ .retired → c.inHold = true → ends ⟨0, 0x82, true⟩ 0 ∧
      exec (.flush cmd nsid) s = .next (goesOn s (c.complete cmd ⟨0, 0x82, true⟩ 0 0))) ∧
    (serves → c.ns (nsxOf nsid) = none ∨ nsid = 0 → ends ⟨0, 0x0B, true⟩ 0) ∧
    (serves → c.ns (nsxOf nsid) = some n → nsid ≠ 0 →
      (n.owner ≠ some cmd.fn → n.standby ≠ some cmd.fn → ends ⟨0, 0x0B, true⟩ 0) ∧
      (n.owner = some cmd.fn → psdt ≠ 0 → ends ⟨0, 0x02, true⟩ 0) ∧
      (n.owner = some cmd.fn → psdt = 0 → n.move ≠ none → ends ⟨3, 0x03, false⟩ 0) ∧
      (n.owner ≠ some cmd.fn → n.standby = some cmd.fn → psdt = 0 → n.move = none → ends ⟨3, 0x02, false⟩ 0) ∧
      (nsStop s cmd nsid psdt none = none →
        (512 < nlb + 1 → ends ⟨0, 0x02, true⟩ 0) ∧ (nlb + 1 ≤ 512 → n.size < slba + (nlb + 1) → ends ⟨0, 0x80, true⟩ 0) ∧
        (nlb + 1 ≤ 512 → slba + (nlb + 1) ≤ n.size → n.zoned = true → n.zsze < slba % Nat.max 1 n.zsze + (nlb + 1) → ends stZoneBoundary 0)))) ∧
  ((∀ (s : State) (cmd : Cmd) (nsid slba nlb psdt dtype dspec : Nat) (data : List Sector) (ranges : List (Nat × Nat)) (n : Ns) (d : Chip),
    let c := s.chip
    let nsx := nsxOf nsid
    let k := nlb + 1
    let z := slba / Nat.max 1 n.zsze
    c.ns nsx = some n →
      (IoReady s cmd nsid psdt none slba → k ≤ 512 → slba + k ≤ n.size →
        (n.crosses slba k n.zsze = false →
          exec (.read cmd nsid slba nlb psdt) s = .next (goesOn s (c.acceptIo s.env cmd false nsx slba k (if n.zoned then 0xFFFF else 0) none []))) ∧
        (n.zoned = false → dtype = 0 ∨ (dtype = 2 ∧ dspec < n.handles.length) →
          exec (.write cmd nsid slba nlb psdt dtype dspec data) s =
            .next (goesOn s (c.acceptIo s.env cmd true nsx slba k (if dtype = 2 then dspec else 0) none data))) ∧
        (n.zoned = true → c.zoneState nsx z (n.zone z) ≠ .full → slba % Nat.max 1 n.zsze + k ≤ n.zcap → slba % Nat.max 1 n.zsze = (n.zone z).assigned →
          c.openZone nsx z .impOpen = .ok d →
          exec (.write cmd nsid slba nlb psdt dtype dspec data) s = .next (goesOn s ((d.updZone nsx z (fun y => { y with
            assigned := slba % Nat.max 1 n.zsze + k })).acceptIo s.env cmd true nsx slba k 0xFFFF none data)))) ∧
      (IoReady s cmd nsid 0 none n.size → exec (.flush cmd nsid) s = .next (goesOn s (c.complete cmd ⟨0, 0, false⟩ 0 0))) ∧
      (IoReady s cmd nsid 0 (some false) slba → slba + k ≤ n.size →
        exec (.writeZeroes cmd nsid slba nlb) s = .next (goesOn s ((c.deallocate s.env nsx slba k).complete cmd ⟨0, 0, false⟩ 0 0))) ∧
      (IoReady s cmd nsid 0 (some false) (ranges.headD (0, 0)).1 → (∀ r ∈ ranges, r.1 + r.2 ≤ n.size) →
        exec (.datasetManagement cmd nsid ranges) s =
          .next (goesOn s ((ranges.foldl (fun c r => c.deallocate s.env nsx r.1 r.2) c).complete cmd ⟨0, 0, false⟩ 0 0))) ∧
      (n.zoned = false → (∃ t, n.parityLost = some t ∧ t < c.tick) → (c.func cmd.fn).phase = .enabled → c.pmu.flush = none → ioStop s = none →
        nsStop s cmd nsid psdt none = none → k ≤ 512 → slba + k ≤ n.size →
        exec (.read cmd nsid slba nlb psdt) s = .next (goesOn s (((c.updNs nsx (fun n => { n with parityLost := none })).bump Reg.hostDeferCnt 15 0 1).complete
          cmd ⟨7, 0xC1, false⟩ 0x12 0)))) ∧
  (∀ lba k, ((extents (k + 1) lba k).map (fun p => p.2)).sum = k ∧
    (∀ p ∈ extents (k + 1) lba k, 0 < p.2 ∧ p.1 % 16 + p.2 ≤ 16 ∧ lba ≤ p.1 ∧ p.1 + p.2 ≤ lba + k) ∧
    (extents (k + 1) lba k).Pairwise (fun p q => p.1 + p.2 ≤ q.1)))

/-- The zone commands (R292-R298, R306): an append is assigned the next sectors of its zone; open, close, finish and reset wait for what was accepted
before them, and what comes behind a reset finds the zone empty; in HOLD a reset of a protected zone is SEALED, of another one HOLD; a zone cannot be
taken offline, and has no descriptor extension; the report goes to the host. An opcode that does not exist is Invalid Command Opcode.
Read contracts and ownership (R283, R284, R301): a contract word with reserved bits, a class that does not exist or a depth of 0 is refused; class 7
releases; a bind completes with T, or with the refusal's code and T. The standby's request starts a move, the owner's moves nothing; the roles swap once
the namespace has no command in the machine; with the owner's link down for DOWN_TICKS the move starts by itself. -/
def Obligations.ZonesAndContracts : Prop :=
  (∀ (s : State) (cmd : Cmd) (nsid zslba nlb psdt opc : Nat) (data : List Sector) (n : Ns) (d : Chip),
    let c := s.chip
    let nsx := nsxOf nsid
    let z := zslba / Nat.max 1 n.zsze
    let next := (n.zone z).assigned
    let zone0 := IoReady s cmd nsid 0 (some true) zslba ∧ zslba < n.size ∧ zslba % Nat.max 1 n.zsze = 0
    let sent := fun (op : Nat) => { c with host := { c.host with zoneOps := c.host.zoneOps ++ [ZoneOp.mk cmd op nsx [z] false c.host.nextItem] } }
    c.ns nsx = some n →
      (IoReady s cmd nsid psdt (some true) zslba → zslba < n.size → zslba % Nat.max 1 n.zsze = 0 → nlb + 1 ≤ 512 →
        c.zoneState nsx z (n.zone z) ≠ .full → next + (nlb + 1) ≤ n.zcap → n.zcap ≤ n.zsze → c.openZone nsx z .impOpen = .ok d →
        exec (.zoneAppend cmd nsid zslba nlb psdt data) s = .next (goesOn s ((d.updZone nsx z (fun y => { y with
          assigned := next + (nlb + 1) })).acceptIo s.env cmd true nsx (zslba + next) (nlb + 1) 0xFFFF (some (zslba + next)) data))) ∧
      (zone0 → exec (.zoneOpen cmd nsid zslba false) s = .next (goesOn s (sent 1)) ∧ exec (.zoneClose cmd nsid zslba false) s = .next (goesOn s (sent 2)) ∧
        exec (.zoneFinish cmd nsid zslba false) s = .next (goesOn s (sent 3)) ∧
        exec (.zoneManagementReceive cmd nsid zslba) s = .next (goesOn s ((c.answerDma cmd.fn (c.zoneReport nsx z)).complete cmd ⟨0, 0, false⟩ 0 0))) ∧
      (zone0 → s.fuse.lifecycle ≠ .hold → (n.zone z).protected = false →
        exec (.zoneReset cmd nsid zslba false) s = .next (goesOn s ((sent 4).updZone nsx z (fun y => { y with assigned := 0 })))) ∧
      (zone0 → s.fuse.lifecycle ≠ .hold → (n.zone z).protected = true → exec (.zoneReset cmd nsid zslba false) s = .next (goesOn s (sent 4))) ∧
      (zone0 → s.fuse.lifecycle = .hold →
        exec (.zoneReset cmd nsid zslba false) s = .next (goesOn s
          (if (n.zone z).protected = true then c.complete cmd ⟨1, 0xBF, true⟩ 0x0F 0 else c.complete cmd ⟨7, 0xC3, true⟩ 0x10 0))) ∧
      (IoReady s cmd nsid 0 (some true) zslba →
        exec (.zoneOffline cmd nsid zslba) s = .next (goesOn s (c.complete cmd ⟨0, 0x02, true⟩ 0 0)) ∧
        exec (.setZoneDescriptorExt cmd nsid zslba) s = .next (goesOn s (c.complete cmd ⟨0, 0x02, true⟩ 0 0))) ∧
      ((c.func cmd.fn).phase = .enabled → ioStop s = none → cmd.sq ≠ 0 →
        exec (.invalidOpcode cmd opc) s = .next (goesOn s (c.complete cmd ⟨0, 0x01, true⟩ 0 0))) ∧
      (AdminReady s cmd → cmd.sq = 0 → exec (.invalidOpcode cmd opc) s = .next (adminDone s ((c.taken cmd).reply cmd ⟨0, 0x01, true⟩ 0 0)))) ∧
  (∀ (s : State) (cmd : Cmd) (nsid : Nat) (w : Word) (n : Ns) (save : Bool) (m : Move) (o b : Nat), nsid ≠ 0 → s.chip.ns (nsxOf nsid) = some n →
    let c := s.chip
    let t := c.taken cmd
    let nsx := nsxOf nsid
    let put := fun (d : Chip) (n : Ns) => d.setNs nsx (some n)
    let cls := w.toNat % 8
    let q := w.toNat / 2 ^ 8 % 16
    let bound := t.bindContract s.env nsx w.toNat
    let tk := bound.2.fld Reg.calAdmitRes 15 8
    (AdminReady s cmd → n.owner ≠ some cmd.fn → n.standby ≠ some cmd.fn →
      exec (.setFeatureReadContract cmd nsid w save) s = .next (adminDone s (t.reply cmd ⟨0, 0x0B, true⟩ 0 0)) ∧
      exec (.setFeatureOwnership cmd nsid) s = .next (adminDone s (t.reply cmd ⟨0, 0x0B, true⟩ 0 0))) ∧
    (AdminReady s cmd → n.owner = some cmd.fn →
      (w &&& 0xFFFFF078 ≠ 0 ∨ cls = 5 ∨ cls = 6 ∨ (cls ≤ 4 ∧ q = 0) →
        exec (.setFeatureReadContract cmd nsid w save) s = .next (adminDone s (t.reply cmd ⟨0, 0x02, true⟩ 0 0))) ∧
      (w &&& 0xFFFFF078 = 0 → cls = 7 → c.contract nsx = none →
        exec (.setFeatureReadContract cmd nsid w false) s =
          .next (adminDone s ((put t { n with nowait := w.getLsbD 7 }).reply cmd ⟨0, 0, false⟩ 0 0))) ∧
      (w &&& 0xFFFFF078 = 0 → cls ≤ 4 → q ≠ 0 → bound.1 = 0x00 →
        exec (.setFeatureReadContract cmd nsid w false) s =
          .next (adminDone s ((bound.2.updNs nsx (fun n => { n with refusedAtStart := false })).reply cmd ⟨0, 0, false⟩ tk 0))) ∧
      (w &&& 0xFFFFF078 = 0 → cls ≤ 4 → q ≠ 0 → bound.1 = 0x0E →
        exec (.setFeatureReadContract cmd nsid w save) s = .next (adminDone s (bound.2.reply cmd ⟨7, 0xC4, true⟩ (tk * 2 ^ 24 + 0x0E) 0))) ∧
      (n.move = none → exec (.setFeatureOwnership cmd nsid) s = .next (adminDone s (t.reply cmd ⟨0, 0, false⟩ 0 0)))) ∧
    (AdminReady s cmd → n.owner ≠ some cmd.fn → n.standby = some cmd.fn → n.move = none →
      exec (.setFeatureOwnership cmd nsid) s = .next (adminDone s (put t { n with move := some ⟨c.tick, some cmd⟩ }))) ∧
    (n.owner = some o → n.standby = some b → c.fld Reg.hostOwn 11 0 ≠ 0 → n.move = none → (c.link (c.func b).link).state = 2 →
      (∃ k, (c.link (c.func o).link).downSince = some k ∧ k + c.fld Reg.hostOwn 11 0 ≤ c.tick) →
      exec (.ownershipAutoMove nsid) s = .next { s with chip := put c { n with move := some ⟨c.tick, none⟩ } }) ∧
    (n.move = some m → m.cmd = none → (∀ p ∈ c.host.cmds, p.nsx ≠ nsx) → (∀ z ∈ c.host.zoneOps, z.nsx ≠ nsx) →
      exec (.ownershipSwap nsid) s = .next (goesOn s ((n.owner.toList ++ n.standby.toList).foldl (fun c f => (c.asyncEvent f 2 3).aerPump f 1)
        (put c { n with owner := n.standby, standby := n.owner, move := none })))) ∧
    (n.move = some m → (∃ p ∈ c.host.cmds, p.nsx = nsx) → exec (.ownershipSwap nsid) s = .next (goesOn s c)))

/-- The admin commands on queues (R285, R306, R478): a queue is made, with its size one above the field, or refused for its identifier, the limit, its
size, a buffer that is not contiguous, its vector or its completion queue; a completion queue in use is not deleted; the commands of a deleted
submission queue end.
Abort, asynchronous events, replies and the NVMe-MI commands (R289, R305, R306): a command that has not left the host engine's queue is aborted, another
one goes on and DW0 says so; a fifth outstanding event request is refused; ADMIN_COMPLETION posts the oldest reply. -/
def Obligations.QueuesAndHousekeeping : Prop :=
  (∀ (s : State) (cmd : Cmd) (qid size iv cqid prio : Nat) (ien : Bool), AdminReady s cmd →
    let t := s.chip.taken cmd
    let x := s.chip.func cmd.fn
    let ok := fun (d : Chip) => adminDone s (d.reply cmd ⟨0, 0, false⟩ 0 0)
    let no := fun (i : Instr) (sct sc dw0 : Nat) => exec i s = .next (adminDone s (t.reply cmd ⟨sct, sc, true⟩ dw0 0))
    let hasCq := fun (q : Nat) => ∃ k ∈ x.cqs, k.qid = q
    let hasSq := fun (q : Nat) => ∃ k ∈ x.sqs, k.qid = q
    let vector := iv < 1024 ∧ (x.vf ≠ 0 → iv < 64)
    (qid = 0 ∨ hasCq qid → no (.createIoCq cmd qid size iv ien true) 1 0x01 0) ∧
    (qid ≠ 0 → ¬ hasCq qid → s.chip.queueLimit x.feat.ncq < qid → no (.createIoCq cmd qid size iv ien true) 1 0x01 0x03) ∧
    (qid ≠ 0 → ¬ hasCq qid → qid ≤ s.chip.queueLimit x.feat.ncq →
      (size = 0 ∨ 4095 < size → no (.createIoCq cmd qid size iv ien true) 1 0x02 0) ∧
      (size ≠ 0 → size ≤ 4095 → no (.createIoCq cmd qid size iv ien false) 0 0x02 0 ∧
        (¬ vector → no (.createIoCq cmd qid size iv ien true) 1 0x08 0) ∧
        (vector → exec (.createIoCq cmd qid size iv ien true) s =
          .next (ok (t.setFn cmd.fn { x with cqs := x.cqs ++ [CQ.mk qid (size + 1) 0 iv ien []] }))))) ∧
    (cqid = 0 ∨ ¬ hasCq cqid → no (.createIoSq cmd qid size cqid prio true) 1 0x00 0) ∧
    (cqid ≠ 0 → hasCq cqid → qid ≠ 0 → ¬ hasSq qid → qid ≤ s.chip.queueLimit x.feat.nsq → size ≠ 0 → size ≤ 4095 →
      exec (.createIoSq cmd qid size cqid prio true) s =
        .next (ok (t.setFn cmd.fn { x with sqs := x.sqs ++ [SQ.mk qid (size + 1) 0 0 cqid (prio % 4)] }))) ∧
    (qid = 0 ∨ ¬ hasCq qid → no (.deleteIoCq cmd qid) 1 0x01 0) ∧
    (qid ≠ 0 → hasCq qid → (∃ k ∈ x.sqs, k.cqid = qid) → no (.deleteIoCq cmd qid) 1 0x0C 0) ∧
    (qid ≠ 0 → hasCq qid → (∀ k ∈ x.sqs, k.cqid ≠ qid) →
      exec (.deleteIoCq cmd qid) s = .next (ok (t.setFn cmd.fn { x with cqs := x.cqs.filter (fun k => k.qid != qid) }))) ∧
    (qid ≠ 0 → hasSq qid →
      let mine := fun (y : Cmd) => y.fn == cmd.fn && y.sq == qid
      let ended := t.dropCmds s.env ⟨0, 0x08, false⟩ (fun p => mine p.cmd) (fun o => mine o.cmd)
      exec (.deleteIoSq cmd qid) s = .next (goesOn s ((ended.updFn cmd.fn (fun x => { x with sqs := x.sqs.filter (fun k => k.qid != qid) })).reply
        cmd ⟨0, 0, false⟩ 0 0)))) ∧
  (∀ (s : State) (cmd : Cmd) (sq cid : Nat) (pay : List Byte) (r : Nat × Cqe) (rest : List (Nat × Cqe)), AdminReady s cmd →
    let c := s.chip
    let t := c.taken cmd
    let victim : Cmd := ⟨cmd.fn, sq, cid⟩
    let waits := fun (p : Pend) => p.cmd == victim && p.items.all (fun i => (t.item i).all (fun x => x.stage == .waiting))
    let out : Chip := { t with host := { t.host with admin := t.host.admin.erase cmd } }
    ((∃ p ∈ c.host.cmds, waits p = true) →
      exec (.nvmeAbort cmd sq cid) s = .next (goesOn s ((t.dropCmds s.env ⟨0, 0x07, false⟩ waits (fun _ => false)).reply cmd ⟨0, 0, false⟩ 0 0))) ∧
    ((∀ p ∈ c.host.cmds, waits p = false) → exec (.nvmeAbort cmd sq cid) s = .next (goesOn s (t.reply cmd ⟨0, 0, false⟩ 1 0))) ∧
    (4 ≤ (c.func cmd.fn).aers.length → exec (.asyncEventRequest cmd) s = .next (adminDone s (t.reply cmd ⟨1, 0x05, true⟩ 0 0))) ∧
    ((c.func cmd.fn).aers.length < 4 → exec (.asyncEventRequest cmd) s =
      .next (adminDone s ((out.updFn cmd.fn (fun x => { x with aers := x.aers ++ [cmd] })).aerPump cmd.fn 1))) ∧
    (c.host.replies = [] → exec .adminCompletion s = .next (adminDone s c)) ∧
    (c.host.replies = r :: rest → exec .adminCompletion s =
      .next (adminDone s (({ c with host := { c.host with replies := rest } } : Chip).postCqe r.1 r.2))) ∧
    exec (.nvmeMiSend cmd pay) s = .next (adminDone s ((t.wakeSee .mi).reply cmd ⟨0, 0, false⟩ 0 0)) ∧
    exec (.nvmeMiReceive cmd pay) s = .next (adminDone s (((t.wakeSee .mi).answerDma cmd.fn pay).reply cmd ⟨0, 0, false⟩ 0 0)))

/-- The features (R285, R286, R299, R310, R426, R427): what a Set Features changes in its function and what it answers; the Number of Queues grant is the
smaller of request and share; an APST entry in use names PS3 or PS4 below its own state; FDP is set before any namespace exists; the power state of a PF
goes to the power unit as the lowest request; SET_FEATURES and GET_FEATURES carry the others, which read back what was set.
GET_LOG_PAGE, GET_LOG_EMIT_RING and IDENTIFY (R307-R309): the log goes to the host, an unknown one is Invalid Log Page; the emit ring's log gives up the
records that lie wholly within what was asked for, when LSP says so; an unknown structure is Invalid Field. The layouts are the model's (log entry 40). -/
def Obligations.FeaturesAndLogs : Prop :=
  (∀ (s : State) (cmd : Cmd) (ab lpw mpw hpw a b ps : Nat) (apste on : Bool) (entries : List (Nat × Nat)) (w : Word), AdminReady s cmd →
    let c := s.chip
    let t := c.taken cmd
    let x := c.func cmd.fn
    let gives := fun (i : Instr) (d : Chip) (dw0 : Nat) => exec i s = .next (adminDone s (d.reply cmd ⟨0, 0, false⟩ dw0 0))
    let no := fun (i : Instr) (sct sc dw0 : Nat) => exec i s = .next (adminDone s (t.reply cmd ⟨sct, sc, true⟩ dw0 0))
    let put := fun (f : FnFeatures) => t.setFn cmd.fn { x with feat := f }
    let share := Nat.max 1 c.fn.shares.qp
    let wrong := ∃ i < 5, ∃ y, entries[i]? = some y ∧ y.2 ≠ 0 ∧ ((y.1 ≠ 3 ∧ y.1 ≠ 4) ∨ y.1 ≤ i)
    let pf := (c.func cmd.fn).vf = 0
    let arb := { x.feat with
      ab := ab % 8
      lpw := lpw % 256
      mpw := mpw % 256
      hpw := hpw % 256 }
    gives (.setFeatureArbitration cmd ab lpw mpw hpw) (put arb) 0 ∧
    ((∀ q ∈ x.sqs, q.qid = 0) → (∀ q ∈ x.cqs, q.qid = 0) → a < 65535 → b < 65535 →
      gives (.setFeatureNumberOfQueues cmd a b) (put { x.feat with nsq := Nat.min (a + 1) share, ncq := Nat.min (b + 1) share })
        ((Nat.min (b + 1) share - 1) * 65536 + (Nat.min (a + 1) share - 1))) ∧
    ((∃ q ∈ x.sqs, q.qid ≠ 0) → no (.setFeatureNumberOfQueues cmd a b) 0 0x0C 0) ∧
    (¬ pf ∨ wrong → no (.setFeatureApst cmd apste entries) 0 0x02 0) ∧
    (pf → ¬ wrong → gives (.setFeatureApst cmd apste entries) (put { x.feat with apste := apste, apst := entries.take 5 }) 0) ∧
    ((∃ p ∈ c.host.nss, p.2 ≠ none) → no (.setFeatureFdp cmd on) 0 0x02 0) ∧
    ((∀ p ∈ c.host.nss, p.2 = none) → gives (.setFeatureFdp cmd on) { t with host := { t.host with fdp := on } } 0) ∧
    (¬ pf ∨ 4 < ps → no (.setFeaturePowerManagement cmd ps) 0 0x02 0) ∧
    (pf → ps ≤ 4 → c.pmu.req ≠ none → exec (.setFeaturePowerManagement cmd ps) s = .next (adminDone s (t.reply cmd ⟨0, 0x21, false⟩ 0x01 0))) ∧
    (pf → ps ≤ 4 → c.pmu.req = none →
      let asked := put { x.feat with power := ps }
      let low := (asked.enabledPfs.map (fun y => y.feat.power)).foldl Nat.min 4
      let d := asked.pmuRequest false 0 low
      d.pmu.req ≠ none ∨ d.fld Reg.pmuReqRes 7 0 = 0x00 → gives (.setFeaturePowerManagement cmd ps) d 0) ∧
    (gives (.setFeatures cmd 0x04 w false) (put { x.feat with temp := w.toNat % 2 ^ 22 }) 0 ∧
      gives (.setFeatures cmd 0x08 w false) (put { x.feat with coal := w.toNat % 2 ^ 16 }) 0 ∧
      gives (.setFeatures cmd 0x0B w false) (put { x.feat with aerMask := w.toNat }) 0 ∧
      no (.setFeatures cmd 0x08 w true) 1 0x0D 0 ∧ no (.setFeatures cmd 0x03 w false) 0 0x02 0) ∧
    (gives (.getFeatures cmd 0x01 0) t (x.feat.ab + x.feat.lpw * 2 ^ 8 + x.feat.mpw * 2 ^ 16 + x.feat.hpw * 2 ^ 24) ∧
      gives (.getFeatures cmd 0x02 0) t x.feat.power ∧ gives (.getFeatures cmd 0x04 0) t x.feat.temp ∧
      gives (.getFeatures cmd 0x08 0) t x.feat.coal ∧ gives (.getFeatures cmd 0x0B 0) t x.feat.aerMask ∧
      gives (.getFeatures cmd 0x1D 0) t (if c.host.fdp then 1 else 0) ∧ no (.getFeatures cmd 0x03 0) 0 0x02 0)) ∧
  (∀ (s : State) (cmd : Cmd) (lid lsp len cns nsid : Nat) (bs : List Byte) (d : Chip), AdminReady s cmd →
    let t := s.chip.taken cmd
    let r := t.ring cmd.fn
    let k := if lsp.testBit 0 = true then Nat.min r.1.length ((len - 16) / 32) else 0
    (t.logPage s.env cmd.fn lid = none → exec (.getLogPage cmd lid) s = .next (adminDone s (t.reply cmd ⟨1, 0x09, true⟩ 0 0))) ∧
    (t.logPage s.env cmd.fn lid = some (bs, d) →
      exec (.getLogPage cmd lid) s = .next (adminDone s ((d.answerDma cmd.fn bs).reply cmd ⟨0, 0, false⟩ 0 0))) ∧
    exec (.getLogEmitRing cmd lsp len) s = .next (adminDone s
      (((t.answerDma cmd.fn ((t.emitLog cmd.fn).take len)).setRing cmd.fn (r.1.drop k, (r.2.1 + k) % 2 ^ 32, r.2.2)).reply cmd ⟨0, 0, false⟩ 0 0)) ∧
    exec (.identify cmd 0x01 nsid) s = .next (adminDone s ((t.answerDma cmd.fn (t.identifyController s.env cmd.fn)).reply cmd ⟨0, 0, false⟩ 0 0)) ∧
    exec (.identify cmd 0x00 nsid) s = .next (adminDone s ((t.answerDma cmd.fn (t.identifyNamespace cmd.fn nsid)).reply cmd ⟨0, 0, false⟩ 0 0)) ∧
    (6 < cns → exec (.identify cmd cns nsid) s = .next (adminDone s (t.reply cmd ⟨0, 0x02, true⟩ 0 0))))

/-- Links and doorbells (R277-R281, R327): an enabled link that trains comes up at its speed and width; one that is up goes down, is counted and squashes its functions, with event 309; a
doorbell moves a tail, or takes completions off their queue; one that names no queue, or a value outside it, is ignored with an event; a function in a
reset ignores it.
Fetches and failed transfers (R282, R286, R337): a fetch without a function to serve does nothing; a decision takes the entries of its queue one by one,
and a second decision goes on from the function served; a failed transfer of a queue sets CFS on that function alone; one of a command's data ends it
with Data Transfer Error; a translation ends its request; one that TIMEOUT cuts off is denied, and not before. -/
def Obligations.LinksAndTransfers : Prop :=
  (∀ (s : State) (l speed width f qid v : Nat) (q : SQ) (k : CQ),
    let c := s.chip
    let lit := c.wakeSee .link
    let d := c.wakeSee .host
    let x := d.func f
    let fs := fun (d : Chip) => (d.fn.fns.filter (fun p => p.2.present && p.2.link == l)).map (fun p => p.1)
    (lit.bit Reg.hostCtrl l = true → (lit.link l).state ≠ 2 → 0 < speed → speed ≤ 6 → 0 < width → width ≤ 3 →
      let up := lit.updLink l (fun x => { x with
        state := 2
        speed := speed
        width := width
        downSince := none })
      exec (.hostLinkUp l speed width) s = .next (goesOn s ((up.fnPresent (up.linkRange l).1 l 0).vfFollow s.env l))) ∧
    (lit.bit Reg.hostCtrl l = false → exec (.hostLinkUp l speed width) s = .next (goesOn s lit)) ∧
    ((lit.link l).state = 2 →
      let down := (lit.updLink l (fun x => { x with
        state := 0
        speed := 0
        width := 0
        downSince := some lit.tick })).bump (Reg.hostLinkStat l) 31 16 1
      exec (.hostLinkDown l) s = .next (goesOn s
        (((fs down).foldl (fun c f => (c.updFn f (fun x => { x with present := false })).fnSource s.env f 4 true true) down).raise 309 0 0xFFFF 0 0))) ∧
    ((lit.link l).state ≠ 2 → exec (.hostLinkDown l) s = .next (goesOn s lit)) ∧
    (∀ isCq, x.phase = .disabled ∨ x.phase = .resetting → exec (.doorbellWrite f qid isCq v) s = .next (goesOn s d)) ∧
    (x.phase ≠ .disabled → x.phase ≠ .resetting →
      ((∀ y ∈ x.sqs, y.qid ≠ qid) → exec (.doorbellWrite f qid false v) s = .next (goesOn s (d.asyncEvent f 0 0))) ∧
      (x.sqs.find? (fun y => y.qid == qid) = some q → q.size ≤ v → exec (.doorbellWrite f qid false v) s = .next (goesOn s (d.asyncEvent f 0 1))) ∧
      (x.sqs.find? (fun y => y.qid == qid) = some q → v < q.size → exec (.doorbellWrite f qid false v) s =
        .next (goesOn s (d.setFn f { x with sqs := x.sqs.map (fun y => if y.qid = qid then { y with tail := v } else y) }))) ∧
      (x.cqs.find? (fun y => y.qid == qid) = some k → v < k.size → (v + k.size - k.head) % k.size ≤ k.entries.length →
        exec (.doorbellWrite f qid true v) s = .next (goesOn s (d.setFn f { x with cqs := x.cqs.map (fun y =>
          if y.qid = qid then { y with head := v, entries := y.entries.drop ((v + k.size - k.head) % k.size) } else y) }))))) ∧
  (∀ (s : State) (xs : List Sqe) (f k req : Nat) (q : SQ) (x : Fn) (cmd : Cmd) (r : FtuReq) (res : AtsResult),
    let c := s.chip
    let burst := if x.feat.ab = 7 then q.waits else Nat.min (2 ^ x.feat.ab) q.waits
    let n := Nat.min (Nat.min burst (384 - c.fn.fetched)) x.balance.toNat
    let first := c.setFn f { x with lastQ := if k < 4 then updateAt x.lastQ k (fun _ => q.qid) else x.lastQ }
    let got := first.takeSqes f (k == 4) n xs
    let moved := got.2.updFn f (fun y => { y with sqs := updateWhere (fun z => z.qid == q.qid) (fun z => { z with head := (z.head + got.1) % z.size }) y.sqs })
    let items := (c.host.items.filter (fun x => x.cmd == cmd && x.stage != .done)).map (fun x => x.id)
    (c.nextFn = none → exec (.cmdFetch xs) s = .next s) ∧
    (c.nextFn = some f → c.chooseQueue (c.func f) = some (q, k, x) → n ≤ xs.length →
      exec (.cmdFetch xs) s = .next { s with chip := { moved with fn := { moved.fn with
        lastFn := f
        fetched := moved.fn.fetched + got.1 } } }) ∧
    (exec (.hostDmaFailure (.sqFetch f)) s = .next { s with chip := c.fnFatal f } ∧
      exec (.hostDmaFailure (.cqWrite f)) s = .next { s with chip := c.fnFatal f } ∧
      exec (.hostDmaFailure (.data cmd)) s =
        .next (goesOn s ((items.foldl (fun c i => c.endItem s.env i itDma 0 0) c).reply cmd ⟨0, 0x04, false⟩ 0x06 0))) ∧
    ((∀ y ∈ c.fn.ftuReqs, y.id ≠ req) → exec (.translationCompletion req res) s = .next (goesOn s c)) ∧
    (c.fn.ftuReqs.find? (fun y => y.id == req) = some r → res ≠ .denied →
      exec (.translationCompletion req res) s = .next (goesOn s (c.ftuEnd r res))) ∧
    (c.fn.ftuReqs.find? (fun y => y.id == req) = some r → c.tick < r.since + c.fld Reg.fnFtuCfg 11 0 →
      exec (.translationTimeout req) s = .next (goesOn s c)) ∧
    (c.fn.ftuReqs.find? (fun y => y.id == req) = some r → r.since + c.fld Reg.fnFtuCfg 11 0 ≤ c.tick →
      exec (.translationTimeout req) s = .next (goesOn s (c.ftuAnswer s.env r .denied))))

/-- Namespace management and attachment (R283, R299, R311, R322): a creation takes the lowest free index and answers the NSID, or is refused for its fields, its
creator's share or a full table; a deletion under HOLD, or of a sealed zone, is refused; the first controller attached owns the namespace; a
controller that is not there, is attached, or would make a third is refused, and a detached one's commands end. -/
def Obligations.NamespaceCommands : Prop :=
  ∀ (s : State) (cmd : Cmd) (nsid size mode w i f : Nat) (zoned : Bool) (handles : List Nat) (n : Ns), AdminReady s cmd →
    let c := s.chip
    let t := c.taken cmd
    let ends := fun (x : Instr) (d : Chip) (sct sc dw0 : Nat) (dnr : Bool) => exec x s = .next (goesOn s (d.reply cmd ⟨sct, sc, dnr⟩ dw0 0))
    let mine := (c.host.nss.filter (fun p => p.2.any (fun n => n.creator == cmd.fn))).length
    let create := Instr.namespaceManagement cmd 0 nsid zoned size mode w handles
    let delete := Instr.namespaceManagement cmd 1 nsid zoned size mode w handles
    (createBad c s.env zoned size mode w handles = true → ends create t 0 0x02 0 true) ∧
    (createBad c s.env zoned size mode w handles = false → c.fn.shares.ns ≤ mine → ends create t 1 0x16 0x03 true) ∧
    (createBad c s.env zoned size mode w handles = false → mine < c.fn.shares.ns → i < 1024 → c.ns i = none → (∀ j < i, c.ns j ≠ none) →
      (zoned = true ∨ c.fullRefuses size = false → ends create (t.setNs i (some (newNs s.env zoned size mode w cmd.fn handles))) 0 0x00 (i + 1) false) ∧
      (zoned = false → c.fullRefuses size = true → ends create t 1 0x15 0x03 true)) ∧
    (nsid ≠ 0 → nsid ≠ 0xFFFFFFFF → c.ns (nsxOf nsid) = none → ends delete t 0 0x0B 0 true) ∧
    (nsid ≠ 0 → nsid ≠ 0xFFFFFFFF → c.ns (nsxOf nsid) = some n →
      (n.holdsSeal = true → ends delete t 0 0x15 0x0F true) ∧
      (n.holdsSeal = false → s.fuse.lifecycle = .hold → ends delete t 7 0xC3 0x10 true) ∧
      (n.holdsSeal = false → s.fuse.lifecycle ≠ .hold → ends delete (t.deleteNs s.env (nsxOf nsid)) 0 0x00 0 false)) ∧
    (nsid ≠ 0 → c.ns (nsxOf nsid) = some n →
      let put := fun (d : Chip) (n : Ns) => d.setNs (nsxOf nsid) (some n)
      ((c.func f).present = false → ends (.namespaceAttachment cmd 0 nsid [f]) t 1 0x1C 0 true) ∧
      ((c.func f).present = true → n.owner = some f ∨ n.standby = some f → ends (.namespaceAttachment cmd 0 nsid [f]) t 1 0x18 0 true) ∧
      ((c.func f).present = true → n.owner = none → n.standby = none →
        ends (.namespaceAttachment cmd 0 nsid [f]) (put t { n with owner := some f }) 0 0x00 0 false) ∧
      (∀ o, (c.func f).present = true → n.owner = some o → o ≠ f → n.standby = none →
        ((c.func o).link = (c.func f).link → ends (.namespaceAttachment cmd 0 nsid [f]) t 1 0x1C 0 true) ∧
        ((c.func o).link ≠ (c.func f).link → ends (.namespaceAttachment cmd 0 nsid [f]) (put t { n with standby := some f }) 0 0x00 0 false)) ∧
      (n.owner ≠ some f → n.standby ≠ some f → ends (.namespaceAttachment cmd 1 nsid [f]) t 1 0x1A 0 true) ∧
      (n.owner = some f → n.standby ≠ some f →
        let ended := t.dropCmds s.env ⟨0, 0x0B, true⟩ (fun p => p.nsx == nsxOf nsid && [f].contains p.cmd.fn)
          (fun o => o.nsx == nsxOf nsid && [f].contains o.cmd.fn)
        ends (.namespaceAttachment cmd 1 nsid [f]) (ended.updNs (nsxOf nsid) (fun n => { n with
          owner := if n.owner.any [f].contains then none else n.owner
          standby := if n.standby.any [f].contains then none else n.standby
          move := none })) 0 0x00 0 false))

/-- Firmware (R311, R350): a piece joins the image unless its place or size is no multiple of 4 KiB within 16 MiB or it overlaps another; a commit of a
whole image whose signature and version pass writes its slot, activates it as CA says, and then raises the minimum version of its key; else nothing
changes and it is Invalid Firmware Image.
Format and sanitize (R312-R315): a running one, a sealed zone and HOLD refuse a start; one that is taken makes the progress record; unit 0 clears what
it names; a unit that ends rewrites the record; the last one completes the format. A sanitize completes at once; an overwrite is refused; Exit Failure
Mode clears a failed one. -/
def Obligations.FirmwareFormatAndSanitize : Prop :=
  (∀ (s : State) (cmd : Cmd) (off len ca fs keyid svn : Nat) (sig : Bool), AdminReady s cmd →
    let c := s.chip
    let t := c.taken cmd
    let ends := fun (x : Instr) (d : Chip) (sct sc : Nat) (dnr : Bool) => exec x s = .next (adminDone s (d.reply cmd ⟨sct, sc, dnr⟩ 0 0))
    let placed := 0 < len ∧ off % 4096 = 0 ∧ len % 4096 = 0 ∧ off + len ≤ 2 ^ 24
    let meets := ∃ p ∈ c.host.fwPieces, off < p.1 + p.2 ∧ p.1 < off + len
    let slot := if fs = 0 then 1 - c.host.fwActive % 2 else fs - 1
    let good := (ca ≤ 1 → fwWhole c.host.fwPieces = true) ∧ sig = true ∧ keyid < 4 ∧ s.fuse.svn.getD keyid 0 ≤ svn
    let host := { t.host with
      fwPieces := if ca ≤ 1 then [] else c.host.fwPieces
      fwSlots := if ca ≤ 1 then updateAt c.host.fwSlots slot (fun _ => svn) else c.host.fwSlots
      fwActive := if 1 ≤ ca then slot else c.host.fwActive }
    (¬ placed → ends (.firmwareImageDownload cmd off len) t 0 0x02 true) ∧
    (placed → meets → ends (.firmwareImageDownload cmd off len) t 1 0x14 true) ∧
    (placed → ¬ meets → ends (.firmwareImageDownload cmd off len)
      { t with host := { t.host with fwPieces := insertBy (fun p => p.1) (off, len) c.host.fwPieces } } 0 0x00 false) ∧
    (3 ≤ ca → ends (.firmwareCommit cmd ca fs keyid svn sig) t 0 0x02 true) ∧
    (ca < 3 → 2 < fs → ends (.firmwareCommit cmd ca fs keyid svn sig) t 1 0x06 true) ∧
    (ca < 3 → fs ≤ 2 → ¬ good → ends (.firmwareCommit cmd ca fs keyid svn sig) t 1 0x07 true) ∧
    (ca < 3 → fs ≤ 2 → good →
      exec (.firmwareCommit cmd ca fs keyid svn sig) s = .next (adminDone { s with
        fuse := if 1 ≤ ca then { s.fuse with svn := updateAt s.fuse.svn keyid (Nat.max svn) } else s.fuse } (({ t with host := host } : Chip).reply
          cmd ⟨0, 0, false⟩ 0 0)))) ∧
  (∀ (s : State) (cmd : Cmd) (nsid lbaf ses : Nat) (n : Ns) (action : Nat) (ok : Bool),
    let c := s.chip
    let t := c.taken cmd
    let p := c.host.progress
    let ends := fun (x : Instr) (d : Chip) (sct sc dw0 : Nat) (dnr : Bool) => exec x s = .next (adminDone s (d.reply cmd ⟨sct, sc, dnr⟩ dw0 0))
    let pf := (c.func cmd.fn).vf = 0
    let fresh := fun (action nsx total : Nat) (nss : List Nat) =>
      ({ t with host := { t.host with progress := ⟨action, 1, nsx, total, 0, c.stamp, p.seq + 1, 0, some cmd, nss⟩ } } : Chip).pass
    (AdminReady s cmd →
      (lbaf ≠ 0 → ends (.formatNvm cmd nsid lbaf ses) t 0 0x0A 0 true) ∧
      (lbaf = 0 → 2 ≤ ses → ends (.formatNvm cmd nsid lbaf ses) t 0 0x02 0 true) ∧
      (lbaf = 0 → ses < 2 → nsid ≠ 0xFFFFFFFF → nsid ≠ 0 → c.ns (nsxOf nsid) = some n → n.owner = some cmd.fn →
        (p.state = 1 → 3 ≤ p.action → ends (.formatNvm cmd nsid lbaf ses) t 0 0x84 0 false) ∧
        (p.state ≠ 1 → n.holdsSeal = true → ends (.formatNvm cmd nsid lbaf ses) t 0 0x15 0x0F true) ∧
        (p.state ≠ 1 → n.holdsSeal = false → s.fuse.lifecycle = .hold → ends (.formatNvm cmd nsid lbaf ses) t 7 0xC3 0x10 true) ∧
        (p.state ≠ 1 → n.holdsSeal = false → s.fuse.lifecycle ≠ .hold → exec (.formatNvm cmd nsid lbaf ses) s =
          .next (adminDone s (fresh (3 + ses) (nsxOf nsid) (if ses = 0 then 1 else 1 + (t.nsCblks [nsxOf nsid]).length) [nsxOf nsid])))) ∧
      (∀ i, (action, i) ∈ [(1, Instr.sanitizeBlockErase cmd), (2, .sanitizeCryptoErase cmd)] →
        (¬ pf → ends i t 0 0x01 0 true) ∧
        (pf → p.state = 1 → p.action ≤ 2 → ends i t 0 0x1D 0 false) ∧
        (pf → p.state ≠ 1 → (∀ q ∈ c.host.nss, ∀ n, c.ns q.1 = some n → n.holdsSeal = false) → s.fuse.lifecycle ≠ .hold →
          ends i (fresh action 0 (c.map.cords.length + action) []) 0 0x00 0 false)) ∧
      ends (.sanitizeOverwrite cmd) t 0 (if pf then 0x02 else 0x01) 0 true ∧
      (pf → p.state = 3 → p.action ≤ 2 → ends (.sanitizeExitFailureMode cmd)
        { t with host := { t.host with progress := { p with state := 0, seq := p.seq + 1 } } } 0 0x00 0 false)) ∧
    (let step := fun (d : Chip) (st : Nat) => ({ d with host := { d.host with progress := { d.host.progress with
       done := d.host.progress.done + 1
       seq := d.host.progress.seq + 1
       fails := 0
       state := st } } } : Chip)
     (p.state ≠ 1 → exec (.formatUnitDone ok) s = .next (goesOn s c) ∧ exec (.sanitizeUnitDone ok) s = .next (goesOn s c)) ∧
     (p.state = 1 → 3 ≤ p.action → c.unitReady p.nss false = true → p.done = 0 →
       let d := p.nss.foldl (fun c x => c.clearNs s.env x) c
       (d.host.progress.total ≤ d.host.progress.done + 1 → exec (.formatUnitDone ok) s = .next (goesOn s ((step d 2).formatEnd ⟨0, 0, false⟩))) ∧
       (d.host.progress.done + 1 < d.host.progress.total → exec (.formatUnitDone ok) s = .next (goesOn s (step d 1)))) ∧
     (p.state = 1 → p.action ≤ 2 → c.unitReady [] true = true → p.done = 0 →
       let d := c.sanitizeMap s.env
       d.host.progress.done + 1 < d.host.progress.total → exec (.sanitizeUnitDone ok) s = .next (goesOn s (step d 1)))))

/-- FN_CMD (R318, R329, R330, R505): while an operation runs GO does nothing; a function that does not exist, is in a reset, or is not in the state that the
operation needs refuses it; an enable and a resume end at once; a disable, the resets and a pause end with the function's commands.
The resets of a function by its host (R316, R317, R326-R330): an FLR squashes; CC.EN to 0 and a shutdown drain; one that meets a squash goes on as a squash; a drain
that takes too long becomes a squash, and not before; with nothing left of its commands, a shutdown ends with SHST 10b and a paused function stands still,
its queues kept; the VFs of a link follow VF Enable and NumVFs. -/
def Obligations.FunctionOperations : Prop :=
  (∀ (s : State) (f op : Nat) (i : Instr), f < 512 → s.chip.bit Reg.fnCmd 31 = false →
    (op, i) ∈ [(0, Instr.fnEnable f), (1, .fnDisable f), (2, .fnDrainReset f), (3, .fnSquashReset f), (4, .fnPause f), (5, .fnResume f)] →
    let c := s.chip
    let e := s.env
    let d := (c.setReg Reg.fnCmd (2 ^ 31 + op * 2 ^ 28 + f)).setReg Reg.fnCmdRes 0
    let p := (c.func f).phase
    let answers := fun (t : Chip) => exec i s = .next (if op = 1 ∨ op = 3 then goesOn s t else { s with chip := t })
    let runs := fun (t : Chip) => answers { t with fn := { t.fn with cmdRunning := some f } }
    let back := fun (x : Fn) => { x with
      phase := .enabled
      fetchHold := true }
    (op ≤ 1 → 256 ≤ f → answers (d.fnCmdEnd 0x03)) ∧
    (op ≤ 1 → f < 256 → p = .resetting → answers (d.fnCmdEnd 0x01)) ∧
    (f < 256 → (op = 2 ∨ op = 3) → p = .disabled → answers (d.fnCmdEnd 0x05)) ∧
    (f < 256 → op = 4 → p ≠ .enabled → answers (d.fnCmdEnd 0x05)) ∧ (f < 256 → op = 5 → p ≠ .paused → answers (d.fnCmdEnd 0x05)) ∧
    (op = 0 → f < 256 → p = .enabled ∨ p = .paused → answers ((d.updFn f (fun x => { x with fwDisabled := false })).fnCmdEnd 0x00)) ∧
    (op = 0 → f < 256 → p = .disabled → (c.func f).present = true →
      answers (((d.updFn f (fun x => { x with fwDisabled := false })).fnEnter f).fnCmdEnd 0x00)) ∧
    (op = 1 → f < 256 → p = .disabled → answers ((d.updFn f (fun x => { x with fwDisabled := true })).fnCmdEnd 0x00)) ∧
    (op = 1 → f < 256 → p = .enabled ∨ p = .paused → runs ((d.updFn f (fun x => { x with fwDisabled := true })).fnReset e f ⟨6, true, true, false, false, 0, 0⟩)) ∧
    (op = 2 → f < 256 → p = .enabled ∨ p = .paused → runs (d.fnReset e f ⟨5, false, false, false, false, 0, 0⟩)) ∧
    (op = 3 → f < 256 → p = .enabled ∨ p = .paused → runs (d.fnReset e f ⟨5, true, false, false, false, 0, 0⟩)) ∧
    (op = 4 → f < 256 → p = .enabled → runs (d.fnReset e f ⟨0, false, false, true, false, 0, 0⟩)) ∧
    (op = 5 → f < 256 → p = .paused → answers ((d.updFn f back).fnCmdEnd 0x00))) ∧
  (∀ (s : State) (f l n : Nat) (on : Bool) (r : FnReset),
    let c := s.chip
    let e := s.env
    let x := c.func f
    let quiet := c.fnBusy f = false ∧ ∀ q ∈ c.fn.ftuReqs, q.fn ≠ f
    let limit := c.fld Reg.fnResetCfg 13 0
    let starts := fun (d : Chip) (y : FnReset) (cause step : Nat) => d.updFn f (fun x => { x with
      phase := .resetting
      cause := cause
      reset := some { y with
        started := c.tick
        step := step } })
    (x.phase = .disabled → exec (.functionLevelReset f) s = .next (goesOn s c)) ∧
    (x.phase ≠ .disabled → x.reset = none →
      exec (.functionLevelReset f) s = .next (goesOn s ((starts c ⟨1, true, false, false, false, 0, 0⟩ 1 4).squash e f))) ∧
    (x.ccEn = false → exec (.ccEnClear f) s = .next s) ∧
    (x.ccEn = true → x.phase ≠ .disabled → x.reset = none →
      exec (.ccEnClear f) s = .next { s with chip := starts (c.updFn f (fun x => { x with ccEn := false })) ⟨2, false, false, false, false, 0, 0⟩ 2 2 }) ∧
    (x.phase = .enabled ∨ x.phase = .paused → x.reset = none → exec (.shutdownNotification f) s =
      .next { s with chip := starts (c.updFn f (fun x => { x with shst := 1 })) ⟨0, false, false, false, true, 0, 0⟩ x.cause 2 }) ∧
    (x.phase = .disabled ∨ x.phase = .resetting → exec (.shutdownNotification f) s = .next s) ∧
    (x.reset = some r → r.squash = false → c.tick < r.started + limit → exec (.drainTimeout f) s = .next (goesOn s c)) ∧
    (x.reset = some r → r.squash = false → r.started + limit ≤ c.tick → exec (.drainTimeout f) s =
      .next (goesOn s ((c.updFn f (fun x => { x with reset := some { r with squash := true, step := 4 } })).squash e f))) ∧
    (x.reset = some r → ¬ quiet → exec (.functionResetDone f) s = .next (goesOn s c)) ∧
    (x.reset = some r → quiet → c.fn.cmdRunning ≠ some f →
      (r.pause = true → exec (.functionResetDone f) s = .next (goesOn s (c.updFn f (fun x => { x with phase := .paused, reset := none })))) ∧
      (r.pause = false → r.shutdown = true →
        exec (.functionResetDone f) s = .next (goesOn s (c.updFn f (fun x => { x with phase := .enabled, reset := none, shst := 2 })))) ∧
      (r.pause = false → r.shutdown = false → r.disable = false → x.present = true → x.fwDisabled = false → r.cause ≠ 6 →
        exec (.functionResetDone f) s = .next (goesOn s
          (((c.fnRelease f r).updFn f (fun x => { x with phase := .enabled, reset := none })).raise (512 + f) 0 f 0 0)))) ∧
    ((c.link l).state ≠ 2 → exec (.vfEnableChange l on n) s = .next (goesOn s c)) ∧
    ((c.link l).state = 2 → n ≤ (c.linkRange l).2 - 1 →
      exec (.vfEnableChange l on n) s = .next (goesOn s ((c.updLink l (fun x => { x with vfEnable := on, numVfs := n })).vfFollow e l))))

/-- FN_CMD that names function 256 or above is a request for a 257th function: it completes with LIMIT and changes nothing, whatever its operation
(R318); what waited for the items of a disabled or squashed function goes on as ever. -/
def Obligations.FnCommandsBeyondTheFunctions : Prop :=
  ∀ (s : State) (f op : Nat) (i : Instr), 256 ≤ f → f < 512 → s.chip.bit Reg.fnCmd 31 = false →
    (op, i) ∈ [(0, Instr.fnEnable f), (1, .fnDisable f), (2, .fnDrainReset f), (3, .fnSquashReset f), (4, .fnPause f), (5, .fnResume f)] →
    let c := s.chip
    let d := (((c.setReg Reg.fnCmd (2 ^ 31 + op * 2 ^ 28 + f)).setReg Reg.fnCmdRes 0).setReg Reg.fnCmdRes (2 ^ 31 + 0x03)).setBit Reg.fnCmd 31 false
    let t : Chip := { d with fn := { c.fn with cmdRunning := none } }
    exec i s = .next (if op = 1 ∨ op = 3 then goesOn s t else { s with chip := t })

/-! Keys, the seal and tokens. -/

/-- Key operations (R340-R348, R505): while one runs, GO starts nothing; one that a check refuses ends at once with its status; a generation waits for the
vault, an erase and a rewrite for the slot's users; a reload loads the page from the vault and is done. The pages' owners send the same through their
functions; a payload that is not as stated is Invalid Field in Command.
How key operations end, and what else acts on the store (R344-R347, R351, R373): a drained slot that is erased is empty and no page names it, one that is
rewritten holds the new key; both vault copies written, a generated slot is VALID under its index and the operation completes; the entropy source's
health; an anchor is programmed once, whole, in BLANK and PROVISIONED, from the secure world. -/
def Obligations.KeyStore : Prop :=
  (∀ (s : State) (page index slot op : Nat) (i : Instr), page < 512 → index < 16 → slot < 2048 →
    (op, i) ∈ [(0, Instr.keyGenerateXts page index), (1, .keyGenerateGcm page index), (2, .keyEraseIndex page index), (3, .keyRewrite page index)] →
    let c := s.chip
    let lc := s.fuse.lifecycle
    let asked := fun (op slot page index : Nat) =>
      (c.setReg Reg.keyCmd (op * 2 ^ 28 + slot * 2 ^ 16 + page * 2 ^ 7 + index * 8 + 2 ^ 31)).setReg Reg.keyCmdRes 0
    let ends := fun (d : Chip) (slot st : Nat) => (d.setReg Reg.keyCmdRes (2 ^ 31 + slot % 1024 * 65536 + st)).setBit Reg.keyCmd 31 false
    let st := c.keyCheck lc op 0 page index
    (c.keyBusy = true → exec i s = .next s ∧ exec (.keyEraseSlot slot) s = .next s ∧ exec (.keyReloadPage page) s = .next s) ∧
    (c.keyBusy = false →
      (st ≠ 0x00 → exec i s = .next { s with chip := ends (asked op 0 page index) 0 st }) ∧
      (c.keyCheck lc 4 slot 0 0 ≠ 0x00 → exec (.keyEraseSlot slot) s = .next { s with chip := ends (asked 4 slot 0 0) slot (c.keyCheck lc 4 slot 0 0) }) ∧
      (c.keyCheck lc 4 slot 0 0 = 0x00 → ∃ t, exec (.keyEraseSlot slot) s = .next t ∧
        t.chip.slot slot = { c.slot slot with state := .draining } ∧ t.chip.key.jobs = c.key.jobs ++ [KeyJob.mk 4 slot 0 0 [] false false true none] ∧
        t.chip.key.pages = c.key.pages ∧ t.chip.key.vault = c.key.vault ∧ (∀ j, j ≠ slot → t.chip.slot j = c.slot j)) ∧
      (st = 0x00 → op = 0 ∨ op = 1 → ∃ t k key, exec i s = .next t ∧ key.length = (if op = 0 then 64 else 32) ∧
        t.chip.key.jobs = c.key.jobs ++ [KeyJob.mk op k page index key true false true none] ∧ t.chip.key.slots = c.key.slots ∧
        t.chip.key.vault = c.key.vault ∧ (256 ≤ page → k = (page - 256) * 16 + index) ∧ (page < 256 → 128 ≤ k)) ∧
      (st = 0x00 → op = 2 → ∃ t k, c.pageSlot page index = some k ∧ exec i s = .next t ∧ t.chip.slot k = { c.slot k with state := .draining } ∧
        t.chip.key.jobs = c.key.jobs ++ [KeyJob.mk 2 k page index [] false false true none]) ∧
      (st = 0x00 → op = 3 → ∃ t k key, c.pageSlot page index = some k ∧ exec i s = .next t ∧ t.chip.slot k = { c.slot k with state := .draining } ∧
        t.chip.key.jobs = c.key.jobs ++ [KeyJob.mk 3 k page index key false false true none]) ∧
      (c.keyCheck lc 5 0 page 0 = 0x00 → exec (.keyReloadPage page) s = .next { s with chip := ends ((asked 5 0 page 0).reloadPage page) 0 0x00 }))) ∧
  (∀ (s : State) (k a : Nat) (j : KeyJob) (ok : Bool) (acc : Access) (v : Word),
    let c := s.chip
    let drained : Chip := { c with key := { c.key with jobs := updateWhere (fun y => y == j) (fun y => { y with drained := true }) c.key.jobs } }
    (c.key.jobs.find? (fun y => y.slot == k && !y.drained) = some j → (c.slot k).users ≠ 0 → exec (.keySlotDrained k) s = .next s) ∧
    (c.key.jobs.find? (fun y => y.slot == k && !y.drained) = some j → (c.slot k).users = 0 →
      (j.op = 3 → exec (.keySlotDrained k) s =
        .next { s with chip := drained.setSlot k { c.slot k with key := j.key, ctr := 0, resv := gcmBlock } }) ∧
      (j.op ≠ 3 →
        let d := drained.setSlot k KeySlot.empty
        exec (.keySlotDrained k) s = .next { s with chip := { d with key := { d.key with pages := d.key.pages.filter (fun p => p.2 != k + 1) } } })) ∧
    (c.key.jobs.find? (fun y => y.drained && !y.vaulted) = none → exec .keyVaultUpdated s = .next s) ∧
    (c.key.jobs.find? (fun y => y.drained && !y.vaulted) = some j → j.op ≤ 1 →
      let type := if 256 ≤ j.page then 3 else j.op + 1
      let d := (c.setSlot j.slot ⟨.valid, type, j.key, 0, 0, gcmBlock⟩).setPage j.page j.index (some j.slot)
      exec .keyVaultUpdated s = .next { s with chip := ({ d with key := { d.key with
        vault := vaultDrop d.key.vault j.slot ++ [VaultKey.mk j.page j.index j.slot type j.key gcmBlock] } } : Chip).keyFinish j 0x00 }) ∧
    (c.key.jobs.find? (fun y => y.drained && !y.vaulted) = some j → j.op = 2 ∨ j.op = 4 →
      exec .keyVaultUpdated s = .next { s with chip := ({ c with key := { c.key with vault := vaultDrop c.key.vault j.slot } } : Chip).keyFinish j 0x00 }) ∧
    exec (.entropyHealthChange ok) s = .next { s with chip := { c with key := { c.key with entropy := ok } } } ∧
    (let shows := fun (t : State) (st : Nat) => exec (.keyAnchorWrite acc a v) s = .next { t with chip := { t.chip with resp := ⟨0, st⟩ } }
     let words := Tab.set (fun _ => 0) c.key.anchorWords (a * 32 + 23) v.toNat
     let put : State := { s with
       fuse := { s.fuse with anchors := Tab.set (fun _ => []) s.fuse.anchors a ((List.range 24).flatMap (fun i => leBytes 4 (Tab.get (fun _ => 0) words (a * 32 + i)))) }
       chip := { c with key := { c.key with anchorWords := words } } }
     (acc.secure = false → shows { s with chip := c.raise 304 0x06 0xFFFF 0 0 } 0x06) ∧
     (acc.secure = true → acc.who < 8 → s.fuse.lifecycle ≠ .blank → s.fuse.lifecycle ≠ .provisioned → shows s 0x00) ∧
     (acc.secure = true → acc.who < 8 → s.fuse.lifecycle = .blank ∨ s.fuse.lifecycle = .provisioned →
       (a < 8 → s.fuse.anchor a ≠ [] → shows s 0x05) ∧ (a < 8 → s.fuse.anchor a = [] → shows put 0x00))))

/-- Key requests of a function's host and what every security command meets (R344, R369, R371, R373, R377): BLANK and RETIRED refuse with LIFECYCLE; a key payload
is 16 bytes, its operation, an index below 16 and zeros; only PFs read the seal log, the key object, the identity chain and the challenge.
Raw sectors and the dirty-page log through Security Receive (R335, R370): the owner of a namespace names at most 16 written sectors of a sealed zone, which
then are answered as they are stored; what was not named, or has left the sealed zone, is Invalid Field in Command; link 0's PF reads the records of a
cut epoch. -/
def Obligations.SecurityProtocols : Prop :=
  (∀ (s : State) (cmd : Cmd) (pay : List Byte) (index op : Nat) (nsid secp : Nat) (b : Byte) (i : Instr), (s.chip.func cmd.fn).phase = .enabled →
    s.chip.pmu.flush = none →
    (op, i) ∈ [(0, Instr.keyPageGenerateXts cmd pay), (1, .keyPageGenerateGcm cmd pay), (2, .keyPageErase cmd pay), (3, .keyPageRewrite cmd pay)] →
    let c := s.chip
    let t := c.taken cmd
    let gives := fun (x : Instr) (bs : List Byte) => exec x s = .next (adminDone s ((t.answerDma cmd.fn bs).reply cmd ⟨0, 0, false⟩ 0 0))
    let ends := fun (x : Instr) (d : Chip) (sct sc dw0 : Nat) (dnr : Bool) => exec x s = .next (adminDone s (d.reply cmd ⟨sct, sc, dnr⟩ dw0 0))
    let refuses := s.fuse.lifecycle = .blank ∨ s.fuse.lifecycle = .retired
    let pf := (c.func cmd.fn).vf = 0
    (refuses → ends i t 0 0x15 0x11 true ∧ ends (.rawSectorReceive cmd nsid) t 0 0x15 0x11 true ∧
      ends (.securityProtocolInvalid cmd secp) t 0 0x15 0x11 true) ∧
    (¬ refuses →
      (pay = [BitVec.ofNat 8 (op + 1), b] ++ List.replicate 14 0 → b.toNat = index → index < 16 →
        exec i s = .next (adminDone s (t.keyStart s.fuse.lifecycle op 0 cmd.fn index false (some cmd)))) ∧
      (pay.length ≠ 16 → ends i t 0 0x02 0 true) ∧
      ends (.securityProtocolInvalid cmd secp) t 0 0x02 0 true ∧
      (pf → gives (.tokenChallenge cmd) (beBytes 8 s.env.serial ++ beBytes 8 s.fuse.nonce)) ∧
      (pf → pay.length = 8 → ends (.sealLogSeqSend cmd pay) { t with sealer := { t.sealer with from_ := Tab.insert t.sealer.from_ cmd.fn (beNat pay) } } 0 0 0 false) ∧
      (pf → pay.length ≠ 8 → ends (.sealLogSeqSend cmd pay) t 0 0x02 0 true)) ∧
    (¬ pf → ends (.tokenChallenge cmd) t 0 0x02 0 true ∧ ends (.sealLogReceive cmd) t 0 0x02 0 true ∧ ends (.identityChainReceive cmd) t 0 0x02 0 true ∧
      ends (.epochKeyObjectReceive cmd) t 0 0x02 0 true) ∧
    (pf → gives (.identityChainReceive cmd) s.env.chain ∧
      (c.sealer.keyObj ≠ [] → gives (.epochKeyObjectReceive cmd) c.sealer.keyObj) ∧
      (c.sealer.keyObj = [] → ends (.epochKeyObjectReceive cmd) t 0 0x15 0x11 true) ∧
      (let from_ := Tab.get (fun _ => 0) c.sealer.from_ cmd.fn
       let bs := (c.sealer.log.filter (fun r => decide (from_ ≤ r.seq))).flatMap (fun r => r.bytes ++ r.sig.getD [])
       exec (.sealLogReceive cmd) s = .next (adminDone s (((t.sealCheck s.env from_).answerDma cmd.fn bs).reply cmd ⟨0, 0, false⟩ 0 0))))) ∧
  (∀ (s : State) (cmd : Cmd) (nsid lba k j : Nat) (n : Ns), AdminReady s cmd → lba < 2 ^ 64 → k < 2 ^ 32 → nsid ≠ 0 → s.chip.ns (nsxOf nsid) = some n →
    let c := s.chip
    let t := c.taken cmd
    let nsx := nsxOf nsid
    let z := n.zone (lba / Nat.max 1 n.zsze)
    let within := n.zoned = true ∧ n.owner = some cmd.fn ∧ z.sealed ≠ none ∧ lba % Nat.max 1 n.zsze + k ≤ z.wp
    let pay := leBytes 8 lba ++ leBytes 4 k ++ List.replicate 4 0
    let ends := fun (x : Instr) (d : Chip) (sct sc dw0 : Nat) (dnr : Bool) => exec x s = .next (adminDone s (d.reply cmd ⟨sct, sc, dnr⟩ dw0 0))
    let srcs := (List.range k).map (fun i => t.sectorSrc s.env nsx (lba + i) n)
    (1 ≤ k → k ≤ 16 → within → ends (.rawSectorRangeSend cmd nsid pay) { t with sealer := { t.sealer with raw := Tab.insert t.sealer.raw cmd.fn (nsx, lba, k) } } 0 0 0 false) ∧
    (k = 0 ∨ 16 < k ∨ ¬ within → ends (.rawSectorRangeSend cmd nsid pay) t 0 0x02 0 true) ∧
    (Tab.get (fun _ => (0, 0, 0)) c.sealer.raw cmd.fn = (nsx, lba, k) →
      (k = 0 ∨ ¬ within → ends (.rawSectorReceive cmd nsid) t 0 0x02 0 true) ∧
      (0 < k → within → (∃ x ∈ srcs, x = .unreadable) → ends (.rawSectorReceive cmd nsid) t 2 0x81 0x30080 true) ∧
      (0 < k → within → (∀ x ∈ srcs, x ≠ .unreadable) →
        ends (.rawSectorReceive cmd nsid) (t.answerDma cmd.fn (srcs.flatMap (fun x => fullSector (t.srcData x)))) 0 0 0 false)) ∧
    (let main := (c.func cmd.fn).vf = 0 ∧ (c.func cmd.fn).link = 0
     (¬ main → ends (.dirtyLogReceive cmd k) t 0 0x02 0 true) ∧
     (main → firstIdx (fun (x : DlogSlot) => x.fn == k % 256 && x.cutDone) c.fn.dlog = some j →
       ends (.dirtyLogReceive cmd k) (t.answerDma cmd.fn (dlogRecords t s.mem.dram j (t.dlogSlot j).cutIdx)) 0 0 0 false)))

/-- Tokens (R371-R375): a VF's is Invalid Field in Command; one that a check refuses leaves its status and REASON and changes nothing else; an accepted
release appends its record, releases the zone and uses up the nonce; an accepted transition writes its records and its fuse, uses up the nonce, completes,
and resets the controller.
Alarms of the key store (R357-R359, R376): a logged one only raises its bit and event 298; another zeroes every slot, ends every operation with
KEY_UNAVAILABLE and counts; LOCK keeps the store empty; KILL blows its fuse and retires the part. -/
def Obligations.TokensAndAlarms : Prop :=
  (∀ (s : State) (cmd : Cmd) (tok : List Byte), AdminReady s cmd →
    let c := s.chip
    let t := c.taken cmd
    (∀ act i, (act, i) ∈ [(1, Instr.tokenReleaseZone cmd tok), (2, .tokenEnterHold cmd tok), (3, .tokenLeaveHold cmd tok), (4, .tokenRetire cmd tok), (5, .tokenDeploy cmd tok)] →
      ((c.func cmd.fn).vf ≠ 0 → exec i s = .next (adminDone s (t.reply cmd ⟨0, 0x02, true⟩ 0 0))) ∧
      ((c.func cmd.fn).vf = 0 →
        let v := tokCheck s act tok
        let told := t.setReg Reg.sealTokenStat (v.2 * 256 + v.1)
        let moved := transition act tok { s with chip := told }
        let left : Chip := { moved.chip with host := { moved.chip.host with admin := moved.chip.host.admin.erase cmd } }
        exec i s = .next (if v.1 ≠ 0x00 then adminDone s (told.replySt cmd .other v.1)
          else if act = 1 then adminDone { s with fuse := { s.fuse with nonce := s.fuse.nonce + 1 } } ((told.tokRelease s.env tok).reply cmd ⟨0, 0, false⟩ 0 0)
          else flushDlog (resetSource 5 { moved with chip := left.complete cmd ⟨0, 0, false⟩ 0 0 })))) ∧
    (∀ act, 2 ≤ act → act ≤ 5 →
      let u := transition act tok s
      u.fuse.nonce = s.fuse.nonce + 1 ∧ u.fuse.kill = s.fuse.kill ∧ u.fuse.anchors = s.fuse.anchors ∧ u.fuse.svn = s.fuse.svn ∧
      u.fuse.lcCount = (if act = 2 ∨ act = 3 then s.fuse.lcCount + 1 else s.fuse.lcCount) ∧
      u.fuse.retired = (s.fuse.retired || act == 4) ∧ u.fuse.deployed = (s.fuse.deployed || act == 5) ∧ u.mem = s.mem ∧ u.env = s.env)) ∧
  (∀ (s : State) (src : AlarmSource), src ≠ .repeat16 →
    let c := s.chip
    let bit := match src with | .vglitch => 0 | .cglitch => 1 | .temp => 2 | .mesh => 3 | .rail => 4 | .lockstep => 5 | .repeat16 => 6
    let act := c.fld Reg.keyAlarmCfg (2 * bit + 1) (2 * bit)
    let seen := (c.orReg Reg.keyAlarmStat (2 ^ bit)).raise0 298
    (act = 0 → exec (.keyAlarm src) s = .next { s with chip := seen }) ∧
    (act = 1 ∨ act = 2 → c.fld Reg.keyAlarmCnt 4 0 < 15 → ∃ t, exec (.keyAlarm src) s = .next t ∧ t.fuse = s.fuse ∧ t.mem = s.mem ∧
      t.chip.key.slots = [] ∧ t.chip.key.pages = [] ∧ t.chip.key.jobs = [] ∧ t.chip.key.locked = (c.key.locked || act == 2) ∧
      (t.chip.key.locked = true → t.chip.key.reload = none) ∧ t.chip.key.vault = c.key.vault) ∧
    (act = 3 → s.fuse.lifecycle ≠ .hold → ∃ t, exec (.keyAlarm src) s = .next t ∧ t.fuse.kill = true ∧ t.fuse.retired = true ∧
      t.fuse.anchors = s.fuse.anchors ∧ t.fuse.nonce = s.fuse.nonce ∧ t.fuse.lcCount = s.fuse.lcCount))

/-- The seal (R364-R368): a strike that is due, with the engine ready, appends an epoch record and begins the next epoch; a request for a tick less than two
ahead is BAD_DESCRIPTOR, one while another waits BUSY_RETRY, and a good one waits; the oldest unsigned record is signed when slot 1 holds its key; every
appended record takes the next SEQ, and the chain hash is that of its bytes. -/
def Obligations.SealOperations : Prop :=
  (∀ (s : State) (acc : Access) (v h : Word) (rl rh : RegRow) (i j : Nat) (x : Nat × Nat × Nat × Bool) (rest : List (Nat × Nat × Nat × Bool)),
    let c := s.chip
    let lo := Reg.sealStrikeLo
    let key := acc.who * 2 ^ 32 + lo
    let freed : State := { s with chip := { c with regs := { c.regs with wrHold := Tab.set (fun _ => none) c.regs.wrHold key none } } }
    let u := plainWrite rl lo v.toNat (plainWrite rh (lo + 4) h.toNat freed)
    let tk := (h.toNat * 2 ^ 32 + v.toNat) % 2 ^ 48
    (c.sealReady = true → c.periodDue = true → exec .epochStrikePeriodic s = .next { s with chip := (c.strike s.env c.strikeDue).2 }) ∧
    (c.sealReady = false ∨ c.periodDue = false → exec .epochStrikePeriodic s = .next s) ∧
    (c.sealReady = true → c.strikeDue = true → exec .epochStrikeRequested s = .next { s with chip := (c.strike s.env true).2 }) ∧
    (c.sealReady = false ∨ c.strikeDue = false → exec .epochStrikeRequested s = .next s) ∧
    (acc.who < 8 → acc.secure = true → findReg lo = some (rl, i) → findReg (lo + 4) = some (rh, j) → Tab.get (fun _ => none) c.regs.wrHold key = some h →
      (tk < u.chip.tick + 2 → exec (.sealStrikeRequest acc v) s = .next (answer 0 0x00 { u with chip := u.chip.setReg Reg.sealStrikeStat 0x05 })) ∧
      (u.chip.tick + 2 ≤ tk → u.chip.sealer.strike ≠ none →
        exec (.sealStrikeRequest acc v) s = .next (answer 0 0x00 { u with chip := u.chip.setReg Reg.sealStrikeStat 0x01 })) ∧
      (u.chip.tick + 2 ≤ tk → u.chip.sealer.strike = none →
        let d := u.chip.setReg Reg.sealStrikeStat 0x00
        exec (.sealStrikeRequest acc v) s = .next (answer 0 0x00 { u with chip := { d with sealer := { d.sealer with
          strike := some tk
          strikeSid := none } } }))) ∧
    (c.sealer.signing = [] → exec .epochSigned s = .next s) ∧
    (c.sealer.signing = x :: rest → (c.slot 1).state ≠ .valid → exec .epochSigned s = .next s) ∧
    (c.sealer.signing = x :: rest → (c.slot 1).state = .valid → c.sealer.strikeSid = none → ∃ t blk, exec .epochSigned s = .next t ∧
      t.chip.sealer.signing = rest ∧ blk.length = 128 ∧
      t.chip.sealer.log = c.sealer.log.map (fun r => if r.seq = x.1 then { r with sig := some blk } else r) ∧ t.fuse = s.fuse ∧ t.mem = s.mem)) ∧
  (∀ (c : Chip) (e : Env) (time : Nat) (b : RecBody),
    (2 ^ 64 - 1 ≤ c.sealer.seq → c.sealAppend e time b = (0x0A, c)) ∧
    (c.sealer.seq < 2 ^ 64 - 1 → ∃ bytes, c.sealAppend e time b = (0x00, { c with sealer := { c.sealer with
      log := c.sealer.log ++ [SealRec.mk c.sealer.seq b.kind bytes none]
      seq := c.sealer.seq + 1
      prev := sha256 bytes } }) ∧
      bytes.take 8 = [0x5A, 0x59, 0x4E, 0x31, 0x01, BitVec.ofNat 8 b.kind, BitVec.ofNat 8 b.flags, BitVec.ofNat 8 b.tags.length] ∧
      (bytes.drop 8).take 8 = beBytes 8 c.sealer.seq))

/-! Boom, power, resets and observation. -/

/-- Boom ports (R408, R422): a trained port keys; a neighbour whose fingerprint, node and signature are as declared brings it UP under a new link key, any
other fences it with cause 4; 1,250 ticks without training or keying, or 4 ticks without an acknowledgement, put it DOWN; 12,500 ticks later it trains
again. Firmware fences it with cause 1, and the end of a fence starts it again. The other ports are as they were.
Boom frames (R403-R407, R411, R413, R417, R422): a new frame takes the next counter and stays in the window until it is acknowledged; one that 138 slots
have not acknowledged starts a retransmission from the oldest. A frame whose CRC or tag fails, or that is out of order, changes no service or tree; an
accepted ROOT, TSYNC or SVC frame is kept, and each accepted frame advances the counter by one. -/
def Obligations.BoomPortsAndFrames : Prop :=
  (∀ (s : State) (n node serial : Nat) (fp : List Byte) (sig : Bool),
    let c := s.chip
    let p := c.port n
    let gives := fun (i : Instr) (d : Chip) => exec i s = .next { s with chip := d }
    let same := fp = s.env.boom.fp.getD n [] ∧ node = s.env.boom.nb.getD n 0xFFFF ∧ sig = true
    (p.phase = .train → gives (.boomPortTrained n) (c.enterKeying s.env n)) ∧
    (p.phase ≠ .train → gives (.boomPortTrained n) c) ∧
    (p.phase = .keying →
      (same → gives (.boomKeyingDone n node serial fp sig) (c.portUp n serial)) ∧
      (¬ same → gives (.boomKeyingDone n node serial fp sig) (c.boomFence n 4)) ∧
      (p.since + 1250 ≤ c.tick → gives (.boomKeyingTimeout n) (c.boomDown n)) ∧
      (c.tick < p.since + 1250 → gives (.boomKeyingTimeout n) c)) ∧
    (p.phase = .train →
      (p.since + 1250 ≤ c.tick → gives (.boomTrainingTimeout n) (c.boomDown n)) ∧
      (c.tick < p.since + 1250 → gives (.boomTrainingTimeout n) c)) ∧
    (p.phase = .down → c.bit Reg.boomCtrl 0 = true →
      (p.since + 12500 ≤ c.tick → gives (.boomPortRetry n) (c.setPort n (p.drop .train c.tick))) ∧
      (c.tick < p.since + 12500 → gives (.boomPortRetry n) c)) ∧
    (p.phase = .up → p.unacked ≠ [] →
      (p.ackTick + 4 ≤ c.tick → gives (.boomPeerSlow n) (c.boomDown n)) ∧
      (c.tick < p.ackTick + 4 → gives (.boomPeerSlow n) c)) ∧
    (s.env.part.full = true → n < 4 → p.phase ≠ .fenced → gives (.boomPortFence n) (c.boomFence n 1)) ∧
    (p.phase = .fenced → s.env.declaresPort n = true → c.bit Reg.boomCtrl 0 = true →
      gives (.boomPortUnfence n) (c.setPort n (p.drop .train c.tick))) ∧
    (let up := c.portUp n serial
     (up.port n).phase = .up ∧ (up.port n).tx = 0 ∧ (up.port n).rx = 0 ∧ (up.port n).unacked = [] ∧ (up.port n).peer = serial ∧
     (up.slot (16 + n)).state = .valid ∧ (up.slot (16 + n)).type = 2 ∧
     (∀ m, m ≠ n → up.port m = c.port m) ∧ (∀ k, k ≠ 16 + n → up.slot k = c.slot k)) ∧
    (∀ cause, ((c.boomFence n cause).port n).phase = .fenced ∧ ((c.boomFence n cause).port n).cause = cause ∧
      (∀ m, m ≠ n → (c.boomFence n cause).port m = c.port m)) ∧
    ((c.boomDown n).port n).phase = .down ∧ (∀ m, m ≠ n → (c.boomDown n).port m = c.port m)) ∧
  (∀ (s : State) (h : FrameHdr) (root : RootMsg) (sync : TsyncMsg) (svc : SvcMsg) (msg frag : Nat) (bytes : List Byte) (f : SentFrame) (rest : List SentFrame),
    let c := s.chip
    let n := h.port
    let p := c.port n
    let gives := fun (i : Instr) (d : Chip) => exec i s = .next { s with chip := d }
    let taken := c.setPort n { p.acked h.ack c.tick with rx := p.rx + 1 }
    let good := p.phase = .up ∧ h.crcOk = true ∧ h.tagOk = true ∧ p.rx % 2 ^ 32 = h.seq
    (p.phase = .keying → gives (.frameSlotSend n) (c.setPort n { p with
      slot := p.slot + 1
      queue := p.queue.drop 1 })) ∧
    (p.phase ≠ .keying → p.phase ≠ .up → gives (.frameSlotSend n) c ∧ gives (.frameRxIdle h) c ∧ gives (.frameRxRoot h root) c ∧
      gives (.frameRxTsync h sync) c ∧ gives (.frameRxSvc h svc) c) ∧
    (p.phase = .up → p.resend = none → p.unacked.length < 276 → p.queue = [] → p.tx < 2 ^ 64 - 1 → gives (.frameSlotSend n) (c.pass.setPort n { p with
      slot := p.slot + 1
      tx := p.tx + 1
      resend := none
      queue := []
      ackTick := if p.unacked = [] then c.tick else p.ackTick
      unacked := p.unacked ++ [⟨p.tx, p.slot, .idle⟩] })) ∧
    (p.phase = .up → p.unacked = f :: rest →
      ((∃ g ∈ p.unacked, g.slot + 138 ≤ p.slot) → gives (.frameRetransmit n) (c.setPort n { p with resend := some f.ctr })) ∧
      ((∀ g ∈ p.unacked, p.slot < g.slot + 138) → gives (.frameRetransmit n) c)) ∧
    (p.phase = .up → h.crcOk = false → gives (.frameRxIdle h) (c.boomCrc n) ∧ gives (.frameRxSvc h svc) (c.boomCrc n)) ∧
    (p.phase = .up → h.crcOk = true → h.tagOk = false → gives (.frameRxIdle h) (c.boomAuth n) ∧ gives (.frameRxSvc h svc) (c.boomAuth n)) ∧
    (p.phase = .up → h.crcOk = true → gives (.frameRxKx h msg frag bytes) (c.boomAuth n)) ∧
    (p.phase = .up → h.crcOk = true → h.tagOk = true → p.rx % 2 ^ 32 ≠ h.seq → gives (.frameRxIdle h) c ∧ gives (.frameRxSvc h svc) c) ∧
    (p.phase = .keying → h.crcOk = true → msg ≠ 0 → msg ≠ 1 → (∀ x ∈ p.kx, ¬ (x.1 = msg ∧ x.2.1 = frag)) →
      gives (.frameRxKx h msg frag bytes) (c.setPort n { p with kx := p.kx ++ [(msg, frag, bytes)] })) ∧
    (good →
      gives (.frameRxIdle h) taken ∧
      ((root.root = h.node ∧ root.level ≠ 0) ∨ (root.level = 0 ∧ root.root ≠ h.node) → gives (.frameRxRoot h root) (c.boomAuth n)) ∧
      (¬ (root.root = h.node ∧ root.level ≠ 0) → ¬ (root.level = 0 ∧ root.root ≠ h.node) →
        gives (.frameRxRoot h root) (c.setPort n { p.acked h.ack c.tick with
          rx := p.rx + 1
          root := some (root, c.tick) })) ∧
      (c.boom.parent ≠ some n → gives (.frameRxTsync h sync) (c.setPort n { p.acked h.ack c.tick with
        rx := p.rx + 1
        tRxe := sync.rxTime
        tTxe := sync.tTx
        lastSync := c.tick })) ∧
      (p.child = false → svc.dir ≠ 1 → ∃ t, exec (.frameRxSvc h svc) s = .next t ∧ t.chip.boom.inbox = c.boom.inbox ++ [(some n, svc)] ∧
        (t.chip.port n).rx = p.rx + 1 ∧ (t.chip.port n).svcTick = p.svcTick + 1 ∧ (∀ m, m ≠ n → t.chip.port m = c.port m))))

/-- Boom services (R417-R421): while a request runs, and on a part without the block, GO starts nothing; a barrier that the package has entered already, or
enters ahead of its parent, is BUSY_RETRY; a request of a package with a parent is sent to it, and waits. A child that does not report in time is left
out, and its port falls; an agreed system reset waits for its tick. -/
def Obligations.BoomServices : Prop :=
  ∀ (s : State) (op n up : Nat) (i : Instr), (op, i) ∈ [(0, Instr.boomBroadcast), (1, .boomBarrier), (2, .boomSnapshot), (3, .boomSystemReset)] →
    let c := s.chip
    let gives := fun (i : Instr) (d : Chip) => exec i s = .next { s with chip := d }
    let asked := ((c.setReg Reg.boomSvcReq (2 ^ 31 + op * 2 ^ 28)).setReg Reg.boomSvcRes 0).setReg Reg.boomSvcMiss 0
    let begun : Chip := { asked with boom := { asked.boom with request := some (op, none) } }
    let msg : SvcMsg := ⟨0, op, 0, s.env.node, 0, 0, 0, if op = 0 then (List.range 4).map (fun i => BitVec.ofNat 32 (begun.reg (Reg.boomSvcData i))) else []⟩
    (s.env.part.full = false ∨ c.boom.request ≠ none → gives i c) ∧
    (s.env.part.full = true → c.boom.request = none →
      (op = 1 → c.boom.align = 3 ∨ (∃ v, c.svc 1 = some v ∧ v.self = true) → gives i (begun.requestDone 0x01 0 0)) ∧
      (op ≠ 1 → c.boom.parent = some up → gives i (begun.setPort up { c.port up with queue := (c.port up).queue ++ [.svc msg] }))) ∧
    (∀ st a b, (begun.requestDone st a b).boom.request = none ∧ (begun.requestDone st a b).reg Reg.boomSvcReq = asked.reg Reg.boomSvcReq % 2 ^ 31 ∧
      (st < 2 ^ 16 → a < 2 ^ 15 → b < 2 ^ 15 → (begun.requestDone st a b).reg Reg.boomSvcRes = 2 ^ 31 + a * 2 ^ 16 + st ∧
        (begun.requestDone st a b).reg Reg.boomSvcMiss = b)) ∧
    ((∀ v ∈ c.boom.svcs, v.self = false ∨ n ∉ v.due ∨ c.tick < v.dueTick) → gives (.svcReportTimeout n) c) ∧
    (∀ v, c.boom.svcs = [v] → v.self = true → n ∈ v.due → v.dueTick ≤ c.tick → (c.port n).phase = .up → (∃ k ∈ v.due, k ≠ n) →
      let size := ((c.port n).root.map (fun r => r.1.size)).getD 0
      let left : Svc := { v with
        due := v.due.filter (fun k => k != n)
        countB := v.countB + size
        timeout := v.timeout || v.op == 1 }
      gives (.svcReportTimeout n) (({ c with boom := { c.boom with svcs := [left] } } : Chip).boomDown n)) ∧
    (c.boom.resetTick = none → gives .systemResetTick c) ∧
    (∀ at_, c.boom.resetTick = some at_ → c.tick < at_ → gives .systemResetTick c) ∧
    (∀ at_, c.boom.resetTick = some at_ → at_ ≤ c.tick → c.sealReady = false → c.boom.request = none → c.boom.align = 1 →
      exec .systemResetTick s = .next (resetSource 4 { s with chip := { c with boom := { c.boom with resetTick := none } } }))

/-- Changes of point and requests of the power manager (R424, R433, R435, R437): a lower point is announced for the tick after next, a raise moves the
VID first and is announced when the rail has settled; a request meets a running one, the votes, its own range and the contracts, in that order, and a
refusal shows its status; the timer wakes at its tick.
Entries into PS3 and PS4 and exits from them (R427-R433): an entry waits for an idle package without contracts; PS3's commit point loses the near pool, PS4's
zeroes every key slot and waits for the warden cores; an entry that they hold up for 125 ticks is abandoned with event 325; an exit raises
the point, moves requests for PS3 and PS4, and starts the calendar. -/
def Obligations.PowerRequestsAndStates : Prop :=
  (∀ (s : State) (acc : Access) (op arg : Nat) (d : Dvfs) (i : Instr), arg < 8 →
    (op, i) ∈ [(0, Instr.pmuSetState acc arg), (1, .pmuSetCeiling acc arg)] →
    let c := s.chip
    let w := c.wantPoint
    let gives := fun (i : Instr) (d : Chip) => exec i s = .next { s with chip := d }
    let asked := (c.setReg Reg.pmuReq (2 ^ 31 + op * 2 ^ 28 + arg)).setReg Reg.pmuReqRes 0
    let ends := fun (st : Nat) => (asked.setReg Reg.pmuReqRes (2 ^ 31 + st)).setBit Reg.pmuReq 31 false
    let clean := fun (d : Chip) => ({ d with pmu := { d.pmu with req := none } } : Chip)
    let free := c.pmu.dvfs = none ∧ c.pmu.flush = none ∧ c.pmu.ps < 4 ∧ c.voted = false
    let moves := if op = 0 then arg ≠ c.pmu.ps else Nat.max (psCeiling c.pmu.ps) (Nat.max arg c.pmu.thermal) ≠ c.ceiling
    let wide := (op = 0 ∧ 4 < arg) ∨ (op = 1 ∧ 3 < arg)
    let floor := c.fld Reg.calFloor 1 0
    let below := (op = 0 ∧ (3 ≤ arg ∨ floor < psCeiling arg)) ∨ (op = 1 ∧ floor < arg)
    (free → w = c.pmu.point → gives .dvfsChange c) ∧
    (free → c.pmu.point < w → gives .dvfsChange { c with pmu := { c.pmu with dvfs := some ⟨w, c.pmu.point, some (c.tick + 2), c.tick⟩ } }) ∧
    (free → w < c.pmu.point → gives .dvfsChange { c with pmu := { c.pmu with
      dvfs := some ⟨w, c.pmu.point, none, c.tick⟩
      vid := s.env.vid w } }) ∧
    (c.pmu.dvfs ≠ none ∨ c.pmu.flush ≠ none ∨ 4 ≤ c.pmu.ps → gives .dvfsChange c) ∧
    (c.pmu.dvfs = some d → d.effect = none →
      gives .vddSettled { c with pmu := { c.pmu with dvfs := some { d with effect := some (c.tick + 2) } } }) ∧
    (c.pmu.dvfs = none → gives .vddSettled c) ∧
    (c.pmu.req ≠ none → gives i c) ∧
    (c.pmu.req = none →
      (acc.secure = false → c.voted = true → moves → gives i (clean (ends 0x08))) ∧
      (acc.secure = true ∨ c.voted = false ∨ ¬ moves → wide → gives i (clean (ends 0x05))) ∧
      (acc.secure = true ∨ c.voted = false ∨ ¬ moves → ¬ wide → below → c.contracts ≠ [] → gives i (clean (ends 0x0E))) ∧
      (acc.secure = false → c.voted = false ∨ ¬ moves → ¬ wide → c.contracts = [] → c.bit Reg.pmuCtrl 0 = false →
        gives i { asked with pmu := { asked.pmu with req := some (op, arg) } })) ∧
    (let t := c.reg Reg.pmuTimerLo + c.fld Reg.pmuTimerHi 15 0 * 2 ^ 32
     (t ≠ 0 → t = c.tick → gives .pmuTimerExpiry (c.wakeAct .timer)) ∧ (t = 0 ∨ t ≠ c.tick → gives .pmuTimerExpiry c))) ∧
  (∀ (s : State) (src : WakeSource),
    let c := s.chip
    let gives := fun (i : Instr) (d : Chip) => exec i s = .next { s with chip := d }
    (c.pmu.phase ≠ .steady ∨ c.pkgIdle = false ∨ c.contracts ≠ [] ∨ c.wantState < 3 → exec .ps3Entry s = .next (goesOn s c)) ∧
    (c.bit Reg.pmuCtrl 0 = true → c.pmu.phase = .steady → c.pmu.ps < 3 → 3 ≤ c.wantState → c.pkgIdle = true → c.pmu.flush = none → c.contracts = [] →
      (∀ g ∈ c.map.groups, g.phase ≠ .filling) → exec .ps3Entry s = .next (goesOn s { c with pmu := { c.pmu with
        phase := .entering
        target := c.wantState
        left := c.pmu.ps
        entryTick := c.tick
        commitDone := false } })) ∧
    (c.pmu.phase = .entering → c.pmu.ps < 3 → c.quiet = true → c.pmu.flush = none → ∃ t, exec .ps3CommitPoint s = .next t ∧ t.mem.near = [] ∧
      t.mem.dram = s.mem.dram ∧ t.mem.sram = s.mem.sram ∧ t.mem.nor = s.mem.nor ∧ t.chip.pmu.ps = 3 ∧ t.fuse = s.fuse ∧ t.env = s.env ∧
      t.chip.key = c.key ∧ t.chip.dram = c.dram ∧ (∀ b ∈ t.chip.buf.bufs, isNear b.1 = false)) ∧
    (c.pmu.phase ≠ .entering ∨ c.quiet = false → exec .ps3CommitPoint s = .next s) ∧
    (c.bit Reg.pmuCtrl 0 = true → c.pmu.ps = 3 → c.wantState = 4 → c.pmu.flush = none → c.pmu.phase = .steady →
      gives .ps4Entry (({ c with pmu := { c.pmu with
        phase := .entering
        target := 4
        entryTick := c.tick
        commitDone := false
        commits := [] } } : Chip).raise0 300)) ∧
    (c.pmu.ps ≠ 3 ∨ c.wantState ≠ 4 → gives .ps4Entry c) ∧
    (c.inPs4Entry = true →
      (c.coresReady = true → ∃ t, exec .ps4CommitPoint s = .next t ∧ t.chip.key.slots = [] ∧ t.chip.pmu.ps = 4 ∧ t.chip.pmu.phase = .steady ∧
        t.chip.key.vault = c.key.vault ∧ t.mem = s.mem ∧ t.fuse = s.fuse ∧ (∀ n < 4, (t.chip.port n).phase ≠ .up)) ∧
      (c.coresReady = false → gives .ps4CommitPoint c) ∧
      (c.coresReady = true ∨ c.tick < c.pmu.entryTick + 125 → gives .ps4EntryAbandon c) ∧
      (c.coresReady = false → c.pmu.entryTick + 125 ≤ c.tick → c.pmu.req = none → ∃ t, exec .ps4EntryAbandon s = .next t ∧ t.chip.pmu.ps = 3 ∧
        t.chip.pmu.phase = .steady ∧ t.chip.pmu.target = 3 ∧ 325 ∈ t.chip.obs.pend ∧ t.chip.key = c.key)) ∧
    (src = .boom → c.pmu.ps ≠ 3 → gives (.wakeEvent src) c) ∧
    (src ≠ .boom ∨ c.pmu.ps = 3 → gives (.wakeEvent src) (c.wakeAct src)) ∧
    (c.pmu.phase ≠ .exiting → exec .ps3Exit s = .next (goesOn s c) ∧ gives .ps4Exit c) ∧
    (c.pmu.phase = .exiting → c.pmu.ps = 4 → ∃ t, exec .ps4Exit s = .next t ∧ t.chip.pmu.ps = 3 ∧ t.mem = s.mem ∧ t.fuse = s.fuse ∧
      (∀ w < 8, (c.warden w).fenced = true → (t.chip.warden w).fenced = true)) ∧
    (c.pmu.phase = .exiting → c.pmu.ps = 3 → c.pmu.target < 3 → ∃ t d, exec .ps3Exit s = .next t ∧ t = goesOn s d ∧ d.pmu.ps = c.pmu.target ∧
      d.pmu.phase = .steady ∧ d.pmu.dvfs = none ∧ (∀ p ∈ d.fn.fns, p.2.feat.power < 3)))

/-- Faults of the supplies (R423, R434, R438, R439, R44, R493): a cap exceeded for 125 ticks in a row, a power-good signal that falls outside a change, and a supply
that is late set their bits of PMU_FAULT with event 324; a lost region, die or hub is fenced and the controller enters degraded hold; PLN_N and VIN start
the flush, once; what has recovered is noted.
The thermal model, its sensors and the rail ADC (R446-R452): while the models do not run nothing moves; a step of the limits cuts a sixteenth of the budget, and
gives it back when all is cool; a round's codes are kept, and 0 and 0xFFF mark the input; after each, the limits act: the trip resets the
controller with cause 7. -/
def Obligations.PowerFaultsAndThermal : Prop :=
  (∀ (s : State) (mw : Nat) (p : PackageRef) (d : Dvfs),
    let c := s.chip
    let gives := fun (i : Instr) (d : Chip) => exec i s = .next { s with chip := d }
    let cap := [55000, 40000, 25000, 2500, 180].getD c.pmu.ps 55000
    let run := fun (n : Nat) => ({ c with pmu := { c.pmu with capRun := n } } : Chip)
    let fault := fun (d : Chip) (bit : Nat) => (d.orReg Reg.pmuFault (2 ^ bit)).raise0 324
    (mw ≤ cap → gives (.capExceed mw) (run 0)) ∧
    (cap < mw → c.pmu.capRun < 124 → gives (.capExceed mw) (run (c.pmu.capRun + 1))) ∧
    (cap < mw → 124 ≤ c.pmu.capRun → gives (.capExceed mw) (fault (run 0) 0)) ∧
    (c.pmu.dvfs = none → gives .vcorePgLow (fault c 1)) ∧ (c.pmu.dvfs = some d → gives .vcorePgLow c) ∧
    (s.env.hasPackage p = false → exec (.packageFault p) s = .next (goesOn s c)) ∧
    (s.env.hasPackage p = true → exec (.packageFault p) s = .next (goesOn s (c.packageFence s.env p))) ∧
    (exec (.supplyTimeout .lower) s = .next (goesOn s (fault c 5))) ∧
    (∀ g, exec (.supplyTimeout (.regionSwitch g false)) s = .next (goesOn s (fault c 2))) ∧
    (c.pmu.dvfs = some d → d.effect = none → c.pmu.req = none → exec (.supplyTimeout (.raise false false)) s =
      .next (goesOn s (let x := fault c 1; { x with pmu := { x.pmu with
        vid := s.env.vid d.old
        dvfs := none } }))) ∧
    exec (.supplyTimeout (.raise true true)) s = .next (goesOn s ((fault c 1).enterHold 7)) ∧
    (∀ i cause, (cause, i) ∈ [(1, Instr.plnNLow), (2, .vinTrip)] →
      let low := fun (d : Chip) => ({ d with pmu := { d.pmu with pwrLow := true } } : Chip)
      (c.rcu.phase = .inReset → c.pmu.flush = none → gives i (low c)) ∧
      (c.rcu.phase = .inReset → c.pmu.flush ≠ none → gives i (low (fault c (5 + cause)))) ∧
      (c.rcu.phase ≠ .inReset → c.pmu.flush = none → c.pmu.ps < 3 → c.map.refugeHeld = false → ∃ t f, exec i s = .next t ∧
        t.chip.rcu.phase = .inReset ∧ t.chip.pmu.flush = some f ∧ f.cause = cause ∧ f.started = c.tick ∧ t.chip.pmu.pwrLow = true ∧
        t.chip.dram.flush = true ∧ t.mem = s.mem ∧ t.fuse = s.fuse ∧ t.chip.key = c.key)) ∧
    gives .powerRecovery { c with pmu := { c.pmu with pwrLow := false } } ∧
    gives .refRestored { c with pmu := { c.pmu with refLost := false } } ∧
    (c.pmu.refLost = true → exec .refLoss s = .next s) ∧
    (c.pmu.refLost = false →
      let t := resetSource 6 { s with chip := fault c 4 }
      exec .refLoss s = .next { t with chip := { t.chip with pmu := { t.chip.pmu with refLost := true } } })) ∧
  (∀ (s : State) (act : List (Nat × Nat)) (readings : List (Nat × Int)) (samples : List AdcSample) (x : AdcSample) (n : Nat) (v : Int),
    let c := s.chip
    let e := s.env
    let moved := fun (i : Instr) (d : Chip) => exec i s = .next (thermalLimits c { s with chip := d })
    (c.modelsRun = false → exec .thermalStep s = .next s ∧ exec .sensorCrossCheck s = .next s ∧ exec (.siliconModelStep act) s = .next s) ∧
    (c.modelsRun = true →
      let budget := c.fld Reg.calNrgBudget 23 0
      let hot := ∃ k ∈ e.nandNodes, (c.fld Reg.thmLimit 7 0 : Int) ≤ c.node k / 65536
      let cool := ∀ k ∈ e.nandNodes, c.node k / 65536 ≤ (c.fld Reg.thmLimit 7 0 : Int) - 3
      let warm := ∃ k ∈ e.siNodes, (c.fld Reg.thmLimit 23 16 : Int) ≤ c.node k / 65536
      ∃ t, exec .thermalStep s = .next t ∧
        (hot → t.chip.thm.cut = Nat.max c.thm.cut (Nat.min (c.thm.cut + budget / 16) (budget - budgetFloor c.fig c.nrg))) ∧
        (¬ hot → cool → t.chip.thm.cut = c.thm.cut - budget / 16) ∧ (¬ hot → ¬ cool → t.chip.thm.cut = c.thm.cut) ∧
        (warm → t.chip.pmu.thermal = Nat.max c.pmu.thermal (Nat.min (c.pmu.thermal + 1) (if c.contracts = [] then 3 else c.fld Reg.calFloor 1 0))) ∧
        (¬ warm → c.thm.cool + 1 < 10 → t.chip.pmu.thermal = c.pmu.thermal) ∧
        t.chip.regs = c.regs ∧ t.chip.thm.nodes = c.thm.nodes ∧ t.chip.thm.sensors = c.thm.sensors ∧ t.mem = s.mem ∧ t.fuse = s.fuse) ∧
    (c.modelsRun = true → c.bit Reg.calCtrl 0 = true →
      moved (.siliconModelStep act) (e.siNodes.foldl (Chip.siliconNode c e act) c)) ∧
    (n < 32 → e.hasSensor n = true → c.pmu.ps < 3 → -(2 ^ 31) ≤ v → v < 2 ^ 31 →
      moved (.sensorRead [(n, v)]) (c.reading e n v [n / 8 * 40 + n % 8])) ∧
    (32 ≤ n ∨ e.hasSensor n = false ∨ 3 ≤ c.pmu.ps → moved (.sensorRead [(n, v)]) c) ∧
    (c.modelsRun = true → exec .sensorCrossCheck s = .next { s with chip := ((List.range 48).filter e.hasSensor).foldl (Chip.crossCheck c e) c }) ∧
    moved (.railAdcRound samples) ((samples.foldl (Chip.adcSample e) c).holdCheck e) ∧
    (28 ≤ x.input → moved (.railAdcRound [x]) (c.holdCheck e)) ∧
    (x.input < 10 → x.code % 4096 = 0 ∨ x.code % 4096 = 0xFFF →
      moved (.railAdcRound [x]) (((c.orReg Reg.thmAdcOvr (2 ^ x.input)).setAdc x.input { c.adc x.input with stale := (c.adc x.input).valid }).holdCheck e)) ∧
    (x.input < 3 → 0 < x.code % 4096 → x.code % 4096 < 0xFFF →
      moved (.railAdcRound [x]) ((c.setAdc x.input ⟨x.code % 4096, true, false, 0⟩).holdCheck e)) ∧
    (∀ (old : Chip) (t : State), t.chip.modelsRun = true → t.chip.siCrit e = true → t.env = e → t.chip.thm.trip = false → t.chip.rcu.phase ≠ .inReset →
      t.chip.pmu.flush = none → t.chip.pmu.ps < 3 → t.chip.map.refugeHeld = false →
      (thermalLimits old t).chip.rcu.cause = 7 ∧ (thermalLimits old t).chip.rcu.phase = .inReset ∧ (thermalLimits old t).chip.thm.trip = true))

/-- Reset sources (R419, R440, R455-R461, R501): a source outside a reset enters it with its cause and flush; a second one is recorded in RCU_CAUSE.SEEN; the flush's end
wipes; a normal-world request for a lifecycle reset is ignored; power-on wipes all that power holds. What the wipes leave: a warm reset
keeps the tick, the key locks and the vault; the fuses never change. -/
def Obligations.Resets : Prop :=
  ∀ (s : State) (acc : Access) (f : Flush),
    let c := s.chip
    exec .rcuWarm s = .next (resetSource 3 s) ∧
    (acc.secure = true → exec (.rcuLifecycle acc) s = .next (resetSource 5 s)) ∧ (acc.secure = false → exec (.rcuLifecycle acc) s = .next s) ∧
    (c.rcu.rstLow = true → exec .rstNLow s = .next s) ∧
    (c.rcu.rstLow = false → ∃ t, exec .rstNLow s = .next t ∧ t.chip.rcu.rstLow = true ∧ t.chip.rcu.rstLowSince = c.tick ∧
      t.chip.rcu.phase = .inReset ∧ t.fuse = s.fuse) ∧
    (c.rcu.rstLow = false → exec .rstNHigh s = .next s) ∧
    (c.rcu.rstLow = true → c.tick - c.rcu.rstLowSince < 2 ^ 32 → ∃ t, exec .rstNHigh s = .next t ∧ t.chip.rcu.rstLow = false ∧
      t.chip.rcu.rstHighSince = c.tick ∧ t.chip.reg Reg.rcuHeld = c.tick - c.rcu.rstLowSince ∧ t.mem = s.mem ∧ t.fuse = s.fuse) ∧
    (∀ cause, 2 ≤ cause → cause ≤ 7 → c.rcu.phase ≠ .inReset → c.pmu.flush = none → c.pmu.ps < 3 → c.map.refugeHeld = false →
      let t := resetSource cause s
      t.chip.rcu.phase = .inReset ∧ t.chip.rcu.cause = cause ∧ t.chip.rcu.kind = (if cause = 5 then 2 else 1) ∧ t.chip.rcu.holdN = true ∧
      (∃ f, t.chip.pmu.flush = some f ∧ f.started = c.tick ∧ f.cause = (if cause = 6 then 3 else if cause = 7 then 4 else 5)) ∧
      t.mem = s.mem ∧ t.fuse = s.fuse ∧ t.env = s.env) ∧
    (∀ cause, 2 ≤ cause → cause ≤ 7 → c.rcu.phase = .inReset → c.rcu.cause ≠ 0 → c.rcu.kind ≠ 1 → c.pmu.flush = none →
      resetSource cause s = { s with chip := c.orReg Reg.rcuCause (2 ^ (7 + cause)) }) ∧
    (c.pmu.flush = none → exec .landingFlushEnd s = .next s) ∧
    (c.pmu.flush = some f → exec .landingFlushEnd s = .next (resetWipe { s with chip := c.flushDone f })) ∧
    (let w := resetWipe s
     w.fuse = s.fuse ∧ w.env = s.env ∧ w.pending = s.pending ∧ w.mem.near = [] ∧ w.mem.sram = [] ∧ w.mem.nor = s.mem.nor ∧
     w.chip.rcu.wiped = true ∧ w.chip.rcu.phase = .inReset ∧ w.chip.key.slots = [] ∧ w.chip.key.vault = c.key.vault ∧
     w.chip.map.flash = c.map.flash ∧ w.chip.map.refuge = c.map.refuge ∧ w.chip.host.cmds = [] ∧
     (c.rcu.kind = 1 → w.chip.time = c.time ∧ ∀ a, Mem.read w.mem.dram a = if a < 2 ^ 30 then 0 else Mem.read s.mem.dram a) ∧
     (c.rcu.kind = 2 → w.chip.time = c.time ∧ w.mem.dram = [] ∧ w.chip.obs.log = []) ∧
     (c.rcu.kind = 0 → w.chip.tick = 0 ∧ w.mem.dram = [] ∧ w.chip.obs.log = [] ∧ w.chip.key.locked = false)) ∧
    (∃ t, exec .powerOn s = .next t ∧ t.chip.rcu.kind = 0 ∧ t.chip.rcu.cause = 1 ∧ t.chip.rcu.phase = .inReset ∧ t.chip.tick = 0 ∧ t.mem.dram = [] ∧
      t.mem.sram = [] ∧ t.mem.nor = s.mem.nor ∧ t.fuse = s.fuse ∧ t.chip.pmu.pllHeld = false) ∧
    (∃ t, exec .powerLoss s = .next t ∧ t.chip.pmu.pllHeld = true ∧ t.chip.tick = 0 ∧ t.mem.dram = [] ∧ t.fuse = s.fuse) ∧
    (s.fuse.lifecycle ≠ .blank → exec .lifecycleProvision s = .next s) ∧
    (s.fuse.lifecycle = .blank → ∃ t, exec .lifecycleProvision s = .next t ∧ t.fuse = { s.fuse with provisioned := true } ∧
      t.fuse.lifecycle = .provisioned ∧ t.chip.key.vault = [])

/-- Start-up (R438, R445, R463-R467, R477): it begins once the wipes have ended and pins, power and reference allow it; no bootable image is a boot failure; without
an option block, with a record that is wrong, or with a hold-up store that is short, it ends in degraded hold with the cause of the first check that fails.
The tick steps forward only, before the calendar is enabled (R468). -/
def Obligations.StartUp : Prop :=
  ∀ (s : State) (r : BootReport) (acc : Access) (v h : Word) (rl rh : RegRow) (i j : Nat),
    let c := s.chip
    let lo := Reg.rcuTickStepLo
    let b := c.leaveReset.bootFirmware s.fuse.kill r
    let key := acc.who * 2 ^ 32 + lo
    let freed : State := { s with chip := { c with regs := { c.regs with wrHold := Tab.set (fun _ => none) c.regs.wrHold key none } } }
    let u := plainWrite rl lo v.toNat (plainWrite rh (lo + 4) h.toNat freed)
    let tk := (h.toNat * 2 ^ 32 + v.toNat) % 2 ^ 48
    (c.mayStart = false → exec (.startUp r) s = .next (goesOn s c)) ∧
    (c.mayStart = true →
      (r.firmwareOk = false → exec (.startUp r) s = .next (goesOn s { c.leaveReset with rcu := { c.leaveReset.rcu with
        phase := .bootFail
        holdN := false } })) ∧
      (r.firmwareOk = true → r.optionBlockOk = false → exec (.startUp r) s = .next (goesOn s (b.enterHold 1))) ∧
      (r.firmwareOk = true → r.optionBlockOk = true →
        (s.env.recordsOk = false → exec (.startUp r) s = .next (goesOn s (((b.loadRecords s.env).startLinks s.env).enterHold 2))) ∧
        (s.env.recordsOk = true → (b.loadRecords s.env).holdUpOk s.env = false →
          exec (.startUp r) s = .next (goesOn s (((b.loadRecords s.env).startLinks s.env).enterHold 5))) ∧
        (s.env.recordsOk = true → (b.loadRecords s.env).holdUpOk s.env = true → r.dramOk = false →
          exec (.startUp r) s = .next (goesOn s ((((b.loadRecords s.env).carve s.env r.dramRate).startLinks s.env).enterHold 4))))) ∧
    (s.fuse.kill = true → b.key.slots = c.key.slots) ∧
    (s.fuse.kill = false → c.key.locked = false → (b.slot 2).state = .valid ∧ (b.slot 3).state = .valid) ∧
    (acc.who < 8 → acc.secure = true → findReg lo = some (rl, i) → findReg (lo + 4) = some (rh, j) → Tab.get (fun _ => none) c.regs.wrHold key = some h →
      (tk ≤ u.chip.tick ∨ u.chip.rcu.calSince = true → exec (.rcuTickStep acc v) s =
        .next (answer 0 0x00 { u with chip := { u.chip with rcu := { u.chip.rcu with tickRefused := true } } })) ∧
      (u.chip.tick < tk → u.chip.rcu.calSince = false → exec (.rcuTickStep acc v) s =
        .next (answer 0 0x00 { u with chip := { u.chip.stepTick tk with rcu := { u.chip.rcu with tickRefused := false } } })))

/-- Observation (R467, R469, R474, R478-R482): the secure world alone clears the fault log; a cursor write captures the entry it names, the read of the last capture
word answers it and goes on; a period that has ended closes; a masked message waits for its unmask; the tick mark is written 62,500 ticks ahead; CC.EN
takes the admin queues' sizes. -/
def Obligations.Observation : Prop :=
  ∀ (s : State) (acc : Access) (v : Word) (f vec ams asqs acqs : Nat),
    let c := s.chip
    let gives := fun (i : Instr) (d : Chip) => exec i s = .next { s with chip := d }
    let x := c.func f
    (acc.secure = true → gives (.logFlClear acc) { c with obs := { c.obs with
      log := []
      logHead := (c.obs.logHead + c.obs.log.length) % 1024 } }) ∧
    (acc.secure = false → gives (.logFlClear acc) c) ∧
    (∃ t, exec (.logFlCurWrite acc v) s = .next t ∧
      (∀ k < 8, t.chip.reg (Reg.logFlE k) = ((match c.obs.log[v.toNat % 1024]? with | some x => x.words | none => List.replicate 8 0).getD k 0) % 2 ^ 32) ∧
      t.chip.obs = c.obs ∧ t.mem = s.mem ∧ t.fuse = s.fuse) ∧
    (∃ t, exec (.logTyCurWrite acc v) s = .next t ∧
      (∀ k < 16, t.chip.reg (Reg.logTyR k) = (((c.obs.store[v.toNat % 2048]?).getD []).getD k 0) % 2 ^ 32) ∧
      t.chip.obs = c.obs ∧ t.mem = s.mem ∧ t.fuse = s.fuse) ∧
    (∃ t, exec (.logCaptureAdvance acc false) s = .next t ∧ t.chip.resp = ⟨BitVec.ofNat 32 (c.reg (Reg.logFlE 7)), 0x00⟩ ∧
      t.chip.obs = c.obs ∧
      (c.fld Reg.logFlCur 9 0 < 1023 → t.chip.reg (Reg.logFlE 0) =
        ((match c.obs.log[c.fld Reg.logFlCur 9 0 + 1]? with | some x => x.words | none => List.replicate 8 0).getD 0 0) % 2 ^ 32)) ∧
    (c.tick < c.obs.tallyEnd → gives .tallyPeriodEnd c) ∧ (c.obs.tallyEnd ≤ c.tick → gives .tallyPeriodEnd c.tallyClose) ∧
    gives .tallyRestart { c with obs := { c.obs with restart := true } } ∧
    (x.present = false ∨ 2048 ≤ vec → gives (.msixVectorUnmask f vec) c) ∧
    (x.present = true → vec < 2048 → (f, vec) ∉ c.obs.pba → (f, vec) ∉ c.obs.unmasked →
      gives (.msixVectorUnmask f vec) { c with obs := { c.obs with unmasked := (f, vec) :: c.obs.unmasked } }) ∧
    (x.present = true → vec < 2048 → (f, vec) ∈ c.obs.pba → (f, vec) ∉ c.obs.unmasked → c.obs.pend = [] →
      gives (.msixVectorUnmask f vec) (({ c with obs := { c.obs with
        unmasked := (f, vec) :: c.obs.unmasked
        pba := c.obs.pba.filter (fun p => p != (f, vec)) } } : Chip).msix f vec)) ∧
    (c.tick + 62500 < c.map.mark ∨ c.map.formed = false ∨ c.held = true → gives .tickMarkWrite c) ∧
    (c.map.mark ≤ c.tick + 62500 → c.map.formed = true → c.held = false → c.rcu.phase ≠ .inReset → gives .tickMarkWrite { c with map := { c.map with
      mark := c.tick + 125000
      markSeq := c.map.markSeq + 1 } }) ∧
    (x.phase ≠ .enabled ∨ x.ccEn = true → gives (.ccEnSet f ams asqs acqs) c) ∧
    (x.phase = .enabled → x.ccEn = false → ∃ t, exec (.ccEnSet f ams asqs acqs) s = .next t ∧ t.chip.func f = { x with
        ccEn := true
        rdy := c.rcu.phase == .ready || c.rcu.phase == .hold
        shst := 0
        sqs := [⟨0, asqs, 0, 0, 0, 0⟩]
        cqs := [⟨0, acqs, 0, 0, true, []⟩]
        feat := { x.feat with wrr := ams == 1 } } ∧
      (ams ≤ 1 → t.chip.obs = c.obs) ∧ (∀ g, g ≠ f → t.chip.func g = c.func g) ∧ t.mem = s.mem ∧ t.fuse = s.fuse)
end

