-- ==== Sys2Proof/Laws/State.lean ====
section
/-! SUPPORT. What each update of the controller leaves alone: one lemma per field and update, so that no later proof unfolds a record update. -/

namespace Sys2Proof.Machine

/-! `Chip.setReg`. -/

@[simp] theorem Chip.setReg_time (c : Chip) (a v : Nat) : (c.setReg a v).time = c.time := rfl
@[simp] theorem Chip.setReg_obs (c : Chip) (a v : Nat) : (c.setReg a v).obs = c.obs := rfl
@[simp] theorem Chip.setReg_resp (c : Chip) (a v : Nat) : (c.setReg a v).resp = c.resp := rfl
@[simp] theorem Chip.setReg_buf (c : Chip) (a v : Nat) : (c.setReg a v).buf = c.buf := rfl
@[simp] theorem Chip.setReg_dram (c : Chip) (a v : Nat) : (c.setReg a v).dram = c.dram := rfl
@[simp] theorem Chip.setReg_fn (c : Chip) (a v : Nat) : (c.setReg a v).fn = c.fn := rfl
@[simp] theorem Chip.setReg_host (c : Chip) (a v : Nat) : (c.setReg a v).host = c.host := rfl
@[simp] theorem Chip.setReg_kerf (c : Chip) (a v : Nat) : (c.setReg a v).kerf = c.kerf := rfl
@[simp] theorem Chip.setReg_cal (c : Chip) (a v : Nat) : (c.setReg a v).cal = c.cal := rfl
@[simp] theorem Chip.setReg_map (c : Chip) (a v : Nat) : (c.setReg a v).map = c.map := rfl
@[simp] theorem Chip.setReg_flash (c : Chip) (a v : Nat) : (c.setReg a v).flash = c.flash := rfl
@[simp] theorem Chip.setReg_tf (c : Chip) (a v : Nat) : (c.setReg a v).tf = c.tf := rfl
@[simp] theorem Chip.setReg_key (c : Chip) (a v : Nat) : (c.setReg a v).key = c.key := rfl
@[simp] theorem Chip.setReg_sealer (c : Chip) (a v : Nat) : (c.setReg a v).sealer = c.sealer := rfl
@[simp] theorem Chip.setReg_boom (c : Chip) (a v : Nat) : (c.setReg a v).boom = c.boom := rfl
@[simp] theorem Chip.setReg_pmu (c : Chip) (a v : Nat) : (c.setReg a v).pmu = c.pmu := rfl
@[simp] theorem Chip.setReg_thm (c : Chip) (a v : Nat) : (c.setReg a v).thm = c.thm := rfl
@[simp] theorem Chip.setReg_rcu (c : Chip) (a v : Nat) : (c.setReg a v).rcu = c.rcu := rfl
@[simp] theorem Chip.setReg_free (c : Chip) (a v : Nat) : (c.setReg a v).free = c.free := rfl

/-! `Chip.setStg`. -/

@[simp] theorem Chip.setStg_time (c : Chip) (a v : Nat) : (c.setStg a v).time = c.time := rfl
@[simp] theorem Chip.setStg_obs (c : Chip) (a v : Nat) : (c.setStg a v).obs = c.obs := rfl
@[simp] theorem Chip.setStg_resp (c : Chip) (a v : Nat) : (c.setStg a v).resp = c.resp := rfl
@[simp] theorem Chip.setStg_buf (c : Chip) (a v : Nat) : (c.setStg a v).buf = c.buf := rfl
@[simp] theorem Chip.setStg_dram (c : Chip) (a v : Nat) : (c.setStg a v).dram = c.dram := rfl
@[simp] theorem Chip.setStg_fn (c : Chip) (a v : Nat) : (c.setStg a v).fn = c.fn := rfl
@[simp] theorem Chip.setStg_host (c : Chip) (a v : Nat) : (c.setStg a v).host = c.host := rfl
@[simp] theorem Chip.setStg_kerf (c : Chip) (a v : Nat) : (c.setStg a v).kerf = c.kerf := rfl
@[simp] theorem Chip.setStg_cal (c : Chip) (a v : Nat) : (c.setStg a v).cal = c.cal := rfl
@[simp] theorem Chip.setStg_map (c : Chip) (a v : Nat) : (c.setStg a v).map = c.map := rfl
@[simp] theorem Chip.setStg_flash (c : Chip) (a v : Nat) : (c.setStg a v).flash = c.flash := rfl
@[simp] theorem Chip.setStg_tf (c : Chip) (a v : Nat) : (c.setStg a v).tf = c.tf := rfl
@[simp] theorem Chip.setStg_key (c : Chip) (a v : Nat) : (c.setStg a v).key = c.key := rfl
@[simp] theorem Chip.setStg_sealer (c : Chip) (a v : Nat) : (c.setStg a v).sealer = c.sealer := rfl
@[simp] theorem Chip.setStg_boom (c : Chip) (a v : Nat) : (c.setStg a v).boom = c.boom := rfl
@[simp] theorem Chip.setStg_pmu (c : Chip) (a v : Nat) : (c.setStg a v).pmu = c.pmu := rfl
@[simp] theorem Chip.setStg_thm (c : Chip) (a v : Nat) : (c.setStg a v).thm = c.thm := rfl
@[simp] theorem Chip.setStg_rcu (c : Chip) (a v : Nat) : (c.setStg a v).rcu = c.rcu := rfl
@[simp] theorem Chip.setStg_free (c : Chip) (a v : Nat) : (c.setStg a v).free = c.free := rfl

/-! `Chip.setFld`. -/

@[simp] theorem Chip.setFld_time (c : Chip) (a hi lo x : Nat) : (c.setFld a hi lo x).time = c.time := rfl
@[simp] theorem Chip.setFld_obs (c : Chip) (a hi lo x : Nat) : (c.setFld a hi lo x).obs = c.obs := rfl
@[simp] theorem Chip.setFld_resp (c : Chip) (a hi lo x : Nat) : (c.setFld a hi lo x).resp = c.resp := rfl
@[simp] theorem Chip.setFld_buf (c : Chip) (a hi lo x : Nat) : (c.setFld a hi lo x).buf = c.buf := rfl
@[simp] theorem Chip.setFld_dram (c : Chip) (a hi lo x : Nat) : (c.setFld a hi lo x).dram = c.dram := rfl
@[simp] theorem Chip.setFld_fn (c : Chip) (a hi lo x : Nat) : (c.setFld a hi lo x).fn = c.fn := rfl
@[simp] theorem Chip.setFld_host (c : Chip) (a hi lo x : Nat) : (c.setFld a hi lo x).host = c.host := rfl
@[simp] theorem Chip.setFld_kerf (c : Chip) (a hi lo x : Nat) : (c.setFld a hi lo x).kerf = c.kerf := rfl
@[simp] theorem Chip.setFld_cal (c : Chip) (a hi lo x : Nat) : (c.setFld a hi lo x).cal = c.cal := rfl
@[simp] theorem Chip.setFld_map (c : Chip) (a hi lo x : Nat) : (c.setFld a hi lo x).map = c.map := rfl
@[simp] theorem Chip.setFld_flash (c : Chip) (a hi lo x : Nat) : (c.setFld a hi lo x).flash = c.flash := rfl
@[simp] theorem Chip.setFld_tf (c : Chip) (a hi lo x : Nat) : (c.setFld a hi lo x).tf = c.tf := rfl
@[simp] theorem Chip.setFld_key (c : Chip) (a hi lo x : Nat) : (c.setFld a hi lo x).key = c.key := rfl
@[simp] theorem Chip.setFld_sealer (c : Chip) (a hi lo x : Nat) : (c.setFld a hi lo x).sealer = c.sealer := rfl
@[simp] theorem Chip.setFld_boom (c : Chip) (a hi lo x : Nat) : (c.setFld a hi lo x).boom = c.boom := rfl
@[simp] theorem Chip.setFld_pmu (c : Chip) (a hi lo x : Nat) : (c.setFld a hi lo x).pmu = c.pmu := rfl
@[simp] theorem Chip.setFld_thm (c : Chip) (a hi lo x : Nat) : (c.setFld a hi lo x).thm = c.thm := rfl
@[simp] theorem Chip.setFld_rcu (c : Chip) (a hi lo x : Nat) : (c.setFld a hi lo x).rcu = c.rcu := rfl
@[simp] theorem Chip.setFld_free (c : Chip) (a hi lo x : Nat) : (c.setFld a hi lo x).free = c.free := rfl

/-! `Chip.setBit`. -/

@[simp] theorem Chip.setBit_time (c : Chip) (a i : Nat) (b : Bool) : (c.setBit a i b).time = c.time := rfl
@[simp] theorem Chip.setBit_obs (c : Chip) (a i : Nat) (b : Bool) : (c.setBit a i b).obs = c.obs := rfl
@[simp] theorem Chip.setBit_resp (c : Chip) (a i : Nat) (b : Bool) : (c.setBit a i b).resp = c.resp := rfl
@[simp] theorem Chip.setBit_buf (c : Chip) (a i : Nat) (b : Bool) : (c.setBit a i b).buf = c.buf := rfl
@[simp] theorem Chip.setBit_dram (c : Chip) (a i : Nat) (b : Bool) : (c.setBit a i b).dram = c.dram := rfl
@[simp] theorem Chip.setBit_fn (c : Chip) (a i : Nat) (b : Bool) : (c.setBit a i b).fn = c.fn := rfl
@[simp] theorem Chip.setBit_host (c : Chip) (a i : Nat) (b : Bool) : (c.setBit a i b).host = c.host := rfl
@[simp] theorem Chip.setBit_kerf (c : Chip) (a i : Nat) (b : Bool) : (c.setBit a i b).kerf = c.kerf := rfl
@[simp] theorem Chip.setBit_cal (c : Chip) (a i : Nat) (b : Bool) : (c.setBit a i b).cal = c.cal := rfl
@[simp] theorem Chip.setBit_map (c : Chip) (a i : Nat) (b : Bool) : (c.setBit a i b).map = c.map := rfl
@[simp] theorem Chip.setBit_flash (c : Chip) (a i : Nat) (b : Bool) : (c.setBit a i b).flash = c.flash := rfl
@[simp] theorem Chip.setBit_tf (c : Chip) (a i : Nat) (b : Bool) : (c.setBit a i b).tf = c.tf := rfl
@[simp] theorem Chip.setBit_key (c : Chip) (a i : Nat) (b : Bool) : (c.setBit a i b).key = c.key := rfl
@[simp] theorem Chip.setBit_sealer (c : Chip) (a i : Nat) (b : Bool) : (c.setBit a i b).sealer = c.sealer := rfl
@[simp] theorem Chip.setBit_boom (c : Chip) (a i : Nat) (b : Bool) : (c.setBit a i b).boom = c.boom := rfl
@[simp] theorem Chip.setBit_pmu (c : Chip) (a i : Nat) (b : Bool) : (c.setBit a i b).pmu = c.pmu := rfl
@[simp] theorem Chip.setBit_thm (c : Chip) (a i : Nat) (b : Bool) : (c.setBit a i b).thm = c.thm := rfl
@[simp] theorem Chip.setBit_rcu (c : Chip) (a i : Nat) (b : Bool) : (c.setBit a i b).rcu = c.rcu := rfl
@[simp] theorem Chip.setBit_free (c : Chip) (a i : Nat) (b : Bool) : (c.setBit a i b).free = c.free := rfl

/-! `Chip.orReg`. -/

@[simp] theorem Chip.orReg_time (c : Chip) (a mask : Nat) : (c.orReg a mask).time = c.time := rfl
@[simp] theorem Chip.orReg_obs (c : Chip) (a mask : Nat) : (c.orReg a mask).obs = c.obs := rfl
@[simp] theorem Chip.orReg_resp (c : Chip) (a mask : Nat) : (c.orReg a mask).resp = c.resp := rfl
@[simp] theorem Chip.orReg_buf (c : Chip) (a mask : Nat) : (c.orReg a mask).buf = c.buf := rfl
@[simp] theorem Chip.orReg_dram (c : Chip) (a mask : Nat) : (c.orReg a mask).dram = c.dram := rfl
@[simp] theorem Chip.orReg_fn (c : Chip) (a mask : Nat) : (c.orReg a mask).fn = c.fn := rfl
@[simp] theorem Chip.orReg_host (c : Chip) (a mask : Nat) : (c.orReg a mask).host = c.host := rfl
@[simp] theorem Chip.orReg_kerf (c : Chip) (a mask : Nat) : (c.orReg a mask).kerf = c.kerf := rfl
@[simp] theorem Chip.orReg_cal (c : Chip) (a mask : Nat) : (c.orReg a mask).cal = c.cal := rfl
@[simp] theorem Chip.orReg_map (c : Chip) (a mask : Nat) : (c.orReg a mask).map = c.map := rfl
@[simp] theorem Chip.orReg_flash (c : Chip) (a mask : Nat) : (c.orReg a mask).flash = c.flash := rfl
@[simp] theorem Chip.orReg_tf (c : Chip) (a mask : Nat) : (c.orReg a mask).tf = c.tf := rfl
@[simp] theorem Chip.orReg_key (c : Chip) (a mask : Nat) : (c.orReg a mask).key = c.key := rfl
@[simp] theorem Chip.orReg_sealer (c : Chip) (a mask : Nat) : (c.orReg a mask).sealer = c.sealer := rfl
@[simp] theorem Chip.orReg_boom (c : Chip) (a mask : Nat) : (c.orReg a mask).boom = c.boom := rfl
@[simp] theorem Chip.orReg_pmu (c : Chip) (a mask : Nat) : (c.orReg a mask).pmu = c.pmu := rfl
@[simp] theorem Chip.orReg_thm (c : Chip) (a mask : Nat) : (c.orReg a mask).thm = c.thm := rfl
@[simp] theorem Chip.orReg_rcu (c : Chip) (a mask : Nat) : (c.orReg a mask).rcu = c.rcu := rfl
@[simp] theorem Chip.orReg_free (c : Chip) (a mask : Nat) : (c.orReg a mask).free = c.free := rfl

/-! `Chip.bump`. -/

@[simp] theorem Chip.bump_time (c : Chip) (a hi lo n : Nat) : (c.bump a hi lo n).time = c.time := rfl
@[simp] theorem Chip.bump_obs (c : Chip) (a hi lo n : Nat) : (c.bump a hi lo n).obs = c.obs := rfl
@[simp] theorem Chip.bump_resp (c : Chip) (a hi lo n : Nat) : (c.bump a hi lo n).resp = c.resp := rfl
@[simp] theorem Chip.bump_buf (c : Chip) (a hi lo n : Nat) : (c.bump a hi lo n).buf = c.buf := rfl
@[simp] theorem Chip.bump_dram (c : Chip) (a hi lo n : Nat) : (c.bump a hi lo n).dram = c.dram := rfl
@[simp] theorem Chip.bump_fn (c : Chip) (a hi lo n : Nat) : (c.bump a hi lo n).fn = c.fn := rfl
@[simp] theorem Chip.bump_host (c : Chip) (a hi lo n : Nat) : (c.bump a hi lo n).host = c.host := rfl
@[simp] theorem Chip.bump_kerf (c : Chip) (a hi lo n : Nat) : (c.bump a hi lo n).kerf = c.kerf := rfl
@[simp] theorem Chip.bump_cal (c : Chip) (a hi lo n : Nat) : (c.bump a hi lo n).cal = c.cal := rfl
@[simp] theorem Chip.bump_map (c : Chip) (a hi lo n : Nat) : (c.bump a hi lo n).map = c.map := rfl
@[simp] theorem Chip.bump_flash (c : Chip) (a hi lo n : Nat) : (c.bump a hi lo n).flash = c.flash := rfl
@[simp] theorem Chip.bump_tf (c : Chip) (a hi lo n : Nat) : (c.bump a hi lo n).tf = c.tf := rfl
@[simp] theorem Chip.bump_key (c : Chip) (a hi lo n : Nat) : (c.bump a hi lo n).key = c.key := rfl
@[simp] theorem Chip.bump_sealer (c : Chip) (a hi lo n : Nat) : (c.bump a hi lo n).sealer = c.sealer := rfl
@[simp] theorem Chip.bump_boom (c : Chip) (a hi lo n : Nat) : (c.bump a hi lo n).boom = c.boom := rfl
@[simp] theorem Chip.bump_pmu (c : Chip) (a hi lo n : Nat) : (c.bump a hi lo n).pmu = c.pmu := rfl
@[simp] theorem Chip.bump_thm (c : Chip) (a hi lo n : Nat) : (c.bump a hi lo n).thm = c.thm := rfl
@[simp] theorem Chip.bump_rcu (c : Chip) (a hi lo n : Nat) : (c.bump a hi lo n).rcu = c.rcu := rfl
@[simp] theorem Chip.bump_free (c : Chip) (a hi lo n : Nat) : (c.bump a hi lo n).free = c.free := rfl

/-! `Chip.raiseTo`. -/

@[simp] theorem Chip.raiseTo_time (c : Chip) (a hi lo n : Nat) : (c.raiseTo a hi lo n).time = c.time := rfl
@[simp] theorem Chip.raiseTo_obs (c : Chip) (a hi lo n : Nat) : (c.raiseTo a hi lo n).obs = c.obs := rfl
@[simp] theorem Chip.raiseTo_resp (c : Chip) (a hi lo n : Nat) : (c.raiseTo a hi lo n).resp = c.resp := rfl
@[simp] theorem Chip.raiseTo_buf (c : Chip) (a hi lo n : Nat) : (c.raiseTo a hi lo n).buf = c.buf := rfl
@[simp] theorem Chip.raiseTo_dram (c : Chip) (a hi lo n : Nat) : (c.raiseTo a hi lo n).dram = c.dram := rfl
@[simp] theorem Chip.raiseTo_fn (c : Chip) (a hi lo n : Nat) : (c.raiseTo a hi lo n).fn = c.fn := rfl
@[simp] theorem Chip.raiseTo_host (c : Chip) (a hi lo n : Nat) : (c.raiseTo a hi lo n).host = c.host := rfl
@[simp] theorem Chip.raiseTo_kerf (c : Chip) (a hi lo n : Nat) : (c.raiseTo a hi lo n).kerf = c.kerf := rfl
@[simp] theorem Chip.raiseTo_cal (c : Chip) (a hi lo n : Nat) : (c.raiseTo a hi lo n).cal = c.cal := rfl
@[simp] theorem Chip.raiseTo_map (c : Chip) (a hi lo n : Nat) : (c.raiseTo a hi lo n).map = c.map := rfl
@[simp] theorem Chip.raiseTo_flash (c : Chip) (a hi lo n : Nat) : (c.raiseTo a hi lo n).flash = c.flash := rfl
@[simp] theorem Chip.raiseTo_tf (c : Chip) (a hi lo n : Nat) : (c.raiseTo a hi lo n).tf = c.tf := rfl
@[simp] theorem Chip.raiseTo_key (c : Chip) (a hi lo n : Nat) : (c.raiseTo a hi lo n).key = c.key := rfl
@[simp] theorem Chip.raiseTo_sealer (c : Chip) (a hi lo n : Nat) : (c.raiseTo a hi lo n).sealer = c.sealer := rfl
@[simp] theorem Chip.raiseTo_boom (c : Chip) (a hi lo n : Nat) : (c.raiseTo a hi lo n).boom = c.boom := rfl
@[simp] theorem Chip.raiseTo_pmu (c : Chip) (a hi lo n : Nat) : (c.raiseTo a hi lo n).pmu = c.pmu := rfl
@[simp] theorem Chip.raiseTo_thm (c : Chip) (a hi lo n : Nat) : (c.raiseTo a hi lo n).thm = c.thm := rfl
@[simp] theorem Chip.raiseTo_rcu (c : Chip) (a hi lo n : Nat) : (c.raiseTo a hi lo n).rcu = c.rcu := rfl
@[simp] theorem Chip.raiseTo_free (c : Chip) (a hi lo n : Nat) : (c.raiseTo a hi lo n).free = c.free := rfl

/-! `Chip.pass`. -/

@[simp] theorem Chip.pass_regs (c : Chip) : (c.pass).regs = c.regs := rfl
@[simp] theorem Chip.pass_obs (c : Chip) : (c.pass).obs = c.obs := rfl
@[simp] theorem Chip.pass_resp (c : Chip) : (c.pass).resp = c.resp := rfl
@[simp] theorem Chip.pass_buf (c : Chip) : (c.pass).buf = c.buf := rfl
@[simp] theorem Chip.pass_dram (c : Chip) : (c.pass).dram = c.dram := rfl
@[simp] theorem Chip.pass_fn (c : Chip) : (c.pass).fn = c.fn := rfl
@[simp] theorem Chip.pass_host (c : Chip) : (c.pass).host = c.host := rfl
@[simp] theorem Chip.pass_kerf (c : Chip) : (c.pass).kerf = c.kerf := rfl
@[simp] theorem Chip.pass_cal (c : Chip) : (c.pass).cal = c.cal := rfl
@[simp] theorem Chip.pass_map (c : Chip) : (c.pass).map = c.map := rfl
@[simp] theorem Chip.pass_flash (c : Chip) : (c.pass).flash = c.flash := rfl
@[simp] theorem Chip.pass_tf (c : Chip) : (c.pass).tf = c.tf := rfl
@[simp] theorem Chip.pass_key (c : Chip) : (c.pass).key = c.key := rfl
@[simp] theorem Chip.pass_sealer (c : Chip) : (c.pass).sealer = c.sealer := rfl
@[simp] theorem Chip.pass_boom (c : Chip) : (c.pass).boom = c.boom := rfl
@[simp] theorem Chip.pass_pmu (c : Chip) : (c.pass).pmu = c.pmu := rfl
@[simp] theorem Chip.pass_thm (c : Chip) : (c.pass).thm = c.thm := rfl
@[simp] theorem Chip.pass_rcu (c : Chip) : (c.pass).rcu = c.rcu := rfl

/-! `Chip.unpend`. -/

@[simp] theorem Chip.unpend_regs (c : Chip) (e : Nat) : (c.unpend e).regs = c.regs := rfl
@[simp] theorem Chip.unpend_time (c : Chip) (e : Nat) : (c.unpend e).time = c.time := rfl
@[simp] theorem Chip.unpend_resp (c : Chip) (e : Nat) : (c.unpend e).resp = c.resp := rfl
@[simp] theorem Chip.unpend_buf (c : Chip) (e : Nat) : (c.unpend e).buf = c.buf := rfl
@[simp] theorem Chip.unpend_dram (c : Chip) (e : Nat) : (c.unpend e).dram = c.dram := rfl
@[simp] theorem Chip.unpend_fn (c : Chip) (e : Nat) : (c.unpend e).fn = c.fn := rfl
@[simp] theorem Chip.unpend_host (c : Chip) (e : Nat) : (c.unpend e).host = c.host := rfl
@[simp] theorem Chip.unpend_kerf (c : Chip) (e : Nat) : (c.unpend e).kerf = c.kerf := rfl
@[simp] theorem Chip.unpend_cal (c : Chip) (e : Nat) : (c.unpend e).cal = c.cal := rfl
@[simp] theorem Chip.unpend_map (c : Chip) (e : Nat) : (c.unpend e).map = c.map := rfl
@[simp] theorem Chip.unpend_flash (c : Chip) (e : Nat) : (c.unpend e).flash = c.flash := rfl
@[simp] theorem Chip.unpend_tf (c : Chip) (e : Nat) : (c.unpend e).tf = c.tf := rfl
@[simp] theorem Chip.unpend_key (c : Chip) (e : Nat) : (c.unpend e).key = c.key := rfl
@[simp] theorem Chip.unpend_sealer (c : Chip) (e : Nat) : (c.unpend e).sealer = c.sealer := rfl
@[simp] theorem Chip.unpend_boom (c : Chip) (e : Nat) : (c.unpend e).boom = c.boom := rfl
@[simp] theorem Chip.unpend_pmu (c : Chip) (e : Nat) : (c.unpend e).pmu = c.pmu := rfl
@[simp] theorem Chip.unpend_thm (c : Chip) (e : Nat) : (c.unpend e).thm = c.thm := rfl
@[simp] theorem Chip.unpend_rcu (c : Chip) (e : Nat) : (c.unpend e).rcu = c.rcu := rfl
@[simp] theorem Chip.unpend_free (c : Chip) (e : Nat) : (c.unpend e).free = c.free := rfl

/-! `Chip.setPort`. -/

@[simp] theorem Chip.setPort_regs (c : Chip) (n : Nat) (p : Port) : (c.setPort n p).regs = c.regs := rfl
@[simp] theorem Chip.setPort_time (c : Chip) (n : Nat) (p : Port) : (c.setPort n p).time = c.time := rfl
@[simp] theorem Chip.setPort_obs (c : Chip) (n : Nat) (p : Port) : (c.setPort n p).obs = c.obs := rfl
@[simp] theorem Chip.setPort_resp (c : Chip) (n : Nat) (p : Port) : (c.setPort n p).resp = c.resp := rfl
@[simp] theorem Chip.setPort_buf (c : Chip) (n : Nat) (p : Port) : (c.setPort n p).buf = c.buf := rfl
@[simp] theorem Chip.setPort_dram (c : Chip) (n : Nat) (p : Port) : (c.setPort n p).dram = c.dram := rfl
@[simp] theorem Chip.setPort_fn (c : Chip) (n : Nat) (p : Port) : (c.setPort n p).fn = c.fn := rfl
@[simp] theorem Chip.setPort_host (c : Chip) (n : Nat) (p : Port) : (c.setPort n p).host = c.host := rfl
@[simp] theorem Chip.setPort_kerf (c : Chip) (n : Nat) (p : Port) : (c.setPort n p).kerf = c.kerf := rfl
@[simp] theorem Chip.setPort_cal (c : Chip) (n : Nat) (p : Port) : (c.setPort n p).cal = c.cal := rfl
@[simp] theorem Chip.setPort_map (c : Chip) (n : Nat) (p : Port) : (c.setPort n p).map = c.map := rfl
@[simp] theorem Chip.setPort_flash (c : Chip) (n : Nat) (p : Port) : (c.setPort n p).flash = c.flash := rfl
@[simp] theorem Chip.setPort_tf (c : Chip) (n : Nat) (p : Port) : (c.setPort n p).tf = c.tf := rfl
@[simp] theorem Chip.setPort_key (c : Chip) (n : Nat) (p : Port) : (c.setPort n p).key = c.key := rfl
@[simp] theorem Chip.setPort_sealer (c : Chip) (n : Nat) (p : Port) : (c.setPort n p).sealer = c.sealer := rfl
@[simp] theorem Chip.setPort_pmu (c : Chip) (n : Nat) (p : Port) : (c.setPort n p).pmu = c.pmu := rfl
@[simp] theorem Chip.setPort_thm (c : Chip) (n : Nat) (p : Port) : (c.setPort n p).thm = c.thm := rfl
@[simp] theorem Chip.setPort_rcu (c : Chip) (n : Nat) (p : Port) : (c.setPort n p).rcu = c.rcu := rfl
@[simp] theorem Chip.setPort_free (c : Chip) (n : Nat) (p : Port) : (c.setPort n p).free = c.free := rfl

/-! `Chip.updPort`. -/

@[simp] theorem Chip.updPort_regs (c : Chip) (n : Nat) (g : Port → Port) : (c.updPort n g).regs = c.regs := rfl
@[simp] theorem Chip.updPort_time (c : Chip) (n : Nat) (g : Port → Port) : (c.updPort n g).time = c.time := rfl
@[simp] theorem Chip.updPort_obs (c : Chip) (n : Nat) (g : Port → Port) : (c.updPort n g).obs = c.obs := rfl
@[simp] theorem Chip.updPort_resp (c : Chip) (n : Nat) (g : Port → Port) : (c.updPort n g).resp = c.resp := rfl
@[simp] theorem Chip.updPort_buf (c : Chip) (n : Nat) (g : Port → Port) : (c.updPort n g).buf = c.buf := rfl
@[simp] theorem Chip.updPort_dram (c : Chip) (n : Nat) (g : Port → Port) : (c.updPort n g).dram = c.dram := rfl
@[simp] theorem Chip.updPort_fn (c : Chip) (n : Nat) (g : Port → Port) : (c.updPort n g).fn = c.fn := rfl
@[simp] theorem Chip.updPort_host (c : Chip) (n : Nat) (g : Port → Port) : (c.updPort n g).host = c.host := rfl
@[simp] theorem Chip.updPort_kerf (c : Chip) (n : Nat) (g : Port → Port) : (c.updPort n g).kerf = c.kerf := rfl
@[simp] theorem Chip.updPort_cal (c : Chip) (n : Nat) (g : Port → Port) : (c.updPort n g).cal = c.cal := rfl
@[simp] theorem Chip.updPort_map (c : Chip) (n : Nat) (g : Port → Port) : (c.updPort n g).map = c.map := rfl
@[simp] theorem Chip.updPort_flash (c : Chip) (n : Nat) (g : Port → Port) : (c.updPort n g).flash = c.flash := rfl
@[simp] theorem Chip.updPort_tf (c : Chip) (n : Nat) (g : Port → Port) : (c.updPort n g).tf = c.tf := rfl
@[simp] theorem Chip.updPort_key (c : Chip) (n : Nat) (g : Port → Port) : (c.updPort n g).key = c.key := rfl
@[simp] theorem Chip.updPort_sealer (c : Chip) (n : Nat) (g : Port → Port) : (c.updPort n g).sealer = c.sealer := rfl
@[simp] theorem Chip.updPort_pmu (c : Chip) (n : Nat) (g : Port → Port) : (c.updPort n g).pmu = c.pmu := rfl
@[simp] theorem Chip.updPort_thm (c : Chip) (n : Nat) (g : Port → Port) : (c.updPort n g).thm = c.thm := rfl
@[simp] theorem Chip.updPort_rcu (c : Chip) (n : Nat) (g : Port → Port) : (c.updPort n g).rcu = c.rcu := rfl
@[simp] theorem Chip.updPort_free (c : Chip) (n : Nat) (g : Port → Port) : (c.updPort n g).free = c.free := rfl

/-! `Chip.setBuffer`. -/

@[simp] theorem Chip.setBuffer_regs (c : Chip) (h : Nat) (b : Buf) : (c.setBuffer h b).regs = c.regs := rfl
@[simp] theorem Chip.setBuffer_time (c : Chip) (h : Nat) (b : Buf) : (c.setBuffer h b).time = c.time := rfl
@[simp] theorem Chip.setBuffer_obs (c : Chip) (h : Nat) (b : Buf) : (c.setBuffer h b).obs = c.obs := rfl
@[simp] theorem Chip.setBuffer_resp (c : Chip) (h : Nat) (b : Buf) : (c.setBuffer h b).resp = c.resp := rfl
@[simp] theorem Chip.setBuffer_dram (c : Chip) (h : Nat) (b : Buf) : (c.setBuffer h b).dram = c.dram := rfl
@[simp] theorem Chip.setBuffer_fn (c : Chip) (h : Nat) (b : Buf) : (c.setBuffer h b).fn = c.fn := rfl
@[simp] theorem Chip.setBuffer_host (c : Chip) (h : Nat) (b : Buf) : (c.setBuffer h b).host = c.host := rfl
@[simp] theorem Chip.setBuffer_kerf (c : Chip) (h : Nat) (b : Buf) : (c.setBuffer h b).kerf = c.kerf := rfl
@[simp] theorem Chip.setBuffer_cal (c : Chip) (h : Nat) (b : Buf) : (c.setBuffer h b).cal = c.cal := rfl
@[simp] theorem Chip.setBuffer_map (c : Chip) (h : Nat) (b : Buf) : (c.setBuffer h b).map = c.map := rfl
@[simp] theorem Chip.setBuffer_flash (c : Chip) (h : Nat) (b : Buf) : (c.setBuffer h b).flash = c.flash := rfl
@[simp] theorem Chip.setBuffer_tf (c : Chip) (h : Nat) (b : Buf) : (c.setBuffer h b).tf = c.tf := rfl
@[simp] theorem Chip.setBuffer_key (c : Chip) (h : Nat) (b : Buf) : (c.setBuffer h b).key = c.key := rfl
@[simp] theorem Chip.setBuffer_sealer (c : Chip) (h : Nat) (b : Buf) : (c.setBuffer h b).sealer = c.sealer := rfl
@[simp] theorem Chip.setBuffer_boom (c : Chip) (h : Nat) (b : Buf) : (c.setBuffer h b).boom = c.boom := rfl
@[simp] theorem Chip.setBuffer_pmu (c : Chip) (h : Nat) (b : Buf) : (c.setBuffer h b).pmu = c.pmu := rfl
@[simp] theorem Chip.setBuffer_thm (c : Chip) (h : Nat) (b : Buf) : (c.setBuffer h b).thm = c.thm := rfl
@[simp] theorem Chip.setBuffer_rcu (c : Chip) (h : Nat) (b : Buf) : (c.setBuffer h b).rcu = c.rcu := rfl
@[simp] theorem Chip.setBuffer_free (c : Chip) (h : Nat) (b : Buf) : (c.setBuffer h b).free = c.free := rfl

/-! `Chip.setDie`. -/

@[simp] theorem Chip.setDie_regs (c : Chip) (d : Nat) (x : Die) : (c.setDie d x).regs = c.regs := rfl
@[simp] theorem Chip.setDie_time (c : Chip) (d : Nat) (x : Die) : (c.setDie d x).time = c.time := rfl
@[simp] theorem Chip.setDie_obs (c : Chip) (d : Nat) (x : Die) : (c.setDie d x).obs = c.obs := rfl
@[simp] theorem Chip.setDie_resp (c : Chip) (d : Nat) (x : Die) : (c.setDie d x).resp = c.resp := rfl
@[simp] theorem Chip.setDie_buf (c : Chip) (d : Nat) (x : Die) : (c.setDie d x).buf = c.buf := rfl
@[simp] theorem Chip.setDie_dram (c : Chip) (d : Nat) (x : Die) : (c.setDie d x).dram = c.dram := rfl
@[simp] theorem Chip.setDie_fn (c : Chip) (d : Nat) (x : Die) : (c.setDie d x).fn = c.fn := rfl
@[simp] theorem Chip.setDie_host (c : Chip) (d : Nat) (x : Die) : (c.setDie d x).host = c.host := rfl
@[simp] theorem Chip.setDie_kerf (c : Chip) (d : Nat) (x : Die) : (c.setDie d x).kerf = c.kerf := rfl
@[simp] theorem Chip.setDie_map (c : Chip) (d : Nat) (x : Die) : (c.setDie d x).map = c.map := rfl
@[simp] theorem Chip.setDie_flash (c : Chip) (d : Nat) (x : Die) : (c.setDie d x).flash = c.flash := rfl
@[simp] theorem Chip.setDie_tf (c : Chip) (d : Nat) (x : Die) : (c.setDie d x).tf = c.tf := rfl
@[simp] theorem Chip.setDie_key (c : Chip) (d : Nat) (x : Die) : (c.setDie d x).key = c.key := rfl
@[simp] theorem Chip.setDie_sealer (c : Chip) (d : Nat) (x : Die) : (c.setDie d x).sealer = c.sealer := rfl
@[simp] theorem Chip.setDie_boom (c : Chip) (d : Nat) (x : Die) : (c.setDie d x).boom = c.boom := rfl
@[simp] theorem Chip.setDie_pmu (c : Chip) (d : Nat) (x : Die) : (c.setDie d x).pmu = c.pmu := rfl
@[simp] theorem Chip.setDie_thm (c : Chip) (d : Nat) (x : Die) : (c.setDie d x).thm = c.thm := rfl
@[simp] theorem Chip.setDie_rcu (c : Chip) (d : Nat) (x : Die) : (c.setDie d x).rcu = c.rcu := rfl
@[simp] theorem Chip.setDie_free (c : Chip) (d : Nat) (x : Die) : (c.setDie d x).free = c.free := rfl

/-! `Chip.setLanded`. -/

@[simp] theorem Chip.setLanded_regs (c : Chip) (buf sect : Nat) (x : Stored) : (c.setLanded buf sect x).regs = c.regs := rfl
@[simp] theorem Chip.setLanded_time (c : Chip) (buf sect : Nat) (x : Stored) : (c.setLanded buf sect x).time = c.time := rfl
@[simp] theorem Chip.setLanded_obs (c : Chip) (buf sect : Nat) (x : Stored) : (c.setLanded buf sect x).obs = c.obs := rfl
@[simp] theorem Chip.setLanded_resp (c : Chip) (buf sect : Nat) (x : Stored) : (c.setLanded buf sect x).resp = c.resp := rfl
@[simp] theorem Chip.setLanded_buf (c : Chip) (buf sect : Nat) (x : Stored) : (c.setLanded buf sect x).buf = c.buf := rfl
@[simp] theorem Chip.setLanded_dram (c : Chip) (buf sect : Nat) (x : Stored) : (c.setLanded buf sect x).dram = c.dram := rfl
@[simp] theorem Chip.setLanded_fn (c : Chip) (buf sect : Nat) (x : Stored) : (c.setLanded buf sect x).fn = c.fn := rfl
@[simp] theorem Chip.setLanded_host (c : Chip) (buf sect : Nat) (x : Stored) : (c.setLanded buf sect x).host = c.host := rfl
@[simp] theorem Chip.setLanded_kerf (c : Chip) (buf sect : Nat) (x : Stored) : (c.setLanded buf sect x).kerf = c.kerf := rfl
@[simp] theorem Chip.setLanded_cal (c : Chip) (buf sect : Nat) (x : Stored) : (c.setLanded buf sect x).cal = c.cal := rfl
@[simp] theorem Chip.setLanded_flash (c : Chip) (buf sect : Nat) (x : Stored) : (c.setLanded buf sect x).flash = c.flash := rfl
@[simp] theorem Chip.setLanded_tf (c : Chip) (buf sect : Nat) (x : Stored) : (c.setLanded buf sect x).tf = c.tf := rfl
@[simp] theorem Chip.setLanded_key (c : Chip) (buf sect : Nat) (x : Stored) : (c.setLanded buf sect x).key = c.key := rfl
@[simp] theorem Chip.setLanded_sealer (c : Chip) (buf sect : Nat) (x : Stored) : (c.setLanded buf sect x).sealer = c.sealer := rfl
@[simp] theorem Chip.setLanded_boom (c : Chip) (buf sect : Nat) (x : Stored) : (c.setLanded buf sect x).boom = c.boom := rfl
@[simp] theorem Chip.setLanded_pmu (c : Chip) (buf sect : Nat) (x : Stored) : (c.setLanded buf sect x).pmu = c.pmu := rfl
@[simp] theorem Chip.setLanded_thm (c : Chip) (buf sect : Nat) (x : Stored) : (c.setLanded buf sect x).thm = c.thm := rfl
@[simp] theorem Chip.setLanded_rcu (c : Chip) (buf sect : Nat) (x : Stored) : (c.setLanded buf sect x).rcu = c.rcu := rfl
@[simp] theorem Chip.setLanded_free (c : Chip) (buf sect : Nat) (x : Stored) : (c.setLanded buf sect x).free = c.free := rfl

/-! `Chip.setBlk`. -/

@[simp] theorem Chip.setBlk_regs (c : Chip) (die b : Nat) (x : Blk) : (c.setBlk die b x).regs = c.regs := rfl
@[simp] theorem Chip.setBlk_time (c : Chip) (die b : Nat) (x : Blk) : (c.setBlk die b x).time = c.time := rfl
@[simp] theorem Chip.setBlk_obs (c : Chip) (die b : Nat) (x : Blk) : (c.setBlk die b x).obs = c.obs := rfl
@[simp] theorem Chip.setBlk_resp (c : Chip) (die b : Nat) (x : Blk) : (c.setBlk die b x).resp = c.resp := rfl
@[simp] theorem Chip.setBlk_buf (c : Chip) (die b : Nat) (x : Blk) : (c.setBlk die b x).buf = c.buf := rfl
@[simp] theorem Chip.setBlk_dram (c : Chip) (die b : Nat) (x : Blk) : (c.setBlk die b x).dram = c.dram := rfl
@[simp] theorem Chip.setBlk_fn (c : Chip) (die b : Nat) (x : Blk) : (c.setBlk die b x).fn = c.fn := rfl
@[simp] theorem Chip.setBlk_host (c : Chip) (die b : Nat) (x : Blk) : (c.setBlk die b x).host = c.host := rfl
@[simp] theorem Chip.setBlk_kerf (c : Chip) (die b : Nat) (x : Blk) : (c.setBlk die b x).kerf = c.kerf := rfl
@[simp] theorem Chip.setBlk_cal (c : Chip) (die b : Nat) (x : Blk) : (c.setBlk die b x).cal = c.cal := rfl
@[simp] theorem Chip.setBlk_flash (c : Chip) (die b : Nat) (x : Blk) : (c.setBlk die b x).flash = c.flash := rfl
@[simp] theorem Chip.setBlk_tf (c : Chip) (die b : Nat) (x : Blk) : (c.setBlk die b x).tf = c.tf := rfl
@[simp] theorem Chip.setBlk_key (c : Chip) (die b : Nat) (x : Blk) : (c.setBlk die b x).key = c.key := rfl
@[simp] theorem Chip.setBlk_sealer (c : Chip) (die b : Nat) (x : Blk) : (c.setBlk die b x).sealer = c.sealer := rfl
@[simp] theorem Chip.setBlk_boom (c : Chip) (die b : Nat) (x : Blk) : (c.setBlk die b x).boom = c.boom := rfl
@[simp] theorem Chip.setBlk_pmu (c : Chip) (die b : Nat) (x : Blk) : (c.setBlk die b x).pmu = c.pmu := rfl
@[simp] theorem Chip.setBlk_thm (c : Chip) (die b : Nat) (x : Blk) : (c.setBlk die b x).thm = c.thm := rfl
@[simp] theorem Chip.setBlk_rcu (c : Chip) (die b : Nat) (x : Blk) : (c.setBlk die b x).rcu = c.rcu := rfl
@[simp] theorem Chip.setBlk_free (c : Chip) (die b : Nat) (x : Blk) : (c.setBlk die b x).free = c.free := rfl

/-! `Chip.updGroup`. -/

@[simp] theorem Chip.updGroup_regs (c : Chip) (id : Nat) (f : Group → Group) : (c.updGroup id f).regs = c.regs := rfl
@[simp] theorem Chip.updGroup_time (c : Chip) (id : Nat) (f : Group → Group) : (c.updGroup id f).time = c.time := rfl
@[simp] theorem Chip.updGroup_obs (c : Chip) (id : Nat) (f : Group → Group) : (c.updGroup id f).obs = c.obs := rfl
@[simp] theorem Chip.updGroup_resp (c : Chip) (id : Nat) (f : Group → Group) : (c.updGroup id f).resp = c.resp := rfl
@[simp] theorem Chip.updGroup_buf (c : Chip) (id : Nat) (f : Group → Group) : (c.updGroup id f).buf = c.buf := rfl
@[simp] theorem Chip.updGroup_dram (c : Chip) (id : Nat) (f : Group → Group) : (c.updGroup id f).dram = c.dram := rfl
@[simp] theorem Chip.updGroup_fn (c : Chip) (id : Nat) (f : Group → Group) : (c.updGroup id f).fn = c.fn := rfl
@[simp] theorem Chip.updGroup_host (c : Chip) (id : Nat) (f : Group → Group) : (c.updGroup id f).host = c.host := rfl
@[simp] theorem Chip.updGroup_kerf (c : Chip) (id : Nat) (f : Group → Group) : (c.updGroup id f).kerf = c.kerf := rfl
@[simp] theorem Chip.updGroup_cal (c : Chip) (id : Nat) (f : Group → Group) : (c.updGroup id f).cal = c.cal := rfl
@[simp] theorem Chip.updGroup_flash (c : Chip) (id : Nat) (f : Group → Group) : (c.updGroup id f).flash = c.flash := rfl
@[simp] theorem Chip.updGroup_tf (c : Chip) (id : Nat) (f : Group → Group) : (c.updGroup id f).tf = c.tf := rfl
@[simp] theorem Chip.updGroup_key (c : Chip) (id : Nat) (f : Group → Group) : (c.updGroup id f).key = c.key := rfl
@[simp] theorem Chip.updGroup_sealer (c : Chip) (id : Nat) (f : Group → Group) : (c.updGroup id f).sealer = c.sealer := rfl
@[simp] theorem Chip.updGroup_boom (c : Chip) (id : Nat) (f : Group → Group) : (c.updGroup id f).boom = c.boom := rfl
@[simp] theorem Chip.updGroup_pmu (c : Chip) (id : Nat) (f : Group → Group) : (c.updGroup id f).pmu = c.pmu := rfl
@[simp] theorem Chip.updGroup_thm (c : Chip) (id : Nat) (f : Group → Group) : (c.updGroup id f).thm = c.thm := rfl
@[simp] theorem Chip.updGroup_rcu (c : Chip) (id : Nat) (f : Group → Group) : (c.updGroup id f).rcu = c.rcu := rfl
@[simp] theorem Chip.updGroup_free (c : Chip) (id : Nat) (f : Group → Group) : (c.updGroup id f).free = c.free := rfl

/-! `Chip.setMslot`. -/

@[simp] theorem Chip.setMslot_regs (c : Chip) (page : Nat) (x : MapSlot) : (c.setMslot page x).regs = c.regs := rfl
@[simp] theorem Chip.setMslot_time (c : Chip) (page : Nat) (x : MapSlot) : (c.setMslot page x).time = c.time := rfl
@[simp] theorem Chip.setMslot_obs (c : Chip) (page : Nat) (x : MapSlot) : (c.setMslot page x).obs = c.obs := rfl
@[simp] theorem Chip.setMslot_resp (c : Chip) (page : Nat) (x : MapSlot) : (c.setMslot page x).resp = c.resp := rfl
@[simp] theorem Chip.setMslot_buf (c : Chip) (page : Nat) (x : MapSlot) : (c.setMslot page x).buf = c.buf := rfl
@[simp] theorem Chip.setMslot_dram (c : Chip) (page : Nat) (x : MapSlot) : (c.setMslot page x).dram = c.dram := rfl
@[simp] theorem Chip.setMslot_fn (c : Chip) (page : Nat) (x : MapSlot) : (c.setMslot page x).fn = c.fn := rfl
@[simp] theorem Chip.setMslot_host (c : Chip) (page : Nat) (x : MapSlot) : (c.setMslot page x).host = c.host := rfl
@[simp] theorem Chip.setMslot_kerf (c : Chip) (page : Nat) (x : MapSlot) : (c.setMslot page x).kerf = c.kerf := rfl
@[simp] theorem Chip.setMslot_cal (c : Chip) (page : Nat) (x : MapSlot) : (c.setMslot page x).cal = c.cal := rfl
@[simp] theorem Chip.setMslot_flash (c : Chip) (page : Nat) (x : MapSlot) : (c.setMslot page x).flash = c.flash := rfl
@[simp] theorem Chip.setMslot_tf (c : Chip) (page : Nat) (x : MapSlot) : (c.setMslot page x).tf = c.tf := rfl
@[simp] theorem Chip.setMslot_key (c : Chip) (page : Nat) (x : MapSlot) : (c.setMslot page x).key = c.key := rfl
@[simp] theorem Chip.setMslot_sealer (c : Chip) (page : Nat) (x : MapSlot) : (c.setMslot page x).sealer = c.sealer := rfl
@[simp] theorem Chip.setMslot_boom (c : Chip) (page : Nat) (x : MapSlot) : (c.setMslot page x).boom = c.boom := rfl
@[simp] theorem Chip.setMslot_pmu (c : Chip) (page : Nat) (x : MapSlot) : (c.setMslot page x).pmu = c.pmu := rfl
@[simp] theorem Chip.setMslot_thm (c : Chip) (page : Nat) (x : MapSlot) : (c.setMslot page x).thm = c.thm := rfl
@[simp] theorem Chip.setMslot_rcu (c : Chip) (page : Nat) (x : MapSlot) : (c.setMslot page x).rcu = c.rcu := rfl
@[simp] theorem Chip.setMslot_free (c : Chip) (page : Nat) (x : MapSlot) : (c.setMslot page x).free = c.free := rfl

/-! `Chip.updDlog`. -/

@[simp] theorem Chip.updDlog_regs (c : Chip) (s : Nat) (g : DlogSlot → DlogSlot) : (c.updDlog s g).regs = c.regs := rfl
@[simp] theorem Chip.updDlog_time (c : Chip) (s : Nat) (g : DlogSlot → DlogSlot) : (c.updDlog s g).time = c.time := rfl
@[simp] theorem Chip.updDlog_obs (c : Chip) (s : Nat) (g : DlogSlot → DlogSlot) : (c.updDlog s g).obs = c.obs := rfl
@[simp] theorem Chip.updDlog_resp (c : Chip) (s : Nat) (g : DlogSlot → DlogSlot) : (c.updDlog s g).resp = c.resp := rfl
@[simp] theorem Chip.updDlog_buf (c : Chip) (s : Nat) (g : DlogSlot → DlogSlot) : (c.updDlog s g).buf = c.buf := rfl
@[simp] theorem Chip.updDlog_dram (c : Chip) (s : Nat) (g : DlogSlot → DlogSlot) : (c.updDlog s g).dram = c.dram := rfl
@[simp] theorem Chip.updDlog_host (c : Chip) (s : Nat) (g : DlogSlot → DlogSlot) : (c.updDlog s g).host = c.host := rfl
@[simp] theorem Chip.updDlog_kerf (c : Chip) (s : Nat) (g : DlogSlot → DlogSlot) : (c.updDlog s g).kerf = c.kerf := rfl
@[simp] theorem Chip.updDlog_cal (c : Chip) (s : Nat) (g : DlogSlot → DlogSlot) : (c.updDlog s g).cal = c.cal := rfl
@[simp] theorem Chip.updDlog_map (c : Chip) (s : Nat) (g : DlogSlot → DlogSlot) : (c.updDlog s g).map = c.map := rfl
@[simp] theorem Chip.updDlog_flash (c : Chip) (s : Nat) (g : DlogSlot → DlogSlot) : (c.updDlog s g).flash = c.flash := rfl
@[simp] theorem Chip.updDlog_tf (c : Chip) (s : Nat) (g : DlogSlot → DlogSlot) : (c.updDlog s g).tf = c.tf := rfl
@[simp] theorem Chip.updDlog_key (c : Chip) (s : Nat) (g : DlogSlot → DlogSlot) : (c.updDlog s g).key = c.key := rfl
@[simp] theorem Chip.updDlog_sealer (c : Chip) (s : Nat) (g : DlogSlot → DlogSlot) : (c.updDlog s g).sealer = c.sealer := rfl
@[simp] theorem Chip.updDlog_boom (c : Chip) (s : Nat) (g : DlogSlot → DlogSlot) : (c.updDlog s g).boom = c.boom := rfl
@[simp] theorem Chip.updDlog_pmu (c : Chip) (s : Nat) (g : DlogSlot → DlogSlot) : (c.updDlog s g).pmu = c.pmu := rfl
@[simp] theorem Chip.updDlog_thm (c : Chip) (s : Nat) (g : DlogSlot → DlogSlot) : (c.updDlog s g).thm = c.thm := rfl
@[simp] theorem Chip.updDlog_rcu (c : Chip) (s : Nat) (g : DlogSlot → DlogSlot) : (c.updDlog s g).rcu = c.rcu := rfl
@[simp] theorem Chip.updDlog_free (c : Chip) (s : Nat) (g : DlogSlot → DlogSlot) : (c.updDlog s g).free = c.free := rfl

/-! `Chip.setSubCh`. -/

@[simp] theorem Chip.setSubCh_regs (c : Chip) (i : Nat) (x : SubCh) : (c.setSubCh i x).regs = c.regs := rfl
@[simp] theorem Chip.setSubCh_time (c : Chip) (i : Nat) (x : SubCh) : (c.setSubCh i x).time = c.time := rfl
@[simp] theorem Chip.setSubCh_obs (c : Chip) (i : Nat) (x : SubCh) : (c.setSubCh i x).obs = c.obs := rfl
@[simp] theorem Chip.setSubCh_resp (c : Chip) (i : Nat) (x : SubCh) : (c.setSubCh i x).resp = c.resp := rfl
@[simp] theorem Chip.setSubCh_buf (c : Chip) (i : Nat) (x : SubCh) : (c.setSubCh i x).buf = c.buf := rfl
@[simp] theorem Chip.setSubCh_fn (c : Chip) (i : Nat) (x : SubCh) : (c.setSubCh i x).fn = c.fn := rfl
@[simp] theorem Chip.setSubCh_host (c : Chip) (i : Nat) (x : SubCh) : (c.setSubCh i x).host = c.host := rfl
@[simp] theorem Chip.setSubCh_kerf (c : Chip) (i : Nat) (x : SubCh) : (c.setSubCh i x).kerf = c.kerf := rfl
@[simp] theorem Chip.setSubCh_cal (c : Chip) (i : Nat) (x : SubCh) : (c.setSubCh i x).cal = c.cal := rfl
@[simp] theorem Chip.setSubCh_map (c : Chip) (i : Nat) (x : SubCh) : (c.setSubCh i x).map = c.map := rfl
@[simp] theorem Chip.setSubCh_flash (c : Chip) (i : Nat) (x : SubCh) : (c.setSubCh i x).flash = c.flash := rfl
@[simp] theorem Chip.setSubCh_tf (c : Chip) (i : Nat) (x : SubCh) : (c.setSubCh i x).tf = c.tf := rfl
@[simp] theorem Chip.setSubCh_key (c : Chip) (i : Nat) (x : SubCh) : (c.setSubCh i x).key = c.key := rfl
@[simp] theorem Chip.setSubCh_sealer (c : Chip) (i : Nat) (x : SubCh) : (c.setSubCh i x).sealer = c.sealer := rfl
@[simp] theorem Chip.setSubCh_boom (c : Chip) (i : Nat) (x : SubCh) : (c.setSubCh i x).boom = c.boom := rfl
@[simp] theorem Chip.setSubCh_pmu (c : Chip) (i : Nat) (x : SubCh) : (c.setSubCh i x).pmu = c.pmu := rfl
@[simp] theorem Chip.setSubCh_thm (c : Chip) (i : Nat) (x : SubCh) : (c.setSubCh i x).thm = c.thm := rfl
@[simp] theorem Chip.setSubCh_rcu (c : Chip) (i : Nat) (x : SubCh) : (c.setSubCh i x).rcu = c.rcu := rfl
@[simp] theorem Chip.setSubCh_free (c : Chip) (i : Nat) (x : SubCh) : (c.setSubCh i x).free = c.free := rfl

/-! `Chip.updChan`. -/

@[simp] theorem Chip.updChan_regs (c : Chip) (n : Nat) (g : Chan → Chan) : (c.updChan n g).regs = c.regs := rfl
@[simp] theorem Chip.updChan_time (c : Chip) (n : Nat) (g : Chan → Chan) : (c.updChan n g).time = c.time := rfl
@[simp] theorem Chip.updChan_obs (c : Chip) (n : Nat) (g : Chan → Chan) : (c.updChan n g).obs = c.obs := rfl
@[simp] theorem Chip.updChan_resp (c : Chip) (n : Nat) (g : Chan → Chan) : (c.updChan n g).resp = c.resp := rfl
@[simp] theorem Chip.updChan_buf (c : Chip) (n : Nat) (g : Chan → Chan) : (c.updChan n g).buf = c.buf := rfl
@[simp] theorem Chip.updChan_dram (c : Chip) (n : Nat) (g : Chan → Chan) : (c.updChan n g).dram = c.dram := rfl
@[simp] theorem Chip.updChan_fn (c : Chip) (n : Nat) (g : Chan → Chan) : (c.updChan n g).fn = c.fn := rfl
@[simp] theorem Chip.updChan_host (c : Chip) (n : Nat) (g : Chan → Chan) : (c.updChan n g).host = c.host := rfl
@[simp] theorem Chip.updChan_kerf (c : Chip) (n : Nat) (g : Chan → Chan) : (c.updChan n g).kerf = c.kerf := rfl
@[simp] theorem Chip.updChan_cal (c : Chip) (n : Nat) (g : Chan → Chan) : (c.updChan n g).cal = c.cal := rfl
@[simp] theorem Chip.updChan_map (c : Chip) (n : Nat) (g : Chan → Chan) : (c.updChan n g).map = c.map := rfl
@[simp] theorem Chip.updChan_tf (c : Chip) (n : Nat) (g : Chan → Chan) : (c.updChan n g).tf = c.tf := rfl
@[simp] theorem Chip.updChan_key (c : Chip) (n : Nat) (g : Chan → Chan) : (c.updChan n g).key = c.key := rfl
@[simp] theorem Chip.updChan_sealer (c : Chip) (n : Nat) (g : Chan → Chan) : (c.updChan n g).sealer = c.sealer := rfl
@[simp] theorem Chip.updChan_boom (c : Chip) (n : Nat) (g : Chan → Chan) : (c.updChan n g).boom = c.boom := rfl
@[simp] theorem Chip.updChan_pmu (c : Chip) (n : Nat) (g : Chan → Chan) : (c.updChan n g).pmu = c.pmu := rfl
@[simp] theorem Chip.updChan_thm (c : Chip) (n : Nat) (g : Chan → Chan) : (c.updChan n g).thm = c.thm := rfl
@[simp] theorem Chip.updChan_rcu (c : Chip) (n : Nat) (g : Chan → Chan) : (c.updChan n g).rcu = c.rcu := rfl
@[simp] theorem Chip.updChan_free (c : Chip) (n : Nat) (g : Chan → Chan) : (c.updChan n g).free = c.free := rfl

/-! `Chip.setFn`. -/

@[simp] theorem Chip.setFn_regs (c : Chip) (f : Nat) (x : Fn) : (c.setFn f x).regs = c.regs := rfl
@[simp] theorem Chip.setFn_time (c : Chip) (f : Nat) (x : Fn) : (c.setFn f x).time = c.time := rfl
@[simp] theorem Chip.setFn_obs (c : Chip) (f : Nat) (x : Fn) : (c.setFn f x).obs = c.obs := rfl
@[simp] theorem Chip.setFn_resp (c : Chip) (f : Nat) (x : Fn) : (c.setFn f x).resp = c.resp := rfl
@[simp] theorem Chip.setFn_buf (c : Chip) (f : Nat) (x : Fn) : (c.setFn f x).buf = c.buf := rfl
@[simp] theorem Chip.setFn_dram (c : Chip) (f : Nat) (x : Fn) : (c.setFn f x).dram = c.dram := rfl
@[simp] theorem Chip.setFn_host (c : Chip) (f : Nat) (x : Fn) : (c.setFn f x).host = c.host := rfl
@[simp] theorem Chip.setFn_kerf (c : Chip) (f : Nat) (x : Fn) : (c.setFn f x).kerf = c.kerf := rfl
@[simp] theorem Chip.setFn_cal (c : Chip) (f : Nat) (x : Fn) : (c.setFn f x).cal = c.cal := rfl
@[simp] theorem Chip.setFn_map (c : Chip) (f : Nat) (x : Fn) : (c.setFn f x).map = c.map := rfl
@[simp] theorem Chip.setFn_flash (c : Chip) (f : Nat) (x : Fn) : (c.setFn f x).flash = c.flash := rfl
@[simp] theorem Chip.setFn_tf (c : Chip) (f : Nat) (x : Fn) : (c.setFn f x).tf = c.tf := rfl
@[simp] theorem Chip.setFn_key (c : Chip) (f : Nat) (x : Fn) : (c.setFn f x).key = c.key := rfl
@[simp] theorem Chip.setFn_sealer (c : Chip) (f : Nat) (x : Fn) : (c.setFn f x).sealer = c.sealer := rfl
@[simp] theorem Chip.setFn_boom (c : Chip) (f : Nat) (x : Fn) : (c.setFn f x).boom = c.boom := rfl
@[simp] theorem Chip.setFn_pmu (c : Chip) (f : Nat) (x : Fn) : (c.setFn f x).pmu = c.pmu := rfl
@[simp] theorem Chip.setFn_thm (c : Chip) (f : Nat) (x : Fn) : (c.setFn f x).thm = c.thm := rfl
@[simp] theorem Chip.setFn_rcu (c : Chip) (f : Nat) (x : Fn) : (c.setFn f x).rcu = c.rcu := rfl
@[simp] theorem Chip.setFn_free (c : Chip) (f : Nat) (x : Fn) : (c.setFn f x).free = c.free := rfl

/-! `Chip.updFn`. -/

@[simp] theorem Chip.updFn_regs (c : Chip) (f : Nat) (g : Fn → Fn) : (c.updFn f g).regs = c.regs := rfl
@[simp] theorem Chip.updFn_time (c : Chip) (f : Nat) (g : Fn → Fn) : (c.updFn f g).time = c.time := rfl
@[simp] theorem Chip.updFn_obs (c : Chip) (f : Nat) (g : Fn → Fn) : (c.updFn f g).obs = c.obs := rfl
@[simp] theorem Chip.updFn_resp (c : Chip) (f : Nat) (g : Fn → Fn) : (c.updFn f g).resp = c.resp := rfl
@[simp] theorem Chip.updFn_buf (c : Chip) (f : Nat) (g : Fn → Fn) : (c.updFn f g).buf = c.buf := rfl
@[simp] theorem Chip.updFn_dram (c : Chip) (f : Nat) (g : Fn → Fn) : (c.updFn f g).dram = c.dram := rfl
@[simp] theorem Chip.updFn_host (c : Chip) (f : Nat) (g : Fn → Fn) : (c.updFn f g).host = c.host := rfl
@[simp] theorem Chip.updFn_kerf (c : Chip) (f : Nat) (g : Fn → Fn) : (c.updFn f g).kerf = c.kerf := rfl
@[simp] theorem Chip.updFn_cal (c : Chip) (f : Nat) (g : Fn → Fn) : (c.updFn f g).cal = c.cal := rfl
@[simp] theorem Chip.updFn_map (c : Chip) (f : Nat) (g : Fn → Fn) : (c.updFn f g).map = c.map := rfl
@[simp] theorem Chip.updFn_flash (c : Chip) (f : Nat) (g : Fn → Fn) : (c.updFn f g).flash = c.flash := rfl
@[simp] theorem Chip.updFn_tf (c : Chip) (f : Nat) (g : Fn → Fn) : (c.updFn f g).tf = c.tf := rfl
@[simp] theorem Chip.updFn_key (c : Chip) (f : Nat) (g : Fn → Fn) : (c.updFn f g).key = c.key := rfl
@[simp] theorem Chip.updFn_sealer (c : Chip) (f : Nat) (g : Fn → Fn) : (c.updFn f g).sealer = c.sealer := rfl
@[simp] theorem Chip.updFn_boom (c : Chip) (f : Nat) (g : Fn → Fn) : (c.updFn f g).boom = c.boom := rfl
@[simp] theorem Chip.updFn_pmu (c : Chip) (f : Nat) (g : Fn → Fn) : (c.updFn f g).pmu = c.pmu := rfl
@[simp] theorem Chip.updFn_thm (c : Chip) (f : Nat) (g : Fn → Fn) : (c.updFn f g).thm = c.thm := rfl
@[simp] theorem Chip.updFn_rcu (c : Chip) (f : Nat) (g : Fn → Fn) : (c.updFn f g).rcu = c.rcu := rfl
@[simp] theorem Chip.updFn_free (c : Chip) (f : Nat) (g : Fn → Fn) : (c.updFn f g).free = c.free := rfl

/-! `Chip.setNs`. -/

@[simp] theorem Chip.setNs_regs (c : Chip) (nsx : Nat) (n : Option Ns) : (c.setNs nsx n).regs = c.regs := rfl
@[simp] theorem Chip.setNs_time (c : Chip) (nsx : Nat) (n : Option Ns) : (c.setNs nsx n).time = c.time := rfl
@[simp] theorem Chip.setNs_obs (c : Chip) (nsx : Nat) (n : Option Ns) : (c.setNs nsx n).obs = c.obs := rfl
@[simp] theorem Chip.setNs_resp (c : Chip) (nsx : Nat) (n : Option Ns) : (c.setNs nsx n).resp = c.resp := rfl
@[simp] theorem Chip.setNs_buf (c : Chip) (nsx : Nat) (n : Option Ns) : (c.setNs nsx n).buf = c.buf := rfl
@[simp] theorem Chip.setNs_dram (c : Chip) (nsx : Nat) (n : Option Ns) : (c.setNs nsx n).dram = c.dram := rfl
@[simp] theorem Chip.setNs_fn (c : Chip) (nsx : Nat) (n : Option Ns) : (c.setNs nsx n).fn = c.fn := rfl
@[simp] theorem Chip.setNs_kerf (c : Chip) (nsx : Nat) (n : Option Ns) : (c.setNs nsx n).kerf = c.kerf := rfl
@[simp] theorem Chip.setNs_cal (c : Chip) (nsx : Nat) (n : Option Ns) : (c.setNs nsx n).cal = c.cal := rfl
@[simp] theorem Chip.setNs_map (c : Chip) (nsx : Nat) (n : Option Ns) : (c.setNs nsx n).map = c.map := rfl
@[simp] theorem Chip.setNs_flash (c : Chip) (nsx : Nat) (n : Option Ns) : (c.setNs nsx n).flash = c.flash := rfl
@[simp] theorem Chip.setNs_tf (c : Chip) (nsx : Nat) (n : Option Ns) : (c.setNs nsx n).tf = c.tf := rfl
@[simp] theorem Chip.setNs_key (c : Chip) (nsx : Nat) (n : Option Ns) : (c.setNs nsx n).key = c.key := rfl
@[simp] theorem Chip.setNs_sealer (c : Chip) (nsx : Nat) (n : Option Ns) : (c.setNs nsx n).sealer = c.sealer := rfl
@[simp] theorem Chip.setNs_boom (c : Chip) (nsx : Nat) (n : Option Ns) : (c.setNs nsx n).boom = c.boom := rfl
@[simp] theorem Chip.setNs_pmu (c : Chip) (nsx : Nat) (n : Option Ns) : (c.setNs nsx n).pmu = c.pmu := rfl
@[simp] theorem Chip.setNs_thm (c : Chip) (nsx : Nat) (n : Option Ns) : (c.setNs nsx n).thm = c.thm := rfl
@[simp] theorem Chip.setNs_rcu (c : Chip) (nsx : Nat) (n : Option Ns) : (c.setNs nsx n).rcu = c.rcu := rfl
@[simp] theorem Chip.setNs_free (c : Chip) (nsx : Nat) (n : Option Ns) : (c.setNs nsx n).free = c.free := rfl

/-! `Chip.setKcore`. -/

@[simp] theorem Chip.setKcore_regs (c : Chip) (k : Nat) (x : DataCore) : (c.setKcore k x).regs = c.regs := rfl
@[simp] theorem Chip.setKcore_time (c : Chip) (k : Nat) (x : DataCore) : (c.setKcore k x).time = c.time := rfl
@[simp] theorem Chip.setKcore_obs (c : Chip) (k : Nat) (x : DataCore) : (c.setKcore k x).obs = c.obs := rfl
@[simp] theorem Chip.setKcore_resp (c : Chip) (k : Nat) (x : DataCore) : (c.setKcore k x).resp = c.resp := rfl
@[simp] theorem Chip.setKcore_buf (c : Chip) (k : Nat) (x : DataCore) : (c.setKcore k x).buf = c.buf := rfl
@[simp] theorem Chip.setKcore_dram (c : Chip) (k : Nat) (x : DataCore) : (c.setKcore k x).dram = c.dram := rfl
@[simp] theorem Chip.setKcore_fn (c : Chip) (k : Nat) (x : DataCore) : (c.setKcore k x).fn = c.fn := rfl
@[simp] theorem Chip.setKcore_host (c : Chip) (k : Nat) (x : DataCore) : (c.setKcore k x).host = c.host := rfl
@[simp] theorem Chip.setKcore_cal (c : Chip) (k : Nat) (x : DataCore) : (c.setKcore k x).cal = c.cal := rfl
@[simp] theorem Chip.setKcore_map (c : Chip) (k : Nat) (x : DataCore) : (c.setKcore k x).map = c.map := rfl
@[simp] theorem Chip.setKcore_flash (c : Chip) (k : Nat) (x : DataCore) : (c.setKcore k x).flash = c.flash := rfl
@[simp] theorem Chip.setKcore_tf (c : Chip) (k : Nat) (x : DataCore) : (c.setKcore k x).tf = c.tf := rfl
@[simp] theorem Chip.setKcore_key (c : Chip) (k : Nat) (x : DataCore) : (c.setKcore k x).key = c.key := rfl
@[simp] theorem Chip.setKcore_sealer (c : Chip) (k : Nat) (x : DataCore) : (c.setKcore k x).sealer = c.sealer := rfl
@[simp] theorem Chip.setKcore_boom (c : Chip) (k : Nat) (x : DataCore) : (c.setKcore k x).boom = c.boom := rfl
@[simp] theorem Chip.setKcore_pmu (c : Chip) (k : Nat) (x : DataCore) : (c.setKcore k x).pmu = c.pmu := rfl
@[simp] theorem Chip.setKcore_thm (c : Chip) (k : Nat) (x : DataCore) : (c.setKcore k x).thm = c.thm := rfl
@[simp] theorem Chip.setKcore_rcu (c : Chip) (k : Nat) (x : DataCore) : (c.setKcore k x).rcu = c.rcu := rfl
@[simp] theorem Chip.setKcore_free (c : Chip) (k : Nat) (x : DataCore) : (c.setKcore k x).free = c.free := rfl

/-! `Chip.setProg`. -/

@[simp] theorem Chip.setProg_regs (c : Chip) (i : Nat) (p : Option Program) : (c.setProg i p).regs = c.regs := rfl
@[simp] theorem Chip.setProg_time (c : Chip) (i : Nat) (p : Option Program) : (c.setProg i p).time = c.time := rfl
@[simp] theorem Chip.setProg_obs (c : Chip) (i : Nat) (p : Option Program) : (c.setProg i p).obs = c.obs := rfl
@[simp] theorem Chip.setProg_resp (c : Chip) (i : Nat) (p : Option Program) : (c.setProg i p).resp = c.resp := rfl
@[simp] theorem Chip.setProg_buf (c : Chip) (i : Nat) (p : Option Program) : (c.setProg i p).buf = c.buf := rfl
@[simp] theorem Chip.setProg_dram (c : Chip) (i : Nat) (p : Option Program) : (c.setProg i p).dram = c.dram := rfl
@[simp] theorem Chip.setProg_fn (c : Chip) (i : Nat) (p : Option Program) : (c.setProg i p).fn = c.fn := rfl
@[simp] theorem Chip.setProg_host (c : Chip) (i : Nat) (p : Option Program) : (c.setProg i p).host = c.host := rfl
@[simp] theorem Chip.setProg_cal (c : Chip) (i : Nat) (p : Option Program) : (c.setProg i p).cal = c.cal := rfl
@[simp] theorem Chip.setProg_map (c : Chip) (i : Nat) (p : Option Program) : (c.setProg i p).map = c.map := rfl
@[simp] theorem Chip.setProg_flash (c : Chip) (i : Nat) (p : Option Program) : (c.setProg i p).flash = c.flash := rfl
@[simp] theorem Chip.setProg_tf (c : Chip) (i : Nat) (p : Option Program) : (c.setProg i p).tf = c.tf := rfl
@[simp] theorem Chip.setProg_key (c : Chip) (i : Nat) (p : Option Program) : (c.setProg i p).key = c.key := rfl
@[simp] theorem Chip.setProg_sealer (c : Chip) (i : Nat) (p : Option Program) : (c.setProg i p).sealer = c.sealer := rfl
@[simp] theorem Chip.setProg_boom (c : Chip) (i : Nat) (p : Option Program) : (c.setProg i p).boom = c.boom := rfl
@[simp] theorem Chip.setProg_pmu (c : Chip) (i : Nat) (p : Option Program) : (c.setProg i p).pmu = c.pmu := rfl
@[simp] theorem Chip.setProg_thm (c : Chip) (i : Nat) (p : Option Program) : (c.setProg i p).thm = c.thm := rfl
@[simp] theorem Chip.setProg_rcu (c : Chip) (i : Nat) (p : Option Program) : (c.setProg i p).rcu = c.rcu := rfl
@[simp] theorem Chip.setProg_free (c : Chip) (i : Nat) (p : Option Program) : (c.setProg i p).free = c.free := rfl

/-! `Chip.setSlot`. -/

@[simp] theorem Chip.setSlot_regs (c : Chip) (i : Nat) (x : KeySlot) : (c.setSlot i x).regs = c.regs := rfl
@[simp] theorem Chip.setSlot_time (c : Chip) (i : Nat) (x : KeySlot) : (c.setSlot i x).time = c.time := rfl
@[simp] theorem Chip.setSlot_obs (c : Chip) (i : Nat) (x : KeySlot) : (c.setSlot i x).obs = c.obs := rfl
@[simp] theorem Chip.setSlot_resp (c : Chip) (i : Nat) (x : KeySlot) : (c.setSlot i x).resp = c.resp := rfl
@[simp] theorem Chip.setSlot_buf (c : Chip) (i : Nat) (x : KeySlot) : (c.setSlot i x).buf = c.buf := rfl
@[simp] theorem Chip.setSlot_dram (c : Chip) (i : Nat) (x : KeySlot) : (c.setSlot i x).dram = c.dram := rfl
@[simp] theorem Chip.setSlot_fn (c : Chip) (i : Nat) (x : KeySlot) : (c.setSlot i x).fn = c.fn := rfl
@[simp] theorem Chip.setSlot_host (c : Chip) (i : Nat) (x : KeySlot) : (c.setSlot i x).host = c.host := rfl
@[simp] theorem Chip.setSlot_kerf (c : Chip) (i : Nat) (x : KeySlot) : (c.setSlot i x).kerf = c.kerf := rfl
@[simp] theorem Chip.setSlot_cal (c : Chip) (i : Nat) (x : KeySlot) : (c.setSlot i x).cal = c.cal := rfl
@[simp] theorem Chip.setSlot_map (c : Chip) (i : Nat) (x : KeySlot) : (c.setSlot i x).map = c.map := rfl
@[simp] theorem Chip.setSlot_flash (c : Chip) (i : Nat) (x : KeySlot) : (c.setSlot i x).flash = c.flash := rfl
@[simp] theorem Chip.setSlot_tf (c : Chip) (i : Nat) (x : KeySlot) : (c.setSlot i x).tf = c.tf := rfl
@[simp] theorem Chip.setSlot_sealer (c : Chip) (i : Nat) (x : KeySlot) : (c.setSlot i x).sealer = c.sealer := rfl
@[simp] theorem Chip.setSlot_boom (c : Chip) (i : Nat) (x : KeySlot) : (c.setSlot i x).boom = c.boom := rfl
@[simp] theorem Chip.setSlot_pmu (c : Chip) (i : Nat) (x : KeySlot) : (c.setSlot i x).pmu = c.pmu := rfl
@[simp] theorem Chip.setSlot_thm (c : Chip) (i : Nat) (x : KeySlot) : (c.setSlot i x).thm = c.thm := rfl
@[simp] theorem Chip.setSlot_rcu (c : Chip) (i : Nat) (x : KeySlot) : (c.setSlot i x).rcu = c.rcu := rfl
@[simp] theorem Chip.setSlot_free (c : Chip) (i : Nat) (x : KeySlot) : (c.setSlot i x).free = c.free := rfl

/-! `Chip.setSensor`. -/

@[simp] theorem Chip.setSensor_regs (c : Chip) (i : Nat) (x : Sensor) : (c.setSensor i x).regs = c.regs := rfl
@[simp] theorem Chip.setSensor_time (c : Chip) (i : Nat) (x : Sensor) : (c.setSensor i x).time = c.time := rfl
@[simp] theorem Chip.setSensor_obs (c : Chip) (i : Nat) (x : Sensor) : (c.setSensor i x).obs = c.obs := rfl
@[simp] theorem Chip.setSensor_resp (c : Chip) (i : Nat) (x : Sensor) : (c.setSensor i x).resp = c.resp := rfl
@[simp] theorem Chip.setSensor_buf (c : Chip) (i : Nat) (x : Sensor) : (c.setSensor i x).buf = c.buf := rfl
@[simp] theorem Chip.setSensor_dram (c : Chip) (i : Nat) (x : Sensor) : (c.setSensor i x).dram = c.dram := rfl
@[simp] theorem Chip.setSensor_fn (c : Chip) (i : Nat) (x : Sensor) : (c.setSensor i x).fn = c.fn := rfl
@[simp] theorem Chip.setSensor_host (c : Chip) (i : Nat) (x : Sensor) : (c.setSensor i x).host = c.host := rfl
@[simp] theorem Chip.setSensor_kerf (c : Chip) (i : Nat) (x : Sensor) : (c.setSensor i x).kerf = c.kerf := rfl
@[simp] theorem Chip.setSensor_cal (c : Chip) (i : Nat) (x : Sensor) : (c.setSensor i x).cal = c.cal := rfl
@[simp] theorem Chip.setSensor_map (c : Chip) (i : Nat) (x : Sensor) : (c.setSensor i x).map = c.map := rfl
@[simp] theorem Chip.setSensor_flash (c : Chip) (i : Nat) (x : Sensor) : (c.setSensor i x).flash = c.flash := rfl
@[simp] theorem Chip.setSensor_tf (c : Chip) (i : Nat) (x : Sensor) : (c.setSensor i x).tf = c.tf := rfl
@[simp] theorem Chip.setSensor_key (c : Chip) (i : Nat) (x : Sensor) : (c.setSensor i x).key = c.key := rfl
@[simp] theorem Chip.setSensor_sealer (c : Chip) (i : Nat) (x : Sensor) : (c.setSensor i x).sealer = c.sealer := rfl
@[simp] theorem Chip.setSensor_boom (c : Chip) (i : Nat) (x : Sensor) : (c.setSensor i x).boom = c.boom := rfl
@[simp] theorem Chip.setSensor_pmu (c : Chip) (i : Nat) (x : Sensor) : (c.setSensor i x).pmu = c.pmu := rfl
@[simp] theorem Chip.setSensor_rcu (c : Chip) (i : Nat) (x : Sensor) : (c.setSensor i x).rcu = c.rcu := rfl
@[simp] theorem Chip.setSensor_free (c : Chip) (i : Nat) (x : Sensor) : (c.setSensor i x).free = c.free := rfl

/-! `Chip.setNode`. -/

@[simp] theorem Chip.setNode_regs (c : Chip) (k : Nat) (t : Int) : (c.setNode k t).regs = c.regs := rfl
@[simp] theorem Chip.setNode_time (c : Chip) (k : Nat) (t : Int) : (c.setNode k t).time = c.time := rfl
@[simp] theorem Chip.setNode_obs (c : Chip) (k : Nat) (t : Int) : (c.setNode k t).obs = c.obs := rfl
@[simp] theorem Chip.setNode_resp (c : Chip) (k : Nat) (t : Int) : (c.setNode k t).resp = c.resp := rfl
@[simp] theorem Chip.setNode_buf (c : Chip) (k : Nat) (t : Int) : (c.setNode k t).buf = c.buf := rfl
@[simp] theorem Chip.setNode_dram (c : Chip) (k : Nat) (t : Int) : (c.setNode k t).dram = c.dram := rfl
@[simp] theorem Chip.setNode_fn (c : Chip) (k : Nat) (t : Int) : (c.setNode k t).fn = c.fn := rfl
@[simp] theorem Chip.setNode_host (c : Chip) (k : Nat) (t : Int) : (c.setNode k t).host = c.host := rfl
@[simp] theorem Chip.setNode_kerf (c : Chip) (k : Nat) (t : Int) : (c.setNode k t).kerf = c.kerf := rfl
@[simp] theorem Chip.setNode_cal (c : Chip) (k : Nat) (t : Int) : (c.setNode k t).cal = c.cal := rfl
@[simp] theorem Chip.setNode_map (c : Chip) (k : Nat) (t : Int) : (c.setNode k t).map = c.map := rfl
@[simp] theorem Chip.setNode_flash (c : Chip) (k : Nat) (t : Int) : (c.setNode k t).flash = c.flash := rfl
@[simp] theorem Chip.setNode_tf (c : Chip) (k : Nat) (t : Int) : (c.setNode k t).tf = c.tf := rfl
@[simp] theorem Chip.setNode_key (c : Chip) (k : Nat) (t : Int) : (c.setNode k t).key = c.key := rfl
@[simp] theorem Chip.setNode_sealer (c : Chip) (k : Nat) (t : Int) : (c.setNode k t).sealer = c.sealer := rfl
@[simp] theorem Chip.setNode_boom (c : Chip) (k : Nat) (t : Int) : (c.setNode k t).boom = c.boom := rfl
@[simp] theorem Chip.setNode_pmu (c : Chip) (k : Nat) (t : Int) : (c.setNode k t).pmu = c.pmu := rfl
@[simp] theorem Chip.setNode_rcu (c : Chip) (k : Nat) (t : Int) : (c.setNode k t).rcu = c.rcu := rfl
@[simp] theorem Chip.setNode_free (c : Chip) (k : Nat) (t : Int) : (c.setNode k t).free = c.free := rfl

/-! `Chip.setDec`. -/

@[simp] theorem Chip.setDec_regs (c : Chip) (k : Nat) (x : Dec) : (c.setDec k x).regs = c.regs := rfl
@[simp] theorem Chip.setDec_time (c : Chip) (k : Nat) (x : Dec) : (c.setDec k x).time = c.time := rfl
@[simp] theorem Chip.setDec_obs (c : Chip) (k : Nat) (x : Dec) : (c.setDec k x).obs = c.obs := rfl
@[simp] theorem Chip.setDec_resp (c : Chip) (k : Nat) (x : Dec) : (c.setDec k x).resp = c.resp := rfl
@[simp] theorem Chip.setDec_buf (c : Chip) (k : Nat) (x : Dec) : (c.setDec k x).buf = c.buf := rfl
@[simp] theorem Chip.setDec_dram (c : Chip) (k : Nat) (x : Dec) : (c.setDec k x).dram = c.dram := rfl
@[simp] theorem Chip.setDec_fn (c : Chip) (k : Nat) (x : Dec) : (c.setDec k x).fn = c.fn := rfl
@[simp] theorem Chip.setDec_host (c : Chip) (k : Nat) (x : Dec) : (c.setDec k x).host = c.host := rfl
@[simp] theorem Chip.setDec_kerf (c : Chip) (k : Nat) (x : Dec) : (c.setDec k x).kerf = c.kerf := rfl
@[simp] theorem Chip.setDec_cal (c : Chip) (k : Nat) (x : Dec) : (c.setDec k x).cal = c.cal := rfl
@[simp] theorem Chip.setDec_map (c : Chip) (k : Nat) (x : Dec) : (c.setDec k x).map = c.map := rfl
@[simp] theorem Chip.setDec_tf (c : Chip) (k : Nat) (x : Dec) : (c.setDec k x).tf = c.tf := rfl
@[simp] theorem Chip.setDec_key (c : Chip) (k : Nat) (x : Dec) : (c.setDec k x).key = c.key := rfl
@[simp] theorem Chip.setDec_sealer (c : Chip) (k : Nat) (x : Dec) : (c.setDec k x).sealer = c.sealer := rfl
@[simp] theorem Chip.setDec_boom (c : Chip) (k : Nat) (x : Dec) : (c.setDec k x).boom = c.boom := rfl
@[simp] theorem Chip.setDec_pmu (c : Chip) (k : Nat) (x : Dec) : (c.setDec k x).pmu = c.pmu := rfl
@[simp] theorem Chip.setDec_thm (c : Chip) (k : Nat) (x : Dec) : (c.setDec k x).thm = c.thm := rfl
@[simp] theorem Chip.setDec_rcu (c : Chip) (k : Nat) (x : Dec) : (c.setDec k x).rcu = c.rcu := rfl
@[simp] theorem Chip.setDec_free (c : Chip) (k : Nat) (x : Dec) : (c.setDec k x).free = c.free := rfl

/-! `Chip.setTring`. -/

@[simp] theorem Chip.setTring_regs (c : Chip) (g q : Nat) (r : Ring) : (c.setTring g q r).regs = c.regs := rfl
@[simp] theorem Chip.setTring_time (c : Chip) (g q : Nat) (r : Ring) : (c.setTring g q r).time = c.time := rfl
@[simp] theorem Chip.setTring_obs (c : Chip) (g q : Nat) (r : Ring) : (c.setTring g q r).obs = c.obs := rfl
@[simp] theorem Chip.setTring_resp (c : Chip) (g q : Nat) (r : Ring) : (c.setTring g q r).resp = c.resp := rfl
@[simp] theorem Chip.setTring_buf (c : Chip) (g q : Nat) (r : Ring) : (c.setTring g q r).buf = c.buf := rfl
@[simp] theorem Chip.setTring_dram (c : Chip) (g q : Nat) (r : Ring) : (c.setTring g q r).dram = c.dram := rfl
@[simp] theorem Chip.setTring_fn (c : Chip) (g q : Nat) (r : Ring) : (c.setTring g q r).fn = c.fn := rfl
@[simp] theorem Chip.setTring_host (c : Chip) (g q : Nat) (r : Ring) : (c.setTring g q r).host = c.host := rfl
@[simp] theorem Chip.setTring_kerf (c : Chip) (g q : Nat) (r : Ring) : (c.setTring g q r).kerf = c.kerf := rfl
@[simp] theorem Chip.setTring_cal (c : Chip) (g q : Nat) (r : Ring) : (c.setTring g q r).cal = c.cal := rfl
@[simp] theorem Chip.setTring_map (c : Chip) (g q : Nat) (r : Ring) : (c.setTring g q r).map = c.map := rfl
@[simp] theorem Chip.setTring_flash (c : Chip) (g q : Nat) (r : Ring) : (c.setTring g q r).flash = c.flash := rfl
@[simp] theorem Chip.setTring_key (c : Chip) (g q : Nat) (r : Ring) : (c.setTring g q r).key = c.key := rfl
@[simp] theorem Chip.setTring_sealer (c : Chip) (g q : Nat) (r : Ring) : (c.setTring g q r).sealer = c.sealer := rfl
@[simp] theorem Chip.setTring_boom (c : Chip) (g q : Nat) (r : Ring) : (c.setTring g q r).boom = c.boom := rfl
@[simp] theorem Chip.setTring_pmu (c : Chip) (g q : Nat) (r : Ring) : (c.setTring g q r).pmu = c.pmu := rfl
@[simp] theorem Chip.setTring_thm (c : Chip) (g q : Nat) (r : Ring) : (c.setTring g q r).thm = c.thm := rfl
@[simp] theorem Chip.setTring_rcu (c : Chip) (g q : Nat) (r : Ring) : (c.setTring g q r).rcu = c.rcu := rfl
@[simp] theorem Chip.setTring_free (c : Chip) (g q : Nat) (r : Ring) : (c.setTring g q r).free = c.free := rfl

/-! `Chip.updLink`. -/

@[simp] theorem Chip.updLink_regs (c : Chip) (l : Nat) (g : Link → Link) : (c.updLink l g).regs = c.regs := rfl
@[simp] theorem Chip.updLink_time (c : Chip) (l : Nat) (g : Link → Link) : (c.updLink l g).time = c.time := rfl
@[simp] theorem Chip.updLink_obs (c : Chip) (l : Nat) (g : Link → Link) : (c.updLink l g).obs = c.obs := rfl
@[simp] theorem Chip.updLink_resp (c : Chip) (l : Nat) (g : Link → Link) : (c.updLink l g).resp = c.resp := rfl
@[simp] theorem Chip.updLink_buf (c : Chip) (l : Nat) (g : Link → Link) : (c.updLink l g).buf = c.buf := rfl
@[simp] theorem Chip.updLink_dram (c : Chip) (l : Nat) (g : Link → Link) : (c.updLink l g).dram = c.dram := rfl
@[simp] theorem Chip.updLink_fn (c : Chip) (l : Nat) (g : Link → Link) : (c.updLink l g).fn = c.fn := rfl
@[simp] theorem Chip.updLink_kerf (c : Chip) (l : Nat) (g : Link → Link) : (c.updLink l g).kerf = c.kerf := rfl
@[simp] theorem Chip.updLink_cal (c : Chip) (l : Nat) (g : Link → Link) : (c.updLink l g).cal = c.cal := rfl
@[simp] theorem Chip.updLink_map (c : Chip) (l : Nat) (g : Link → Link) : (c.updLink l g).map = c.map := rfl
@[simp] theorem Chip.updLink_flash (c : Chip) (l : Nat) (g : Link → Link) : (c.updLink l g).flash = c.flash := rfl
@[simp] theorem Chip.updLink_tf (c : Chip) (l : Nat) (g : Link → Link) : (c.updLink l g).tf = c.tf := rfl
@[simp] theorem Chip.updLink_key (c : Chip) (l : Nat) (g : Link → Link) : (c.updLink l g).key = c.key := rfl
@[simp] theorem Chip.updLink_sealer (c : Chip) (l : Nat) (g : Link → Link) : (c.updLink l g).sealer = c.sealer := rfl
@[simp] theorem Chip.updLink_boom (c : Chip) (l : Nat) (g : Link → Link) : (c.updLink l g).boom = c.boom := rfl
@[simp] theorem Chip.updLink_pmu (c : Chip) (l : Nat) (g : Link → Link) : (c.updLink l g).pmu = c.pmu := rfl
@[simp] theorem Chip.updLink_thm (c : Chip) (l : Nat) (g : Link → Link) : (c.updLink l g).thm = c.thm := rfl
@[simp] theorem Chip.updLink_rcu (c : Chip) (l : Nat) (g : Link → Link) : (c.updLink l g).rcu = c.rcu := rfl
@[simp] theorem Chip.updLink_free (c : Chip) (l : Nat) (g : Link → Link) : (c.updLink l g).free = c.free := rfl

/-! `Chip.setAdc`. -/

@[simp] theorem Chip.setAdc_regs (c : Chip) (i : Nat) (x : Adc) : (c.setAdc i x).regs = c.regs := rfl
@[simp] theorem Chip.setAdc_time (c : Chip) (i : Nat) (x : Adc) : (c.setAdc i x).time = c.time := rfl
@[simp] theorem Chip.setAdc_obs (c : Chip) (i : Nat) (x : Adc) : (c.setAdc i x).obs = c.obs := rfl
@[simp] theorem Chip.setAdc_resp (c : Chip) (i : Nat) (x : Adc) : (c.setAdc i x).resp = c.resp := rfl
@[simp] theorem Chip.setAdc_buf (c : Chip) (i : Nat) (x : Adc) : (c.setAdc i x).buf = c.buf := rfl
@[simp] theorem Chip.setAdc_dram (c : Chip) (i : Nat) (x : Adc) : (c.setAdc i x).dram = c.dram := rfl
@[simp] theorem Chip.setAdc_fn (c : Chip) (i : Nat) (x : Adc) : (c.setAdc i x).fn = c.fn := rfl
@[simp] theorem Chip.setAdc_host (c : Chip) (i : Nat) (x : Adc) : (c.setAdc i x).host = c.host := rfl
@[simp] theorem Chip.setAdc_kerf (c : Chip) (i : Nat) (x : Adc) : (c.setAdc i x).kerf = c.kerf := rfl
@[simp] theorem Chip.setAdc_cal (c : Chip) (i : Nat) (x : Adc) : (c.setAdc i x).cal = c.cal := rfl
@[simp] theorem Chip.setAdc_map (c : Chip) (i : Nat) (x : Adc) : (c.setAdc i x).map = c.map := rfl
@[simp] theorem Chip.setAdc_flash (c : Chip) (i : Nat) (x : Adc) : (c.setAdc i x).flash = c.flash := rfl
@[simp] theorem Chip.setAdc_tf (c : Chip) (i : Nat) (x : Adc) : (c.setAdc i x).tf = c.tf := rfl
@[simp] theorem Chip.setAdc_key (c : Chip) (i : Nat) (x : Adc) : (c.setAdc i x).key = c.key := rfl
@[simp] theorem Chip.setAdc_sealer (c : Chip) (i : Nat) (x : Adc) : (c.setAdc i x).sealer = c.sealer := rfl
@[simp] theorem Chip.setAdc_boom (c : Chip) (i : Nat) (x : Adc) : (c.setAdc i x).boom = c.boom := rfl
@[simp] theorem Chip.setAdc_pmu (c : Chip) (i : Nat) (x : Adc) : (c.setAdc i x).pmu = c.pmu := rfl
@[simp] theorem Chip.setAdc_rcu (c : Chip) (i : Nat) (x : Adc) : (c.setAdc i x).rcu = c.rcu := rfl
@[simp] theorem Chip.setAdc_free (c : Chip) (i : Nat) (x : Adc) : (c.setAdc i x).free = c.free := rfl

/-! `Chip.setWarden`. -/

@[simp] theorem Chip.setWarden_regs (c : Chip) (w : Nat) (x : WardenCore) : (c.setWarden w x).regs = c.regs := rfl
@[simp] theorem Chip.setWarden_time (c : Chip) (w : Nat) (x : WardenCore) : (c.setWarden w x).time = c.time := rfl
@[simp] theorem Chip.setWarden_obs (c : Chip) (w : Nat) (x : WardenCore) : (c.setWarden w x).obs = c.obs := rfl
@[simp] theorem Chip.setWarden_resp (c : Chip) (w : Nat) (x : WardenCore) : (c.setWarden w x).resp = c.resp := rfl
@[simp] theorem Chip.setWarden_buf (c : Chip) (w : Nat) (x : WardenCore) : (c.setWarden w x).buf = c.buf := rfl
@[simp] theorem Chip.setWarden_dram (c : Chip) (w : Nat) (x : WardenCore) : (c.setWarden w x).dram = c.dram := rfl
@[simp] theorem Chip.setWarden_fn (c : Chip) (w : Nat) (x : WardenCore) : (c.setWarden w x).fn = c.fn := rfl
@[simp] theorem Chip.setWarden_host (c : Chip) (w : Nat) (x : WardenCore) : (c.setWarden w x).host = c.host := rfl
@[simp] theorem Chip.setWarden_cal (c : Chip) (w : Nat) (x : WardenCore) : (c.setWarden w x).cal = c.cal := rfl
@[simp] theorem Chip.setWarden_map (c : Chip) (w : Nat) (x : WardenCore) : (c.setWarden w x).map = c.map := rfl
@[simp] theorem Chip.setWarden_flash (c : Chip) (w : Nat) (x : WardenCore) : (c.setWarden w x).flash = c.flash := rfl
@[simp] theorem Chip.setWarden_tf (c : Chip) (w : Nat) (x : WardenCore) : (c.setWarden w x).tf = c.tf := rfl
@[simp] theorem Chip.setWarden_key (c : Chip) (w : Nat) (x : WardenCore) : (c.setWarden w x).key = c.key := rfl
@[simp] theorem Chip.setWarden_sealer (c : Chip) (w : Nat) (x : WardenCore) : (c.setWarden w x).sealer = c.sealer := rfl
@[simp] theorem Chip.setWarden_boom (c : Chip) (w : Nat) (x : WardenCore) : (c.setWarden w x).boom = c.boom := rfl
@[simp] theorem Chip.setWarden_pmu (c : Chip) (w : Nat) (x : WardenCore) : (c.setWarden w x).pmu = c.pmu := rfl
@[simp] theorem Chip.setWarden_thm (c : Chip) (w : Nat) (x : WardenCore) : (c.setWarden w x).thm = c.thm := rfl
@[simp] theorem Chip.setWarden_rcu (c : Chip) (w : Nat) (x : WardenCore) : (c.setWarden w x).rcu = c.rcu := rfl
@[simp] theorem Chip.setWarden_free (c : Chip) (w : Nat) (x : WardenCore) : (c.setWarden w x).free = c.free := rfl

/-! `Chip.updPair`. -/

@[simp] theorem Chip.updPair_regs (c : Chip) (p : Nat) (g : Pair → Pair) : (c.updPair p g).regs = c.regs := rfl
@[simp] theorem Chip.updPair_time (c : Chip) (p : Nat) (g : Pair → Pair) : (c.updPair p g).time = c.time := rfl
@[simp] theorem Chip.updPair_obs (c : Chip) (p : Nat) (g : Pair → Pair) : (c.updPair p g).obs = c.obs := rfl
@[simp] theorem Chip.updPair_resp (c : Chip) (p : Nat) (g : Pair → Pair) : (c.updPair p g).resp = c.resp := rfl
@[simp] theorem Chip.updPair_buf (c : Chip) (p : Nat) (g : Pair → Pair) : (c.updPair p g).buf = c.buf := rfl
@[simp] theorem Chip.updPair_dram (c : Chip) (p : Nat) (g : Pair → Pair) : (c.updPair p g).dram = c.dram := rfl
@[simp] theorem Chip.updPair_fn (c : Chip) (p : Nat) (g : Pair → Pair) : (c.updPair p g).fn = c.fn := rfl
@[simp] theorem Chip.updPair_host (c : Chip) (p : Nat) (g : Pair → Pair) : (c.updPair p g).host = c.host := rfl
@[simp] theorem Chip.updPair_cal (c : Chip) (p : Nat) (g : Pair → Pair) : (c.updPair p g).cal = c.cal := rfl
@[simp] theorem Chip.updPair_map (c : Chip) (p : Nat) (g : Pair → Pair) : (c.updPair p g).map = c.map := rfl
@[simp] theorem Chip.updPair_flash (c : Chip) (p : Nat) (g : Pair → Pair) : (c.updPair p g).flash = c.flash := rfl
@[simp] theorem Chip.updPair_tf (c : Chip) (p : Nat) (g : Pair → Pair) : (c.updPair p g).tf = c.tf := rfl
@[simp] theorem Chip.updPair_key (c : Chip) (p : Nat) (g : Pair → Pair) : (c.updPair p g).key = c.key := rfl
@[simp] theorem Chip.updPair_sealer (c : Chip) (p : Nat) (g : Pair → Pair) : (c.updPair p g).sealer = c.sealer := rfl
@[simp] theorem Chip.updPair_boom (c : Chip) (p : Nat) (g : Pair → Pair) : (c.updPair p g).boom = c.boom := rfl
@[simp] theorem Chip.updPair_pmu (c : Chip) (p : Nat) (g : Pair → Pair) : (c.updPair p g).pmu = c.pmu := rfl
@[simp] theorem Chip.updPair_thm (c : Chip) (p : Nat) (g : Pair → Pair) : (c.updPair p g).thm = c.thm := rfl
@[simp] theorem Chip.updPair_rcu (c : Chip) (p : Nat) (g : Pair → Pair) : (c.updPair p g).rcu = c.rcu := rfl
@[simp] theorem Chip.updPair_free (c : Chip) (p : Nat) (g : Pair → Pair) : (c.updPair p g).free = c.free := rfl

/-! `Chip.updItem`. -/

@[simp] theorem Chip.updItem_regs (c : Chip) (id : Nat) (g : Item → Item) : (c.updItem id g).regs = c.regs := rfl
@[simp] theorem Chip.updItem_time (c : Chip) (id : Nat) (g : Item → Item) : (c.updItem id g).time = c.time := rfl
@[simp] theorem Chip.updItem_obs (c : Chip) (id : Nat) (g : Item → Item) : (c.updItem id g).obs = c.obs := rfl
@[simp] theorem Chip.updItem_resp (c : Chip) (id : Nat) (g : Item → Item) : (c.updItem id g).resp = c.resp := rfl
@[simp] theorem Chip.updItem_buf (c : Chip) (id : Nat) (g : Item → Item) : (c.updItem id g).buf = c.buf := rfl
@[simp] theorem Chip.updItem_dram (c : Chip) (id : Nat) (g : Item → Item) : (c.updItem id g).dram = c.dram := rfl
@[simp] theorem Chip.updItem_fn (c : Chip) (id : Nat) (g : Item → Item) : (c.updItem id g).fn = c.fn := rfl
@[simp] theorem Chip.updItem_kerf (c : Chip) (id : Nat) (g : Item → Item) : (c.updItem id g).kerf = c.kerf := rfl
@[simp] theorem Chip.updItem_cal (c : Chip) (id : Nat) (g : Item → Item) : (c.updItem id g).cal = c.cal := rfl
@[simp] theorem Chip.updItem_map (c : Chip) (id : Nat) (g : Item → Item) : (c.updItem id g).map = c.map := rfl
@[simp] theorem Chip.updItem_flash (c : Chip) (id : Nat) (g : Item → Item) : (c.updItem id g).flash = c.flash := rfl
@[simp] theorem Chip.updItem_tf (c : Chip) (id : Nat) (g : Item → Item) : (c.updItem id g).tf = c.tf := rfl
@[simp] theorem Chip.updItem_key (c : Chip) (id : Nat) (g : Item → Item) : (c.updItem id g).key = c.key := rfl
@[simp] theorem Chip.updItem_sealer (c : Chip) (id : Nat) (g : Item → Item) : (c.updItem id g).sealer = c.sealer := rfl
@[simp] theorem Chip.updItem_boom (c : Chip) (id : Nat) (g : Item → Item) : (c.updItem id g).boom = c.boom := rfl
@[simp] theorem Chip.updItem_pmu (c : Chip) (id : Nat) (g : Item → Item) : (c.updItem id g).pmu = c.pmu := rfl
@[simp] theorem Chip.updItem_thm (c : Chip) (id : Nat) (g : Item → Item) : (c.updItem id g).thm = c.thm := rfl
@[simp] theorem Chip.updItem_rcu (c : Chip) (id : Nat) (g : Item → Item) : (c.updItem id g).rcu = c.rcu := rfl
@[simp] theorem Chip.updItem_free (c : Chip) (id : Nat) (g : Item → Item) : (c.updItem id g).free = c.free := rfl

/-! `Chip.updCord`. -/

@[simp] theorem Chip.updCord_regs (c : Chip) (i : Nat) (g : Cord → Cord) : (c.updCord i g).regs = c.regs := rfl
@[simp] theorem Chip.updCord_time (c : Chip) (i : Nat) (g : Cord → Cord) : (c.updCord i g).time = c.time := rfl
@[simp] theorem Chip.updCord_obs (c : Chip) (i : Nat) (g : Cord → Cord) : (c.updCord i g).obs = c.obs := rfl
@[simp] theorem Chip.updCord_resp (c : Chip) (i : Nat) (g : Cord → Cord) : (c.updCord i g).resp = c.resp := rfl
@[simp] theorem Chip.updCord_buf (c : Chip) (i : Nat) (g : Cord → Cord) : (c.updCord i g).buf = c.buf := rfl
@[simp] theorem Chip.updCord_dram (c : Chip) (i : Nat) (g : Cord → Cord) : (c.updCord i g).dram = c.dram := rfl
@[simp] theorem Chip.updCord_fn (c : Chip) (i : Nat) (g : Cord → Cord) : (c.updCord i g).fn = c.fn := rfl
@[simp] theorem Chip.updCord_host (c : Chip) (i : Nat) (g : Cord → Cord) : (c.updCord i g).host = c.host := rfl
@[simp] theorem Chip.updCord_kerf (c : Chip) (i : Nat) (g : Cord → Cord) : (c.updCord i g).kerf = c.kerf := rfl
@[simp] theorem Chip.updCord_cal (c : Chip) (i : Nat) (g : Cord → Cord) : (c.updCord i g).cal = c.cal := rfl
@[simp] theorem Chip.updCord_flash (c : Chip) (i : Nat) (g : Cord → Cord) : (c.updCord i g).flash = c.flash := rfl
@[simp] theorem Chip.updCord_tf (c : Chip) (i : Nat) (g : Cord → Cord) : (c.updCord i g).tf = c.tf := rfl
@[simp] theorem Chip.updCord_key (c : Chip) (i : Nat) (g : Cord → Cord) : (c.updCord i g).key = c.key := rfl
@[simp] theorem Chip.updCord_sealer (c : Chip) (i : Nat) (g : Cord → Cord) : (c.updCord i g).sealer = c.sealer := rfl
@[simp] theorem Chip.updCord_boom (c : Chip) (i : Nat) (g : Cord → Cord) : (c.updCord i g).boom = c.boom := rfl
@[simp] theorem Chip.updCord_pmu (c : Chip) (i : Nat) (g : Cord → Cord) : (c.updCord i g).pmu = c.pmu := rfl
@[simp] theorem Chip.updCord_thm (c : Chip) (i : Nat) (g : Cord → Cord) : (c.updCord i g).thm = c.thm := rfl
@[simp] theorem Chip.updCord_rcu (c : Chip) (i : Nat) (g : Cord → Cord) : (c.updCord i g).rcu = c.rcu := rfl
@[simp] theorem Chip.updCord_free (c : Chip) (i : Nat) (g : Cord → Cord) : (c.updCord i g).free = c.free := rfl

/-! `Chip.setFlash`. -/

@[simp] theorem Chip.setFlash_regs (c : Chip) (l : Loc) (x : Stored) : (c.setFlash l x).regs = c.regs := rfl
@[simp] theorem Chip.setFlash_time (c : Chip) (l : Loc) (x : Stored) : (c.setFlash l x).time = c.time := rfl
@[simp] theorem Chip.setFlash_obs (c : Chip) (l : Loc) (x : Stored) : (c.setFlash l x).obs = c.obs := rfl
@[simp] theorem Chip.setFlash_resp (c : Chip) (l : Loc) (x : Stored) : (c.setFlash l x).resp = c.resp := rfl
@[simp] theorem Chip.setFlash_buf (c : Chip) (l : Loc) (x : Stored) : (c.setFlash l x).buf = c.buf := rfl
@[simp] theorem Chip.setFlash_dram (c : Chip) (l : Loc) (x : Stored) : (c.setFlash l x).dram = c.dram := rfl
@[simp] theorem Chip.setFlash_fn (c : Chip) (l : Loc) (x : Stored) : (c.setFlash l x).fn = c.fn := rfl
@[simp] theorem Chip.setFlash_host (c : Chip) (l : Loc) (x : Stored) : (c.setFlash l x).host = c.host := rfl
@[simp] theorem Chip.setFlash_kerf (c : Chip) (l : Loc) (x : Stored) : (c.setFlash l x).kerf = c.kerf := rfl
@[simp] theorem Chip.setFlash_cal (c : Chip) (l : Loc) (x : Stored) : (c.setFlash l x).cal = c.cal := rfl
@[simp] theorem Chip.setFlash_flash (c : Chip) (l : Loc) (x : Stored) : (c.setFlash l x).flash = c.flash := rfl
@[simp] theorem Chip.setFlash_tf (c : Chip) (l : Loc) (x : Stored) : (c.setFlash l x).tf = c.tf := rfl
@[simp] theorem Chip.setFlash_key (c : Chip) (l : Loc) (x : Stored) : (c.setFlash l x).key = c.key := rfl
@[simp] theorem Chip.setFlash_sealer (c : Chip) (l : Loc) (x : Stored) : (c.setFlash l x).sealer = c.sealer := rfl
@[simp] theorem Chip.setFlash_boom (c : Chip) (l : Loc) (x : Stored) : (c.setFlash l x).boom = c.boom := rfl
@[simp] theorem Chip.setFlash_pmu (c : Chip) (l : Loc) (x : Stored) : (c.setFlash l x).pmu = c.pmu := rfl
@[simp] theorem Chip.setFlash_thm (c : Chip) (l : Loc) (x : Stored) : (c.setFlash l x).thm = c.thm := rfl
@[simp] theorem Chip.setFlash_rcu (c : Chip) (l : Loc) (x : Stored) : (c.setFlash l x).rcu = c.rcu := rfl
@[simp] theorem Chip.setFlash_free (c : Chip) (l : Loc) (x : Stored) : (c.setFlash l x).free = c.free := rfl

end Sys2Proof.Machine
end

