-- ==== Sys2Proof/Laws/Tab.lean ====
section
/-! SUPPORT. The laws of the sparse tables and the memories: what a read finds after a write, and that every operation keeps the canonical form. -/

namespace Sys2Proof.Machine

/-! Reads after writes. They hold of every table, in canonical form or not. -/

theorem Tab.get_insert {α : Type} (d : Nat → α) (t : Tab α) (k j : Nat) (v : α) :
    Tab.get d (Tab.insert t k v) j = if j = k then v else Tab.get d t j := by
  induction t with
  | nil => simp only [Tab.insert, Tab.get, eq_comm]
  | cons p t ih =>
    obtain ⟨a, w⟩ := p
    simp only [Tab.insert]
    split_ifs with h1 h2 h3 h4 <;> simp only [Tab.get, ih] <;> split_ifs <;> first | rfl | omega

theorem Tab.get_erase {α : Type} (d : Nat → α) (t : Tab α) (k j : Nat) :
    Tab.get d (Tab.erase t k) j = if j = k then d j else Tab.get d t j := by
  induction t with
  | nil => simp [Tab.erase, Tab.get]
  | cons p t ih =>
    obtain ⟨a, w⟩ := p
    simp only [Tab.erase] at ih ⊢
    by_cases h : a = k
    · subst h
      simp only [List.filter_cons, bne_self_eq_false, Bool.false_eq_true, if_false, ih, Tab.get]
      split_ifs <;> first | rfl | omega
    · simp only [List.filter_cons, bne_iff_ne, ne_eq, h, not_false_eq_true, if_true, Tab.get, ih]
      split_ifs <;> first | rfl | omega

/-- What a table reads as after a write. -/
theorem Tab.get_set {α : Type} [DecidableEq α] (d : Nat → α) (t : Tab α) (k j : Nat) (v : α) :
    Tab.get d (Tab.set d t k v) j = if j = k then v else Tab.get d t j := by
  unfold Tab.set
  split_ifs with h1 h2
  · rw [Tab.get_erase, if_pos h2, h1, h2]
  · rw [Tab.get_erase, if_neg h2]
  all_goals rw [Tab.get_insert]; simp [*]

@[simp] theorem Tab.get_set_self {α : Type} [DecidableEq α] (d : Nat → α) (t : Tab α) (k : Nat) (v : α) :
    Tab.get d (Tab.set d t k v) k = v := by simp [Tab.get_set]

theorem Tab.get_set_ne {α : Type} [DecidableEq α] (d : Nat → α) (t : Tab α) {k j : Nat} (h : j ≠ k) (v : α) :
    Tab.get d (Tab.set d t k v) j = Tab.get d t j := by simp [Tab.get_set, h]

/-! The canonical form. -/

theorem Tab.risingFrom_mono {α : Type} {lo lo' : Nat} {t : Tab α} (h : Tab.risingFrom lo t = true) (hl : lo' ≤ lo) : Tab.risingFrom lo' t = true := by
  cases t with
  | nil => rfl
  | cons p t =>
    simp only [Tab.risingFrom, Bool.and_eq_true, decide_eq_true_eq] at h ⊢
    exact ⟨by omega, h.2⟩

theorem Tab.risingFrom_filter {α : Type} (q : Nat × α → Bool) {lo : Nat} {t : Tab α} (h : Tab.risingFrom lo t = true) :
    Tab.risingFrom lo (t.filter q) = true := by
  induction t generalizing lo with
  | nil => rfl
  | cons p t ih =>
    simp only [Tab.risingFrom, Bool.and_eq_true, decide_eq_true_eq] at h
    by_cases hq : q p = true
    · simp only [List.filter_cons, hq, if_true, Tab.risingFrom, Bool.and_eq_true, decide_eq_true_eq]
      exact ⟨h.1, ih h.2⟩
    · simp only [List.filter_cons, hq]
      exact Tab.risingFrom_mono (ih h.2) (by omega)

theorem Tab.risingFrom_insert {α : Type} {lo k : Nat} {t : Tab α} (v : α) (h : Tab.risingFrom lo t = true) (hk : lo ≤ k) :
    Tab.risingFrom lo (Tab.insert t k v) = true := by
  induction t generalizing lo with
  | nil => simp [Tab.insert, Tab.risingFrom, hk]
  | cons p t ih =>
    obtain ⟨a, w⟩ := p
    simp only [Tab.risingFrom, Bool.and_eq_true, decide_eq_true_eq] at h
    simp only [Tab.insert]
    split_ifs with h1 h2
    · subst h1
      simpa [Tab.risingFrom, hk] using h.2
    · simp only [Tab.risingFrom, Bool.and_eq_true, decide_eq_true_eq]
      exact ⟨hk, by omega, h.2⟩
    · simp only [Tab.risingFrom, Bool.and_eq_true, decide_eq_true_eq]
      exact ⟨h.1, ih h.2 (by omega)⟩

theorem Tab.mem_insert {α : Type} {t : Tab α} {k : Nat} {v : α} {p : Nat × α} (h : p ∈ Tab.insert t k v) : p = (k, v) ∨ p ∈ t := by
  induction t with
  | nil => simpa [Tab.insert] using h
  | cons q t ih =>
    obtain ⟨a, w⟩ := q
    simp only [Tab.insert] at h
    split_ifs at h with h1 h2
    · rcases List.mem_cons.mp h with h | h
      · exact .inl h
      · exact .inr (List.mem_cons_of_mem _ h)
    · rcases List.mem_cons.mp h with h | h
      · exact .inl h
      · exact .inr h
    · rcases List.mem_cons.mp h with h | h
      · exact .inr (h ▸ List.mem_cons_self)
      · rcases ih h with h | h
        · exact .inl h
        · exact .inr (List.mem_cons_of_mem _ h)

theorem Tab.wf_filter {α : Type} [DecidableEq α] {d : Nat → α} (q : Nat × α → Bool) {t : Tab α} (h : Tab.wf d t = true) :
    Tab.wf d (t.filter q) = true := by
  simp only [Tab.wf, Bool.and_eq_true, List.all_eq_true] at h ⊢
  exact ⟨Tab.risingFrom_filter q h.1, fun p hp => h.2 p (List.mem_filter.mp hp).1⟩

/-- A write keeps the canonical form. -/
theorem Tab.wf_set {α : Type} [DecidableEq α] {d : Nat → α} {t : Tab α} (k : Nat) (v : α) (h : Tab.wf d t = true) :
    Tab.wf d (Tab.set d t k v) = true := by
  unfold Tab.set
  split_ifs with hv
  · exact Tab.wf_filter _ h
  · simp only [Tab.wf, Bool.and_eq_true, List.all_eq_true] at h ⊢
    refine ⟨Tab.risingFrom_insert v h.1 (Nat.zero_le k), fun p hp => ?_⟩
    rcases Tab.mem_insert hp with hp | hp
    · subst hp; simp [hv]
    · exact h.2 p hp

theorem Tab.get_nil {α : Type} (d : Nat → α) (k : Nat) : Tab.get d [] k = d k := rfl

/-! Memories (log entry 2). -/

theorem Mem.read_write (m : Mem) (a b : Nat) (v : Byte) : Mem.read (Mem.write m a v) b = if b = a then v else Mem.read m b :=
  Tab.get_set _ m a b v

theorem Mem.wf_write {m : Mem} (a : Nat) (v : Byte) (h : Mem.wf m = true) : Mem.wf (Mem.write m a v) = true := Tab.wf_set a v h

theorem Mem.read_writeBytes (m : Mem) (a b : Nat) (bs : List Byte) :
    Mem.read (Mem.writeBytes m a bs) b = if a ≤ b ∧ b < a + bs.length then bs.getD (b - a) 0 else Mem.read m b := by
  induction bs generalizing m a with
  | nil =>
    have : ¬ (a ≤ b ∧ b < a) := by omega
    simp [Mem.writeBytes, this]
  | cons v bs ih =>
    simp only [Mem.writeBytes, ih, Mem.read_write, List.length_cons]
    by_cases h1 : a + 1 ≤ b ∧ b < a + 1 + bs.length
    · have h2 : a ≤ b ∧ b < a + (bs.length + 1) := by omega
      have h3 : b - a = (b - (a + 1)) + 1 := by omega
      simp [h1, h2, h3]
    · rw [if_neg h1]
      by_cases h4 : b = a
      · subst h4; simp
      · have h2 : ¬ (a ≤ b ∧ b < a + (bs.length + 1)) := by omega
        rw [if_neg h2, if_neg h4]

theorem Mem.wf_writeBytes {m : Mem} (a : Nat) (bs : List Byte) (h : Mem.wf m = true) : Mem.wf (Mem.writeBytes m a bs) = true := by
  induction bs generalizing m a with
  | nil => exact h
  | cons v bs ih => exact ih (a + 1) (Mem.wf_write a v h)

theorem Mem.wf_writeLe {m : Mem} (a n v : Nat) (h : Mem.wf m = true) : Mem.wf (Mem.writeLe m a n v) = true := Mem.wf_writeBytes a _ h

theorem Mem.wf_zeroRange {m : Mem} (lo hi : Nat) (h : Mem.wf m = true) : Mem.wf (Mem.zeroRange m lo hi) = true := Tab.wf_filter _ h

theorem Mem.wf_nil : Mem.wf [] = true := rfl

theorem Mem.read_nil (a : Nat) : Mem.read [] a = 0 := rfl

theorem Mem.read_zeroRange (m : Mem) (lo hi a : Nat) : Mem.read (Mem.zeroRange m lo hi) a = if lo ≤ a ∧ a < hi then 0 else Mem.read m a := by
  induction m with
  | nil => simp [Mem.zeroRange, Mem.read_nil]
  | cons p m ih =>
    obtain ⟨k, v⟩ := p
    simp only [Mem.read, Mem.zeroRange] at ih ⊢
    by_cases h : lo ≤ k ∧ k < hi
    · have : (!(decide (lo ≤ k) && decide (k < hi))) = false := by simp [h]
      simp only [List.filter_cons, this, Bool.false_eq_true, if_false, ih, Tab.get]
      split_ifs <;> first | rfl | omega
    · have : (!(decide (lo ≤ k) && decide (k < hi))) = true := by
        simp only [Bool.not_eq_true', Bool.and_eq_false_iff, decide_eq_false_iff_not]; omega
      simp only [List.filter_cons, this, if_true, ih, Tab.get]
      split_ifs <;> first | rfl | omega

theorem Mem.length_readBytes (m : Mem) (a n : Nat) : (Mem.readBytes m a n).length = n := by
  induction n generalizing a with
  | zero => rfl
  | succ n ih => simp [Mem.readBytes, ih]

theorem leBytes_length (n v : Nat) : (leBytes n v).length = n := by
  induction n generalizing v with
  | zero => rfl
  | succ n ih => simp [leBytes, ih]

theorem leNat_leBytes (n v : Nat) : leNat (leBytes n v) = v % 256 ^ n := by
  induction n generalizing v with
  | zero => simp [leBytes, leNat, Nat.mod_one]
  | succ n ih =>
    have h := Nat.mod_mul (x := v) (a := 256) (b := 256 ^ n)
    simp only [leBytes, leNat, ih, BitVec.toNat_ofNat, Nat.pow_succ']
    exact h.symm

/-! Bit fields. -/

theorem bitsOf_lt (v hi lo : Nat) : bitsOf v hi lo < 2 ^ (hi + 1 - lo) := Nat.mod_lt _ (by positivity)

end Sys2Proof.Machine
end

