-- ==== Sys2Proof/Laws/Ops.lean ====
section
/-! SUPPORT. What the shared operations do: what a register, a die, a port, a slot or another entry reads as after a write, what a raise leaves alone. -/

namespace Sys2Proof.Machine

/-- A command that only acts on the controller. -/
theorem onChip_eq (f : Chip → Chip) (s : State) : onChip f s = .next { s with chip := f s.chip } := rfl

/-! Register words. -/

theorem Chip.reg_setReg (c : Chip) (a b v : Nat) : (c.setReg a v).reg b = if b = a then v % 2 ^ 32 else c.reg b := by
  unfold Chip.reg Chip.setReg
  rw [Tab.get_set]
  split_ifs <;> simp

@[simp] theorem Chip.reg_setReg_self (c : Chip) (a v : Nat) : (c.setReg a v).reg a = v % 2 ^ 32 := by simp [Chip.reg_setReg]

theorem Chip.reg_setReg_ne (c : Chip) {a b : Nat} (h : b ≠ a) (v : Nat) : (c.setReg a v).reg b = c.reg b := by simp [Chip.reg_setReg, h]

/-- A register word has 32 bits. -/
theorem Chip.reg_lt (c : Chip) (a : Nat) : c.reg a < 2 ^ 32 := (Tab.get resetOf c.regs.cur a).isLt

theorem Chip.stgReg_setStg (c : Chip) (a b v : Nat) : (c.setStg a v).stgReg b = if b = a then v % 2 ^ 32 else c.stgReg b := by
  unfold Chip.stgReg Chip.setStg
  rw [Tab.get_set]
  split_ifs <;> simp

@[simp] theorem Chip.reg_setStg (c : Chip) (a b v : Nat) : (c.setStg a v).reg b = c.reg b := rfl

@[simp] theorem Chip.stgReg_setReg (c : Chip) (a b v : Nat) : (c.setReg a v).stgReg b = c.stgReg b := rfl

theorem Chip.reg_setFld_ne (c : Chip) {a b : Nat} (h : b ≠ a) (hi lo x : Nat) : (c.setFld a hi lo x).reg b = c.reg b := Chip.reg_setReg_ne c h _

theorem Chip.reg_setBit_ne (c : Chip) {a b : Nat} (h : b ≠ a) (i : Nat) (x : Bool) : (c.setBit a i x).reg b = c.reg b := Chip.reg_setFld_ne c h _ _ _

theorem Chip.reg_orReg_ne (c : Chip) {a b : Nat} (h : b ≠ a) (m : Nat) : (c.orReg a m).reg b = c.reg b := Chip.reg_setReg_ne c h _

theorem Chip.reg_bump_ne (c : Chip) {a b : Nat} (h : b ≠ a) (hi lo n : Nat) : (c.bump a hi lo n).reg b = c.reg b := Chip.reg_setFld_ne c h _ _ _

/-- After reset every word is its reset word. -/
theorem Chip.reset_reg (a : Nat) : Chip.reset.reg a = (resetOf a).toNat := rfl

/-! Entries of the tables. -/

theorem Chip.die_setDie (c : Chip) (d e : Nat) (x : Die) : (c.setDie d x).die e = if e = d then x else c.die e := by
  simp only [Chip.die, Chip.setDie, Tab.get_set]

theorem Chip.kcore_setKcore (c : Chip) (k j : Nat) (x : DataCore) : (c.setKcore k x).kcore j = if j = k then x else c.kcore j := by
  simp only [Chip.kcore, Chip.setKcore, Tab.get_set]

theorem Chip.warden_setWarden (c : Chip) (w v : Nat) (x : WardenCore) : (c.setWarden w x).warden v = if v = w then x else c.warden v := by
  simp only [Chip.warden, Chip.setWarden, Tab.get_set]

theorem Chip.slot_setSlot (c : Chip) (i j : Nat) (x : KeySlot) : (c.setSlot i x).slot j = if j = i then x else c.slot j := by
  simp only [Chip.slot, Chip.setSlot, Tab.get_set]

theorem Chip.port_setPort (c : Chip) (n m : Nat) (p : Port) : (c.setPort n p).port m = if m = n then p else c.port m := by
  simp only [Chip.port, Chip.setPort, Tab.get_set]

theorem Chip.func_setFn (c : Chip) (f g : Nat) (x : Fn) : (c.setFn f x).func g = if g = f then x else c.func g := by
  simp only [Chip.func, Chip.setFn, Tab.get_set]

theorem Chip.ns_setNs (c : Chip) (n m : Nat) (x : Option Ns) : (c.setNs n x).ns m = if m = n then x else c.ns m := by
  simp only [Chip.ns, Chip.setNs, Tab.get_set]

theorem Chip.contract_setContract (c : Chip) (n m : Nat) (x : Option Contract) : (c.setContract n x).contract m = if m = n then x else c.contract m := by
  simp only [Chip.contract, Chip.setContract, Tab.get_set]

theorem Chip.slotProg_setProg (c : Chip) (i j : Nat) (p : Option Program) : (c.setProg i p).slotProg j = if j = i then p else c.slotProg j := by
  simp only [Chip.slotProg, Chip.setProg, Tab.get_set]

theorem Chip.buffer_setBuffer (c : Chip) (h k : Nat) (b : Buf) : (c.setBuffer h b).buffer k = if k = h then b else c.buffer k := by
  simp only [Chip.buffer, Chip.setBuffer, Tab.get_set]

theorem Chip.blk_setBlk (c : Chip) (d b d' b' : Nat) (x : Blk) :
    (c.setBlk d b x).blk d' b' = if d' * 65536 + b' = d * 65536 + b then x else c.blk d' b' := by
  simp only [Chip.blk, Chip.setBlk, Tab.get_set]

theorem Chip.mslot_setMslot (c : Chip) (p q : Nat) (x : MapSlot) : (c.setMslot p x).mslot q = if q = p then x else c.mslot q := by
  simp only [Chip.mslot, Chip.setMslot, Tab.get_set]

theorem Chip.tring_setTring (c : Chip) (g q g' q' : Nat) (x : Ring) :
    (c.setTring g q x).tring g' q' = if g' * 4 + q' = g * 4 + q then x else c.tring g' q' := by
  simp only [Chip.tring, Chip.setTring, Tab.get_set]

theorem Chip.dec_setDec (c : Chip) (k j : Nat) (x : Dec) : (c.setDec k x).dec j = if j = k then x else c.dec j := by
  simp only [Chip.dec, Chip.setDec, Tab.get_set]

theorem Chip.subCh_setSubCh (c : Chip) (k j : Nat) (x : SubCh) : (c.setSubCh k x).subCh j = if j = k then x else c.subCh j := by
  simp only [Chip.subCh, Chip.setSubCh, Tab.get_set]

theorem Chip.node_setNode (c : Chip) (k j : Nat) (x : Int) :
    (c.setNode k x).node j = if j = k then x.bmod (2 ^ 32) else c.node j := by
  simp only [Chip.node, Chip.setNode, Tab.get_set]

/-! Events. -/

/-- A log entry changes the log, its head and the lost count. -/
theorem Chip.logEntry_frame (c : Chip) (e code fn a0 a1 : Nat) :
    ∃ o r, c.logEntry e code fn a0 a1 = { c with obs := o, regs := r } ∧ o.pend = c.obs.pend ∧ o.raises = c.obs.raises ∧ o.inService = c.obs.inService ∧
      (∀ a, a ≠ Reg.logFlStat → (c.logEntry e code fn a0 a1).reg a = c.reg a) := by
  unfold Chip.logEntry
  split
  · exact ⟨_, _, rfl, rfl, rfl, rfl, fun _ _ => rfl⟩
  · dsimp only
    split
    · exact ⟨_, _, rfl, rfl, rfl, rfl, fun _ _ => rfl⟩
    · exact ⟨_, _, rfl, rfl, rfl, rfl, fun a h => Chip.reg_bump_ne _ h _ _ _⟩

/-- A raise changes the events, the fault log and the lost count of the log, and takes a timestamp; every other field stays. -/
theorem Chip.raise_frame (c : Chip) (e code fn a0 a1 : Nat) :
    ∃ o r t n, c.raise e code fn a0 a1 = { c with obs := o, regs := r, time := t, free := n } ∧ t.tick = c.time.tick ∧ t.len = c.time.len ∧
      (∀ a, a ≠ Reg.logFlStat → (c.raise e code fn a0 a1).reg a = c.reg a) := by
  unfold Chip.raise
  by_cases h1 : (!eventListed e) = true
  · rw [if_pos h1]; exact ⟨_, _, _, _, rfl, rfl, rfl, fun _ _ => rfl⟩
  rw [if_neg h1]
  by_cases h2 : e = 300
  · rw [if_pos h2]; exact ⟨_, _, _, _, rfl, rfl, rfl, fun _ _ => rfl⟩
  rw [if_neg h2]
  by_cases h3 : c.logEnabled e = true
  · have hl := Chip.logEntry_frame { c with obs := { c.obs with
      pend := insertNat e c.obs.pend,
      raises := Tab.set (fun _ => 0) c.obs.raises e (satTo 65535 (Tab.get (fun _ => 0) c.obs.raises e + 1)) } } e code fn a0 a1
    dsimp only at hl ⊢
    rw [if_pos h3]
    obtain ⟨o, r, he, -, -, -, hr⟩ := hl
    rw [he] at hr ⊢
    exact ⟨o, r, _, _, rfl, rfl, rfl, fun a ha => hr a ha⟩
  · dsimp only
    rw [if_neg h3]
    exact ⟨_, _, _, _, rfl, rfl, rfl, fun _ _ => rfl⟩

/-- A free value: the number is below its bound, and only the model's own counter moves. -/
theorem Chip.pick_frame (c : Chip) (n : Nat) : (c.pick n).2 = { c with free := c.free + 1 } ∧ (0 < n → (c.pick n).1 < n) :=
  ⟨rfl, fun h => Nat.mod_lt _ h⟩

/-- A timestamp leaves the tick alone. -/
theorem Chip.pass_frame (c : Chip) : c.pass = { c with free := c.free + 1, time := { c.time with cyc := c.cycle } } := rfl

/-! Memories. -/

/-- The records of dirty pages touch DRAM alone, and keep its form. -/
theorem flushDlog_frame (s : State) : (flushDlog s).env = s.env ∧ (flushDlog s).fuse = s.fuse ∧ (flushDlog s).pending = s.pending ∧
    (flushDlog s).mem.near = s.mem.near ∧ (flushDlog s).mem.sram = s.mem.sram ∧ (flushDlog s).mem.nor = s.mem.nor ∧
    (s.chip.fn.dlogOut = [] → flushDlog s = s) := by
  refine ⟨rfl, rfl, rfl, rfl, rfl, rfl, fun h => ?_⟩
  unfold flushDlog
  simp only [h, List.foldl_nil]
  cases s with | mk pending env fuse mem chip =>
    obtain ⟨r, ti, o, rs, b, d, f, rest⟩ := chip
    cases mem; cases f
    dsimp only at h
    subst h
    rfl

end Sys2Proof.Machine
end

