-- ==== Sys2Proof/WellFormed.lean ====
section
/-! DEFINITION. Which commands are well formed: the operands that name a place of the package name one that exists in the largest part.

Values that the manual itself answers with a status code (a page number, a queue identifier, an opcode) are not checked here. -/

namespace Sys2Proof

/-- The command's operands name places of the package: accessors 0-8 (R30), dies (R11), channels and clusters (R9), regions, rings, ports, links,
DRAM sub-channels and banks, functions (R316), namespace indices and Kerf cores (R200). -/
def Instr.wf (i : Instr) : Bool :=
  match i with
  | .tickBoundary => true
  | .commitWrite acc _ => decide (acc.who ≤ 8)
  | .registerWrite acc _ _ => decide (acc.who ≤ 8)
  | .clearOnRead acc _ => decide (acc.who ≤ 8)
  | .reg64LowRead acc _ => decide (acc.who ≤ 8)
  | .reg64HighWrite acc _ _ => decide (acc.who ≤ 8)
  | .reg64LowWrite acc _ _ => decide (acc.who ≤ 8)
  | .busErrorAccess acc _ _ _ => decide (acc.who ≤ 8)
  | .absentUnitAccess acc _ _ => decide (acc.who ≤ 8)
  | .debugWindowAccess _ _ _ => true
  | .planCommit cycle => decide (cycle < 201)
  | .planAbandon => true
  | .shedStart => true
  | .shedEnd => true
  | .arrayReadEnd die => decide (die < 4096)
  | .suspendDone die => decide (die < 4096)
  | .resumeDone die => decide (die < 4096)
  | .lockEnd die => decide (die < 4096)
  | .statusPoll die _ => decide (die < 4096)
  | .collectorGrant => true
  | .completionCollected => true
  | .dieTimeout die => decide (die < 4096)
  | .readAccept _ => true
  | .dieBusyPost _ => true
  | .reconstructXor _ _ => true
  | .calAdmitTest _ _ _ _ _ => true
  | .calAdmitBind _ _ _ _ _ => true
  | .calAdmitRelease _ => true
  | .calFloorWrite acc _ => decide (acc.who ≤ 8)
  | .calNrgBudgetWrite acc _ => decide (acc.who ≤ 8)
  | .calMaintRead die _ _ _ _ => decide (die < 4096)
  | .calMaintErase die _ _ _ => decide (die < 4096)
  | .calMaintMaintenance die _ _ _ _ => decide (die < 4096)
  | .calDbgSelWrite acc _ => decide (acc.who ≤ 8)
  | .chStart n => decide (n < 128)
  | .bringupEnd n _ => decide (n < 128)
  | .bringupTimeout n => decide (n < 128)
  | .chFence n => decide (n < 128)
  | .codewordDecode _ _ _ => true
  | .rewriteQueuePop acc c => decide (acc.who ≤ 8) && decide (c < 32)
  | .decLaneFence c _ => decide (c < 32)
  | .firstSampleScan _ _ => true
  | .patrolRead _ _ _ => true
  | .groupPad _ => true
  | .pageLoss _ _ _ _ => true
  | .pageRebuildDone _ _ => true
  | .mapFetchDone _ => true
  | .mapPin _ => true
  | .mapUnpin _ => true
  | .gcMoveCommit nsx _ _ => decide (nsx < 1024)
  | .refreshMove _ _ _ => true
  | .bbtRead _ => true
  | .bbtAdd _ _ _ _ => true
  | .bbtRemove _ => true
  | .invocationDispatch c _ _ _ => decide (c < 48)
  | .invocationBudgetOverrun c => decide (c < 48)
  | .nop c _ => decide (c < 48)
  | .add c _ _ _ _ => decide (c < 48)
  | .sub c _ _ _ _ => decide (c < 48)
  | .mul c _ _ _ _ => decide (c < 48)
  | .and c _ _ _ _ => decide (c < 48)
  | .or c _ _ _ _ => decide (c < 48)
  | .xor c _ _ _ _ => decide (c < 48)
  | .shl c _ _ _ _ => decide (c < 48)
  | .shr c _ _ _ _ => decide (c < 48)
  | .sar c _ _ _ _ => decide (c < 48)
  | .minu c _ _ _ _ => decide (c < 48)
  | .maxu c _ _ _ _ => decide (c < 48)
  | .popc c _ _ _ => decide (c < 48)
  | .clz c _ _ _ => decide (c < 48)
  | .addi c _ _ _ _ => decide (c < 48)
  | .andi c _ _ _ _ => decide (c < 48)
  | .ori c _ _ _ _ => decide (c < 48)
  | .xori c _ _ _ _ => decide (c < 48)
  | .shli c _ _ _ _ => decide (c < 48)
  | .shri c _ _ _ _ => decide (c < 48)
  | .sari c _ _ _ _ => decide (c < 48)
  | .movi c _ _ _ => decide (c < 48)
  | .movk c _ _ _ _ => decide (c < 48)
  | .bext c _ _ _ _ _ => decide (c < 48)
  | .bins c _ _ _ _ _ => decide (c < 48)
  | .cmp c _ _ _ _ _ => decide (c < 48)
  | .cmpi c _ _ _ _ _ => decide (c < 48)
  | .pset c _ _ _ _ _ => decide (c < 48)
  | .ldb c _ _ _ _ => decide (c < 48)
  | .ldh c _ _ _ _ => decide (c < 48)
  | .ldw c _ _ _ _ => decide (c < 48)
  | .ldd c _ _ _ _ => decide (c < 48)
  | .stb c _ _ _ _ => decide (c < 48)
  | .sth c _ _ _ _ => decide (c < 48)
  | .stw c _ _ _ _ => decide (c < 48)
  | .std c _ _ _ _ => decide (c < 48)
  | .sadd c _ _ _ _ => decide (c < 48)
  | .emit c _ _ _ => decide (c < 48)
  | .fail c _ _ _ => decide (c < 48)
  | .undo c _ _ => decide (c < 48)
  | .br c _ _ => decide (c < 48)
  | .loop c _ _ _ => decide (c < 48)
  | .exit c _ => decide (c < 48)
  | .abort c _ _ => decide (c < 48)
  | .mfs c _ _ _ => decide (c < 48)
  | .clrv c _ => decide (c < 48)
  | .shuf c _ _ _ => decide (c < 48)
  | .sqz c _ _ _ => decide (c < 48)
  | .xts c _ _ _ => decide (c < 48)
  | .hash c _ _ => decide (c < 48)
  | .place c _ _ _ => decide (c < 48)
  | .tag c _ _ _ => decide (c < 48)
  | .jmp c _ _ => decide (c < 48)
  | .call c _ _ => decide (c < 48)
  | .jr c _ _ => decide (c < 48)
  | .mfc c _ _ _ => decide (c < 48)
  | .mtc c _ _ _ => decide (c < 48)
  | .wcall c _ _ => decide (c < 48)
  | .eret c _ => decide (c < 48)
  | .wfi c _ => decide (c < 48)
  | .fence c _ => decide (c < 48)
  | .cas c _ _ _ _ => decide (c < 48)
  | .interruptEntry c => decide (c < 48)
  | .krfLoad => true
  | .krfUnload _ => true
  | .slotDrainDone _ => true
  | .krfBind nsx _ _ => decide (nsx < 1024)
  | .krfUnbind nsx _ => decide (nsx < 1024)
  | .krfLookup nsx _ => decide (nsx < 1024)
  | .wpCommit c => decide (c < 8)
  | .wpCommitDone p => decide (p < 4)
  | .wardenCoreFail c _ => decide (c < 8)
  | .mbxPost c => decide (c < 8)
  | .mbxPop c => decide (c < 8)
  | .imageEnvelopeCheck _ => true
  | .tfLaneFence g _ => decide (g < 4)
  | .tqDescriptorFetch g => decide (g < 4)
  | .copy g q => decide (g < 4) && decide (q < 4)
  | .fill g q => decide (g < 4) && decide (q < 4)
  | .gather g q => decide (g < 4) && decide (q < 4)
  | .tqShuf g q => decide (g < 4) && decide (q < 4)
  | .sqzC g q lane => decide (g < 4) && decide (q < 4) && decide (lane < 4)
  | .sqzX g q lane => decide (g < 4) && decide (q < 4) && decide (lane < 4)
  | .xtsE g q => decide (g < 4) && decide (q < 4)
  | .xtsD g q => decide (g < 4) && decide (q < 4)
  | .gcmE g q => decide (g < 4) && decide (q < 4)
  | .gcmD g q => decide (g < 4) && decide (q < 4)
  | .tqHash g q => decide (g < 4) && decide (q < 4)
  | .tqResume g q => decide (g < 4) && decide (q < 4)
  | .hostLinkUp link _ _ => decide (link < 4)
  | .hostLinkDown link => decide (link < 4)
  | .doorbellWrite fn _ _ _ => decide (fn < 256)
  | .cmdFetch _ => true
  | .hostDmaFailure _ => true
  | .read cmd _ _ _ _ => decide (cmd.fn < 256)
  | .write cmd _ _ _ _ _ _ _ => decide (cmd.fn < 256)
  | .flush cmd _ => decide (cmd.fn < 256)
  | .writeZeroes cmd _ _ _ => decide (cmd.fn < 256)
  | .datasetManagement cmd _ _ => decide (cmd.fn < 256)
  | .zoneAppend cmd _ _ _ _ _ => decide (cmd.fn < 256)
  | .zoneOpen cmd _ _ _ => decide (cmd.fn < 256)
  | .zoneClose cmd _ _ _ => decide (cmd.fn < 256)
  | .zoneFinish cmd _ _ _ => decide (cmd.fn < 256)
  | .zoneReset cmd _ _ _ => decide (cmd.fn < 256)
  | .zoneOffline cmd _ _ => decide (cmd.fn < 256)
  | .setZoneDescriptorExt cmd _ _ => decide (cmd.fn < 256)
  | .zoneManagementReceive cmd _ _ => decide (cmd.fn < 256)
  | .invalidOpcode cmd _ => decide (cmd.fn < 256)
  | .createIoSq cmd _ _ _ _ _ => decide (cmd.fn < 256)
  | .createIoCq cmd _ _ _ _ _ => decide (cmd.fn < 256)
  | .deleteIoSq cmd _ => decide (cmd.fn < 256)
  | .deleteIoCq cmd _ => decide (cmd.fn < 256)
  | .getLogPage cmd _ => decide (cmd.fn < 256)
  | .getLogEmitRing cmd _ _ => decide (cmd.fn < 256)
  | .identify cmd _ _ => decide (cmd.fn < 256)
  | .nvmeAbort cmd _ _ => decide (cmd.fn < 256)
  | .setFeatures cmd _ _ _ => decide (cmd.fn < 256)
  | .getFeatures cmd _ _ => decide (cmd.fn < 256)
  | .setFeatureArbitration cmd _ _ _ _ => decide (cmd.fn < 256)
  | .setFeatureNumberOfQueues cmd _ _ => decide (cmd.fn < 256)
  | .setFeaturePowerManagement cmd _ => decide (cmd.fn < 256)
  | .setFeatureApst cmd _ _ => decide (cmd.fn < 256)
  | .setFeatureFdp cmd _ => decide (cmd.fn < 256)
  | .setFeatureReadContract cmd _ _ _ => decide (cmd.fn < 256)
  | .setFeatureOwnership cmd _ => decide (cmd.fn < 256)
  | .ownershipAutoMove _ => true
  | .ownershipSwap _ => true
  | .asyncEventRequest cmd => decide (cmd.fn < 256)
  | .namespaceManagement cmd _ _ _ _ _ _ _ => decide (cmd.fn < 256)
  | .namespaceAttachment cmd _ _ _ => decide (cmd.fn < 256)
  | .firmwareImageDownload cmd _ _ => decide (cmd.fn < 256)
  | .firmwareCommit cmd _ _ _ _ _ => decide (cmd.fn < 256)
  | .formatNvm cmd _ _ _ => decide (cmd.fn < 256)
  | .formatUnitDone _ => true
  | .sanitizeBlockErase cmd => decide (cmd.fn < 256)
  | .sanitizeCryptoErase cmd => decide (cmd.fn < 256)
  | .sanitizeExitFailureMode cmd => decide (cmd.fn < 256)
  | .sanitizeOverwrite cmd => decide (cmd.fn < 256)
  | .sanitizeUnitDone _ => true
  | .nvmeMiSend cmd _ => decide (cmd.fn < 256)
  | .nvmeMiReceive cmd _ => decide (cmd.fn < 256)
  | .miRequest _ _ => true
  | .adminCompletion => true
  | .tokenChallenge cmd => decide (cmd.fn < 256)
  | .tokenReleaseZone cmd _ => decide (cmd.fn < 256)
  | .tokenEnterHold cmd _ => decide (cmd.fn < 256)
  | .tokenLeaveHold cmd _ => decide (cmd.fn < 256)
  | .tokenRetire cmd _ => decide (cmd.fn < 256)
  | .tokenDeploy cmd _ => decide (cmd.fn < 256)
  | .rawSectorRangeSend cmd _ _ => decide (cmd.fn < 256)
  | .rawSectorReceive cmd _ => decide (cmd.fn < 256)
  | .sealLogSeqSend cmd _ => decide (cmd.fn < 256)
  | .sealLogReceive cmd => decide (cmd.fn < 256)
  | .epochKeyObjectReceive cmd => decide (cmd.fn < 256)
  | .identityChainReceive cmd => decide (cmd.fn < 256)
  | .dirtyLogReceive cmd fn => decide (cmd.fn < 256) && decide (fn < 256)
  | .keyPageGenerateXts cmd _ => decide (cmd.fn < 256)
  | .keyPageGenerateGcm cmd _ => decide (cmd.fn < 256)
  | .keyPageErase cmd _ => decide (cmd.fn < 256)
  | .keyPageRewrite cmd _ => decide (cmd.fn < 256)
  | .securityProtocolInvalid cmd _ => decide (cmd.fn < 256)
  | .fnEnable fn => decide (fn < 256)
  | .fnDisable fn => decide (fn < 256)
  | .fnDrainReset fn => decide (fn < 256)
  | .fnSquashReset fn => decide (fn < 256)
  | .fnPause fn => decide (fn < 256)
  | .fnResume fn => decide (fn < 256)
  | .functionLevelReset fn => decide (fn < 256)
  | .ccEnClear fn => decide (fn < 256)
  | .shutdownNotification fn => decide (fn < 256)
  | .vfEnableChange link _ _ => decide (link < 4)
  | .functionResetDone fn => decide (fn < 256)
  | .drainTimeout fn => decide (fn < 256)
  | .dlogStart _ fn => decide (fn < 256)
  | .dlogStop _ => true
  | .dlogCut _ => true
  | .translationCompletion _ _ => true
  | .translationTimeout _ => true
  | .atsInvalidate fn _ _ _ => decide (fn < 256)
  | .keyGenerateXts _ _ => true
  | .keyGenerateGcm _ _ => true
  | .keyEraseIndex _ _ => true
  | .keyRewrite _ _ => true
  | .keyEraseSlot _ => true
  | .keyReloadPage _ => true
  | .keySlotDrained _ => true
  | .keyVaultUpdated => true
  | .keyAlarm _ => true
  | .keyAnchorWrite acc a _ => decide (acc.who ≤ 8) && decide (a < 8)
  | .epochStrikePeriodic => true
  | .sealStrikeRequest acc _ => decide (acc.who ≤ 8)
  | .epochStrikeRequested => true
  | .epochSigned => true
  | .bufferAlloc _ fn _ _ _ => decide (fn < 256)
  | .bpmAlloc => true
  | .bpmRefTake _ => true
  | .bpmRefRelease _ => true
  | .bufferWindowAccess acc _ _ => decide (acc.who ≤ 8)
  | .leakAuditSample => true
  | .auditUnfence => true
  | .dramCommandSlot sub0 _ _ => decide (sub0 < 8)
  | .dramAgePromotion sub0 _ => decide (sub0 < 8)
  | .dramRefresh sub0 bank _ => decide (sub0 < 8) && decide (bank < 32)
  | .dramRecalibration sub0 => decide (sub0 < 8)
  | .dramEccError _ _ _ => true
  | .frameSlotSend port => decide (port < 4)
  | .frameRetransmit port => decide (port < 4)
  | .frameRxKx h _ _ _ => decide (h.port < 4)
  | .frameRxIdle h => decide (h.port < 4)
  | .frameRxRoot h _ => decide (h.port < 4)
  | .frameRxTsync h _ => decide (h.port < 4)
  | .frameRxSvc h _ => decide (h.port < 4)
  | .boomPortTrained port => decide (port < 4)
  | .boomKeyingDone port _ _ _ _ => decide (port < 4)
  | .boomKeyingTimeout port => decide (port < 4)
  | .boomPortRetry port => decide (port < 4)
  | .boomPeerSlow port => decide (port < 4)
  | .boomPortFence port => decide (port < 4)
  | .boomPortUnfence port => decide (port < 4)
  | .boomBroadcast => true
  | .boomBarrier => true
  | .boomSnapshot => true
  | .boomSystemReset => true
  | .systemResetTick => true
  | .svcReportTimeout port => decide (port < 4)
  | .pmuSetState acc _ => decide (acc.who ≤ 8)
  | .pmuSetCeiling acc _ => decide (acc.who ≤ 8)
  | .ps3Entry => true
  | .ps3CommitPoint => true
  | .ps4Entry => true
  | .ps4CommitPoint => true
  | .ps4EntryAbandon => true
  | .wakeEvent _ => true
  | .pmuTimerExpiry => true
  | .ps3Exit => true
  | .ps4Exit => true
  | .dvfsChange => true
  | .vddSettled => true
  | .supplyTimeout _ => true
  | .vcorePgLow => true
  | .capExceed _ => true
  | .refLoss => true
  | .plnNLow => true
  | .vinTrip => true
  | .landingFlushEnd => true
  | .railAdcRound _ => true
  | .siliconModelStep _ => true
  | .sensorRead _ => true
  | .sensorCrossCheck => true
  | .thermalStep => true
  | .powerOn => true
  | .rstNLow => true
  | .rstNHigh => true
  | .rcuWarm => true
  | .rcuLifecycle acc => decide (acc.who ≤ 8)
  | .startUp _ => true
  | .rcuTickStep acc _ => decide (acc.who ≤ 8)
  | .tickMarkWrite => true
  | .logFlClear acc => decide (acc.who ≤ 8)
  | .logFlCurWrite acc _ => decide (acc.who ≤ 8)
  | .logTyCurWrite acc _ => decide (acc.who ≤ 8)
  | .logCaptureAdvance acc _ => decide (acc.who ≤ 8)
  | .tallyPeriodEnd => true
  | .tallyRestart => true
  | .unitSelfCheckFail _ => true
  | .lockstepMismatch _ => true
  | .lockstepRestartDone _ => true
  | .refRestored => true
  | .powerRecovery => true
  | .powerLoss => true
  | .ccEnSet fn _ _ _ => decide (fn < 256)
  | .msixVectorUnmask fn _ => decide (fn < 256)
  | .boomTrainingTimeout port => decide (port < 4)
  | .lifecycleProvision => true
  | .entropyHealthChange _ => true
  | .packageFault _ => true

end Sys2Proof
end

