-- ==== Sys2Proof/Tests/Slice0.lean ====
section
/-! SUPPORT. Tests: terms that are not well formed, steps whose results are counted by hand from the manual, and a witness for the hypotheses of every
statement, at the boundary values of its clauses. -/

set_option maxRecDepth 20000

namespace Sys2Proof.Machine

/-! One ill-formed term for each check of WellFormed, next to a well-formed one. -/

theorem test_wf_accessor : Instr.wf (.commitWrite ⟨9, true⟩ .cal) = false ∧ Instr.wf (.commitWrite ⟨8, true⟩ .cal) = true := by decide
theorem test_wf_plan_cycle : Instr.wf (.planCommit 201) = false ∧ Instr.wf (.planCommit 200) = true := by decide
theorem test_wf_die : Instr.wf (.arrayReadEnd 4096) = false ∧ Instr.wf (.arrayReadEnd 4095) = true := by decide
theorem test_wf_channel : Instr.wf (.chStart 128) = false ∧ Instr.wf (.chStart 127) = true := by decide
theorem test_wf_rewrite_queue : Instr.wf (.rewriteQueuePop ⟨9, true⟩ 0) = false ∧ Instr.wf (.rewriteQueuePop ⟨0, true⟩ 32) = false := by decide
theorem test_wf_cluster : Instr.wf (.decLaneFence 32 0) = false ∧ Instr.wf (.decLaneFence 31 0) = true := by decide
theorem test_wf_namespace_index : Instr.wf (.krfUnbind 1024 0) = false ∧ Instr.wf (.krfUnbind 1023 0) = true := by
  decide
theorem test_wf_kerf_core : Instr.wf (.add 48 ⟨0, false⟩ 1 2 3) = false ∧ Instr.wf (.add 47 ⟨0, false⟩ 1 2 3) = true := by decide
theorem test_wf_warden_core : Instr.wf (.wpCommit 8) = false ∧ Instr.wf (.wpCommit 7) = true := by decide
theorem test_wf_warden_pair : Instr.wf (.wpCommitDone 4) = false ∧ Instr.wf (.wpCommitDone 3) = true := by decide
theorem test_wf_region : Instr.wf (.tfLaneFence 4 0) = false ∧ Instr.wf (.tfLaneFence 3 0) = true := by decide
theorem test_wf_ring : Instr.wf (.copy 4 0) = false ∧ Instr.wf (.copy 0 4) = false ∧ Instr.wf (.copy 3 3) = true := by decide
theorem test_wf_squeeze_lane : Instr.wf (.sqzC 4 0 0) = false ∧ Instr.wf (.sqzC 0 4 0) = false ∧ Instr.wf (.sqzC 0 0 4) = false := by decide
theorem test_wf_link : Instr.wf (.hostLinkUp 4 1 1) = false ∧ Instr.wf (.hostLinkUp 3 1 1) = true := by decide
theorem test_wf_function : Instr.wf (.doorbellWrite 256 0 false 0) = false ∧ Instr.wf (.doorbellWrite 255 0 false 0) = true := by decide
theorem test_wf_command : Instr.wf (.read ⟨256, 0, 0⟩ 1 0 0 0) = false ∧ Instr.wf (.read ⟨255, 0, 0⟩ 1 0 0 0) = true := by decide
theorem test_wf_dirty_log : Instr.wf (.dirtyLogReceive ⟨256, 0, 0⟩ 0) = false ∧ Instr.wf (.dirtyLogReceive ⟨0, 0, 0⟩ 256) = false := by decide
theorem test_wf_anchor : Instr.wf (.keyAnchorWrite ⟨9, true⟩ 0 0) = false ∧ Instr.wf (.keyAnchorWrite ⟨0, true⟩ 8 0) = false := by decide
theorem test_wf_sub_channel : Instr.wf (.dramCommandSlot 8 0 []) = false ∧ Instr.wf (.dramCommandSlot 7 0 []) = true := by decide
theorem test_wf_bank : Instr.wf (.dramRefresh 8 0 false) = false ∧ Instr.wf (.dramRefresh 0 32 false) = false := by decide
theorem test_wf_port : Instr.wf (.frameSlotSend 4) = false ∧ Instr.wf (.frameSlotSend 3) = true := by decide
theorem test_wf_frame : Instr.wf (.frameRxIdle ⟨4, 0, 0, 0, true, true⟩) = false ∧ Instr.wf (.frameRxIdle ⟨3, 0, 0, 0, true, true⟩) = true := by decide

/-! States of the tests. -/

/-- The state after reset with a controller of the test. -/
def tChip (f : Chip → Chip) : State := { State.reset with chip := f Chip.reset }

/-- A function that a PF presents on link 0. -/
def tFn : Fn := { Fn.absent with
  phase := .enabled
  present := true }

/-- A DEPLOYED controller that serves, with function 0. -/
def tServe (f : Chip → Chip) : State :=
  { State.reset with
    fuse := { State.reset.fuse with
      provisioned := true
      deployed := true }
    chip := f { Chip.reset with
      rcu := { Chip.reset.rcu with phase := .ready }
      fn := { Chip.reset.fn with
        fns := [(0, tFn)]
        shares := ⟨64, 64, 64, 8, 8, 64, 64, 64⟩ } } }

/-- An admin command and an I/O command of function 0. -/
def tCmd : Cmd := ⟨0, 0, 7⟩

/-- An invocation of one item. -/
def tInv : Invocation := ⟨0, 0, [0], none, 5, 200, [(0, 9)], List.replicate 64 1, List.replicate 256 2, [ItemFx.none], [], []⟩

/-- Data core 0 at work, with 7 in k1 and the largest value in k2. -/
def tKerf (v : Invocation) : State :=
  tChip (fun c => c.setKcore 0 { DataCore.idle with
    core := { KCore.fresh 3 with k := [0, 7, 0xFFFFFFFFFFFFFFFF] ++ List.replicate 13 0 }
    inv := some v })

/-- A namespace of 2^20 sectors that function 0 owns. -/
def tNs : Ns := ⟨false, 2, 1, 2 ^ 20, 0, 0, 0, some 0, none, [0, 1], false, none, false, none, none, [], [], 0⟩

/-- A zoned one, with zones of 4,096 sectors. -/
def tZns : Ns := { tNs with
  zoned := true
  zcap := 4096
  zsze := 4096 }

/-- A controller that serves namespaces 1, conventional, and 2, zoned. -/
def tHost (f : Chip → Chip) : State := tServe (fun c => f ((c.setNs 0 (some tNs)).setNs 1 (some tZns)))

/-! Steps: results counted by hand from the manual. -/

theorem test_step_empty : step State.reset = .next State.reset := rfl

/-- The next state of a command, for tests on one step. -/
def tNext (i : Instr) (s : State) : State := match exec i s with | .next t => t | _ => s

/-- R200: ADD wraps modulo 2^64 and sets V. -/
theorem test_add_wraps : ((tNext (.add 0 ⟨0, false⟩ 3 1 2) (tKerf tInv)).chip.kcore 0).core.reg 3 = 6 ∧
    ((tNext (.add 0 ⟨0, false⟩ 3 1 2) (tKerf tInv)).chip.kcore 0).core.v = true := by decide

/-- R200: SUB borrows: 7 - (2^64 - 1) = 8 modulo 2^64, and V is set; the source may be the destination. -/
theorem test_sub_borrows : ((tNext (.sub 0 ⟨0, false⟩ 1 1 2) (tKerf tInv)).chip.kcore 0).core.reg 1 = 8 ∧
    ((tNext (.sub 0 ⟨0, false⟩ 1 1 2) (tKerf tInv)).chip.kcore 0).core.v = true := by decide

/-- R189: a write of k0 is discarded, and the core goes on. -/
theorem test_k0_discards : ((tNext (.movi 0 ⟨0, false⟩ 0 5) (tKerf tInv)).chip.kcore 0).core.reg 0 = 0 ∧
    ((tNext (.movi 0 ⟨0, false⟩ 0 5) (tKerf tInv)).chip.kcore 0).core.pc = 4 := by decide

/-- R196, R207: a load from beyond the last area traps with KT_ADDR and ends the invocation. -/
theorem test_load_out_of_areas : ((tNext (.ldb 0 ⟨0, false⟩ 3 2 0) (tKerf tInv)).chip.kcore 0).inv = none := by decide

/-- R32: ID_PART of the CRN-7128. -/
theorem test_id_part : (tNext (.clearOnRead ⟨0, true⟩ 0x0) State.reset).chip.resp = ⟨0x7128, 0⟩ := by decide

/-- R29: a 16-bit access is a BUS_ERROR, and traps the core. -/
theorem test_width : (tNext (.busErrorAccess ⟨0, true⟩ 0x0 2 none) State.reset).chip.resp.status = 0x06 := by decide

/-- R318: FN_CMD on function 256 is LIMIT. -/
theorem test_fn_limit : (tNext (.fnEnable 256) State.reset).chip.reg Reg.fnCmdRes = 2 ^ 31 + 3 := by decide

/-- R374: BLANK moves to PROVISIONED. -/
theorem test_provision : (tNext .lifecycleProvision State.reset).fuse.lifecycle = .provisioned := by decide

/-- R48: a boundary in reset advances the tick. -/
theorem test_tick : (tNext .tickBoundary State.reset).chip.tick = 1 := by decide

/-- R423: 125 ticks above the cap of 55 W set the fault. -/
theorem test_cap : (tNext (.capExceed 55001) (tChip (fun c => { c with pmu := { c.pmu with capRun := 124 } }))).chip.reg Reg.pmuFault = 1 ∧
    (tNext (.capExceed 55000) (tChip (fun c => { c with pmu := { c.pmu with capRun := 124 } }))).chip.reg Reg.pmuFault = 0 := by decide

/-- R250: SHA-256 of "abc" (FIPS 180-4), first word. -/
theorem test_sha256 : (sha256 [0x61, 0x62, 0x63]).take 4 = [0xBA, 0x78, 0x16, 0xBF] := by decide


/-! Witnesses: states and operands that meet the hypotheses of the statements, clause by clause. -/

/-- The queue and the step, the memories and the fuses. -/
theorem test_witness_step : ({ State.reset with pending := [.tickBoundary] } : State).pending = .tickBoundary :: [] ∧ State.reset.pending = [] ∧
    State.reset.mem.wf = true ∧ State.reset.fuse.sound = true ∧ ∃ t, Steps { State.reset with pending := [.lifecycleProvision] } t :=
  ⟨rfl, rfl, by decide, by decide, _, rfl⟩

/-- Lifecycle changes only at a transition. -/
theorem test_witness_lifecycle : (⟨7, false⟩ : Access).who < 8 ∧ (State.reset.fuse.lifecycle, (tNext .lifecycleProvision State.reset).fuse.lifecycle) ∈ lifecycleMoves := by
  decide

/-- The fixed registers. -/
theorem test_witness_registers : (1 : BitVec 4) ≠ 0 ∧ (15 : BitVec 4) ≠ 1 ∧ (3 : BitVec 2) ≠ 0 ∧ (KCore.fresh 0).k.length = 16 ∧ (KCore.fresh 0).p.length = 4 := by decide

/-- A core of the data profile that is ready. -/
theorem test_witness_data_ready : DataReady (tKerf tInv) 0 tInv := ⟨by decide, by decide, rfl, by decide⟩

/-- The last cycle below the budget, on the last core. -/
theorem test_witness_data_ready_last :
    DataReady (tChip (fun c => c.setKcore 39 { DataCore.idle with inv := some { tInv with cycles := 4095 } })) 39 { tInv with cycles := 4095 } :=
  ⟨by decide, by decide, rfl, by decide⟩

/-- A guard that holds, and one that does not, in the data profile. -/
theorem test_witness_kerf_ready : KerfReady (tKerf tInv) 0 ⟨0, false⟩ ∧ KerfReady (tKerf tInv) 0 ⟨1, true⟩ ∧ (coreOf (tKerf tInv) 0).guard ⟨1, false⟩ = false :=
  ⟨⟨Or.inl ⟨_, test_witness_data_ready⟩, by decide, by decide⟩, ⟨Or.inl ⟨_, test_witness_data_ready⟩, by decide, by decide⟩, by decide⟩

/-- A warden core after reset is ready. -/
theorem test_witness_warden_ready : WardenReady State.reset 0 ∧ WardenReady State.reset 7 := by
  constructor <;> refine ⟨?_, ?_, ?_, ?_, ?_, ?_⟩ <;> decide

/-- The same, for the instructions of both profiles. -/
theorem test_witness_kerf_ready_warden : KerfReady State.reset 40 ⟨0, false⟩ ∧ KerfReady State.reset 47 ⟨0, false⟩ :=
  ⟨⟨Or.inr ⟨by decide, test_witness_warden_ready.1⟩, by decide, by decide⟩, ⟨Or.inr ⟨by decide, test_witness_warden_ready.2⟩, by decide, by decide⟩⟩

/-- Loops: outside one, inside one, at the end of a body with iterations left, at its last end; counts of 0 and of 7. -/
theorem test_witness_loops : (KCore.fresh 3).loops = [] ∧ (4 ≠ (⟨3, 5, 2, 0⟩ : KLoop).last) ∧ (5 = (⟨3, 5, 2, 0⟩ : KLoop).last ∧ 0 + 1 < 2) ∧
    (5 = (⟨3, 5, 2, 1⟩ : KLoop).last ∧ 2 ≤ 1 + 1) ∧ (coreOf (tKerf tInv) 0).loops = [] ∧ Nat.min ((coreOf (tKerf tInv) 0).reg 3).toNat (511 + 1) = 0 ∧
    0 < Nat.min ((coreOf (tKerf tInv) 0).reg 1).toNat (0 + 1) := by decide

/-- Loads and stores: the first and the last place of each area, for 8 bytes at an immediate address; and the traps where areas meet. -/
theorem test_witness_data_accesses :
    let a := fun (imm : BitVec 15) => ((coreOf (tKerf tInv) 0).reg 0 + imm.signExtend 64).toNat
    (a 0 % 8 = 0 ∧ a 0 + 8 ≤ 0x1000) ∧ (a 0xFF8 % 8 = 0 ∧ a 0xFF8 + 8 ≤ 0x1000) ∧ (0x1000 ≤ a 0x1000 ∧ a 0x1FF8 + 8 ≤ 0x2000) ∧
    (0x2000 ≤ a 0x2000 ∧ a 0x23F8 + 8 ≤ 0x2400) ∧ (0x2400 ≤ a 0x2400 ∧ a 0x24F8 + 8 ≤ 0x2500) ∧ a 1 % 8 ≠ 0 ∧ 0x2500 < a 0x2500 + 8 ∧
    (a 0xFFC < 0x1000 ∧ 0x1000 < a 0xFFC + 8) ∧ (a 0x1FFC < 0x2000 ∧ 0x2000 < a 0x1FFC + 8) ∧ (a 0x23FC < 0x2400 ∧ 0x2400 < a 0x23FC + 8) := by decide

/-- Effects: item 0 exists and item 7 does not; the places of SADD and EMIT; the 32nd and the 33rd emission. -/
theorem test_witness_effects :
    let x := coreOf (tKerf tInv) 0
    let v : Invocation := { tInv with emits := List.replicate 32 (0, []) }
    ((x.reg 0).toNat < tInv.items.length ∧ tInv.items.length ≤ (x.reg 1).toNat) ∧
    ((x.reg 0 + (0x2400 : BitVec 15).signExtend 64).toNat = 0x2400 ∧ (x.reg 0 + (0x24F8 : BitVec 15).signExtend 64).toNat + 8 = 0x2500) ∧
    ((x.reg 0).toNat % 8 = 0 ∧ (x.reg 0).toNat + 24 ≤ 0x1000 ∧ tInv.emits.length < 32 ∧ 32 ≤ v.emits.length) := by decide

/-! The warden cores. -/

/-- A warden core of the test, on a controller in reset. -/
def tWarden (w : Nat) (g : WardenCore → WardenCore) : State := tChip (fun c => c.setWarden w (g WardenCore.fresh))

/-- Handler level and thread level, the secure and the normal world, on cores that are ready. -/
theorem test_witness_worlds : (State.reset.awake 0).chip.warden 0 = WardenCore.fresh ∧ WardenCore.fresh.thread = false ∧ WardenCore.fresh.secure = true ∧
    WardenCore.fresh.core.loops = [] ∧ csrListed 0x010 = true ∧ csrListed 0x100 = true ∧ csrListed 0xFFF = false := by decide

/-- Thread level: memory protection region 0 grants it all of control space. -/
theorem test_witness_thread :
    let s := tWarden 0 (fun x => { (x.setCsr true 0x20 0x0000000F).setCsr true 0x21 0xFFFFF001 with thread := true })
    KerfReady s 40 ⟨0, false⟩ ∧ ((s.awake 0).chip.warden 0).thread = true :=
  ⟨⟨Or.inr ⟨by decide, by refine ⟨?_, ?_, ?_, ?_, ?_, ?_⟩ <;> decide⟩, by decide, by decide⟩, by decide⟩

/-- The normal world, in DRAM, with ESTAT of the normal world and of the secure one. -/
theorem test_witness_normal :
    let s := tWarden 0 (fun x => { x with secure := false, core := { x.core with pc := 0x40000000 } })
    let r := tWarden 0 (fun x => { x.setCsr false 4 1 with secure := false, core := { x.core with pc := 0x40000000 } })
    WardenReady s 0 ∧ ((s.awake 0).chip.warden 0).secure = false ∧ (((s.awake 0).chip.warden 0).csrOf false 4).testBit 0 = false ∧
    WardenReady r 0 ∧ (((r.awake 0).chip.warden 0).csrOf false 4).testBit 0 = true := by
  refine ⟨⟨?_, ?_, ?_, ?_, ?_, ?_⟩, ?_, ?_, ⟨?_, ?_, ?_, ?_, ?_, ?_⟩, ?_⟩ <;> decide

/-- Interrupts that are taken: a secure one in the secure world, a secure one in the normal world, a normal one. -/
theorem test_witness_interrupts :
    let at_ := fun (w e : Nat) (g : WardenCore → WardenCore) => ((tChip (fun c => { c with obs := { c.obs with pend := [e] } })).chip.setWarden w (g WardenCore.fresh)).takesIrq w
    at_ 0 272 (fun x => x.setCsr true 0 4) = some true ∧ at_ 0 272 (fun x => { x with secure := false }) = some true ∧
    at_ 2 273 (fun x => { x.setCsr false 0 4 with secure := false }) = some false := by decide

/-- Accesses: the last place of an SRAM word, a place beyond 2^32, one that is misaligned and one of another width than a register's. -/
theorem test_witness_accesses :
    let ok := fun (a n : Nat) => decide (a < 2 ^ 32 ∧ a % n = 0 ∧ (a < 0x20000000 → n = 4))
    ok 0x213FFFF8 8 = true ∧ ok 0 4 = true ∧ ok 0 8 = false ∧ ok 0x21000004 8 = false ∧ ok (2 ^ 32) 4 = false ∧
    WardenCore.fresh.grants mpuR 0 = true ∧ WardenCore.fresh.grants mpuW 0xFFFFFFF8 = true ∧
    ((WardenCore.fresh.setCsr true 0x20 0x00001000).setCsr true 0x21 0x00001001).grants mpuR 0x1000 = false := by decide

/-- An access that control space answers, one that it refuses, and a store. -/
theorem test_witness_bus : (∃ v u, busRead ⟨0, true⟩ 0x21000000 8 State.reset = .ok v u) ∧ (∃ l, busRead ⟨0, true⟩ 0x80000000 8 State.reset = .bus l) ∧
    (∃ v u, busWrite ⟨0, true⟩ 0x21000000 8 5 State.reset = .ok v u) := ⟨⟨_, _, rfl⟩, ⟨_, rfl⟩, ⟨_, _, rfl⟩⟩

/-- Compare and swap meets 0 in memory that nothing has written, and k1 = 0 or 1. -/
theorem test_witness_cas :
    let s := tWarden 0 (fun x => { x with core := { x.core with k := [0, 1, 0x21000000] ++ List.replicate 13 0 } })
    KerfReady s 40 ⟨0, false⟩ ∧ (∃ u, busRead ⟨0, true⟩ 0x21000000 8 (s.awake 0) = .ok 0 u) ∧ BitVec.ofNat 64 0 = ((s.awake 0).chip.warden 0).core.reg 3 ∧
    BitVec.ofNat 64 0 ≠ ((s.awake 0).chip.warden 0).core.reg 1 :=
  ⟨⟨Or.inr ⟨by decide, by refine ⟨?_, ?_, ?_, ?_, ?_, ?_⟩ <;> decide⟩, by decide, by decide⟩, ⟨_, rfl⟩, by decide, by decide⟩

/-- Pairs: the active core of a pair, its twin, a pair that commits, and one with a slot pending. -/
theorem test_witness_pairs :
    let c := State.reset.chip
    let d := c.updPair 1 (fun x => { x with committing := true, queue := [5] })
    c.isActive 0 = true ∧ (c.pair 0).committing = false ∧ (c.pair 0).gen + 1 < 2 ^ 64 ∧ c.isActive 1 = false ∧ d.isActive 2 = true ∧ (d.pair 1).queue = 5 :: [] ∧
    2 / 2 < d.kerf.pairs.length ∧ (d.pair 1).committing = true := by decide

/-- Posts: the buffers' lengths and destinations, a share that is full and one that is not. -/
theorem test_witness_posts :
    let c := State.reset.chip
    let full := c.updPair 1 (fun x => { x with mbx := List.replicate 64 ⟨2, 0, false, []⟩ })
    let hostFull := c.updPair 1 (fun x => { x with mbx := List.replicate 64 ⟨2, 9, true, []⟩ })
    (c.warden 7).fenced = false ∧ leNat (sliceBytes (c.mbxBytes 0) 3 1) = 0 ∧ (full.pair 1).freeFor false = none ∧ (hostFull.pair 1).freeFor true = none ∧
    (c.pair 3).freeFor false = some 0 ∧ (c.pair 1).freeFor true = some 0 ∧ ((c.warden 2).fenced && (c.warden 3).fenced) = false := by decide

/-- A post whose message is 112 bytes long to pair 3, one of 113 bytes, one to a destination that does not exist, and one to the host engine from WP0. -/
theorem test_witness_post_messages :
    let put := fun (w : Nat) => tChip (fun c => c.setReg (mbxBuffer 0) w)
    let le := fun (w o n : Nat) => leNat (sliceBytes ((put w).chip.mbxBytes 0) o n)
    (le 0x70000300 3 1 = 112 ∧ le 0x70000300 1 1 = 3) ∧ 112 < le 0x71000300 3 1 ∧ 5 < le 0x01000600 1 1 ∧ (4 ≤ le 0x01000400 1 1 ∧ 0 / 2 ≠ 1) := by decide

/-- Failures: a heartbeat that is late, one that is not, a double trap; the twin fenced, in service, and standby. -/
theorem test_witness_failover :
    let late := fun (c : Chip) (w : Nat) => decide (c.fld (Reg.krfWpHb (w / 2)) 3 0 ≤ c.tick - (c.warden w).beat - 1)
    let c := State.reset.chip
    let d : Chip := { c with time := { c.time with tick := 17 } }
    late c 0 = false ∧ (c.warden 0).doubleTrap = false ∧ late d 7 = true ∧ (c.warden 1).fenced = false ∧ (c.pair 0).active = 0 % 2 ∧ (c.pair 0).active ≠ 1 % 2 ∧
    0 / 2 < c.kerf.pairs.length ∧ ((c.setWarden 1 { WardenCore.fresh with fenced := true }).warden 1).fenced = true := by decide

/-- A signed image at the start of the aperture whose envelope is as it should be, one whose magic is wrong, and addresses that are refused. -/
theorem test_witness_images :
    let hdr : List Byte := leBytes 4 0x564E454B ++ leBytes 2 1 ++ leBytes 2 3 ++ leBytes 4 8224
    let m := Mem.writeBytes [] 0 hdr
    let b := Mem.readBytes m 0 32
    leNat (sliceBytes b 0 4) = 0x564E454B ∧ leNat (sliceBytes b 4 2) = 1 ∧ leNat (sliceBytes b 8 4) = 8224 ∧ (∀ x ∈ sliceBytes b 0x10 16, x = 0) ∧
    leNat (sliceBytes b 6 2) ≤ 3 ∧ leNat (sliceBytes (Mem.readBytes [] 0 32) 0 4) ≠ 0x564E454B ∧ (0x40000000 % 8 = 0 ∧ 0x80000000 - 8352 + 8352 ≤ 0x80000000) ∧
    0x40000004 % 8 ≠ 0 ∧ 0x3FFFFFF8 < 0x40000000 ∧ 0x80000000 < 0x80000000 - 8344 + 8352 := by decide

/-! Control space. -/

/-- Fields: a bit outside, one inside, values inside and outside the limits, at both ends. -/
theorem test_witness_fields :
    let f : RegField := ⟨3, 2, .rw, 0, 1, 2⟩
    f.lo ≤ f.hi ∧ ¬ (f.lo ≤ 4 ∧ 4 ≤ f.hi) ∧ (f.lo ≤ 2 ∧ 3 ≤ f.hi) ∧ (f.min ≤ 0x4 / 2 ^ f.lo % 4 ∧ 0x8 / 2 ^ f.lo % 4 ≤ f.max) ∧ ¬ (0xC / 2 ^ f.lo % 4 ≤ f.max) := by decide

/-- Register words that stand alone, and the words of a 64-bit register, in plain blocks and in a secure one. -/
theorem test_witness_register_words :
    (∃ r i, findReg Reg.calFloor = some (r, i) ∧ r.half = .one) ∧ (∀ m < 3, ∃ r i, findReg (Reg.calModeA m) = some (r, i)) ∧
    (∃ rl rh i j, findReg Reg.pmuTimerLo = some (rl, i) ∧ rl.half = .lo ∧ findReg (Reg.pmuTimerLo + 4) = some (rh, j) ∧ rh.half = .hi ∧
      Reg.pmuTimerLo + 4 < 0x300000 ∧ Reg.pmuTimerLo % 4 = 0 ∧ Reg.pmuTimerLo ≠ Reg.rcuTickStepLo) ∧
    (∃ rl rh i j, findReg Reg.sealStrikeLo = some (rl, i) ∧ findReg (Reg.sealStrikeLo + 4) = some (rh, j)) ∧
    (∃ rl rh i j, findReg Reg.rcuTickStepLo = some (rl, i) ∧ findReg (Reg.rcuTickStepLo + 4) = some (rh, j)) := by
  refine ⟨⟨_, _, rfl, by decide⟩, ?_, ⟨_, _, _, _, rfl, by decide, rfl, by decide, by decide, by decide, by decide⟩, ⟨_, _, _, _, rfl, rfl⟩, ⟨_, _, _, _, rfl, rfl⟩⟩
  intro m h
  match m, h with
  | 0, _ => exact ⟨_, _, rfl⟩
  | 1, _ => exact ⟨_, _, rfl⟩
  | 2, _ => exact ⟨_, _, rfl⟩

/-- Holding copies of a 64-bit register: one is held, none is held, and another accessor's key differs. -/
theorem test_witness_holding :
    let key := 7 * 2 ^ 32 + Reg.pmuTimerLo
    let c := (tChip (fun c => { c with regs := { c.regs with wrHold := [(key, some 5)], rdHold := [(key, some 6)] } })).chip
    Tab.get (fun _ => none) c.regs.wrHold key = some (5 : Word) ∧ Tab.get (fun _ => none) c.regs.rdHold key = some (6 : Word) ∧
    Tab.get (fun _ => none) State.reset.chip.regs.wrHold key = (none : Option Word) ∧ (⟨6, true⟩ : Access).who ≠ 7 := by decide

/-- Commits: a check that passes and one that fails. -/
theorem test_witness_commits :
    (⟨0, true⟩ : Access).secure = true ∧ CommitBlk.tally ∈ [CommitBlk.cal, .map, .fn, .keySca, .seal, .bpm, .mem, .thm, .tally] ∧
    Chip.reset.commitCheck Env.ref (.dec 0) [] = (false, []) ∧ (∀ w ∈ ([(Reg.calFloor, 1)] : Tab Word), w.1 < 2 ^ 32) := by decide

/-- Refused accesses: both ends of each range, and the places beside them that are not refused. -/
theorem test_witness_refused :
    absentAt .crn7128 0xC00000 = false ∧ absentAt .crn7128 0xFFFFFFC = false ∧ (0xC00000 ≤ 0xC00000 ∧ 0xFFFFFFC < 0x10000000) ∧
    (0x300000 ≤ 0x300000 ∧ 0x3FFFFC < 0x400000) ∧ (0x10000000 ≤ 0x10E00000 ∧ 0x1FFFFFFC < 0x20000000 ∧ 0xE00000 ≤ 0x10E00000 % 0x4000000 ∧
      0xE00000 ≤ 0x1FFFFFFC % 0x4000000) ∧ 0x80000000 ≤ 0x80000000 ∧ (0x20000000 ≤ 0x20000000 ∧ 0x2001FFFC < 0x20020000) ∧ (0x1FFFFFFC < 0x20000000 ∧ 2 ≠ 4) ∧
    6 % 4 ≠ 0 := by decide

/-- Absent units: both ends of each range on the parts without them. -/
theorem test_witness_absent :
    absentAt .crn7064 0x18000000 = true ∧ absentAt .crn7064 0x1FFFFFFC = true ∧ absentAt .crn7128S 0x600000 = true ∧ absentAt .crn7128S 0x6FFFFC = true ∧
    absentAt .crn7128S 0x1080003C = true ∧ absentAt .crn7128S 0x1C80003C = true ∧ State.reset.fuse.lifecycle = .blank := by decide

/-- The debug window: a lifecycle state that shuts it and one that opens it. -/
theorem test_witness_debug : (tServe id).fuse.lifecycle = .deployed ∧ ¬ ((tServe id).fuse.lifecycle = .blank ∨ (tServe id).fuse.lifecycle = .provisioned) ∧
    State.reset.fuse.lifecycle = .blank := by decide

/-! The tick, the calendars, reads and the map. -/

/-- Boundaries: in reset, at work, and after a boot failure. -/
theorem test_witness_boundary :
    (State.reset.chip.rcu.phase ≠ .ready ∧ State.reset.chip.rcu.phase ≠ .hold ∧ State.reset.chip.fn.dlogOut = []) ∧
    ((tServe id).chip.rcu.phase = .ready ∧ (tServe id).chip.obs.restart = false) ∧
    (let c := (tServe id).chip
     let lanes := if c.held then c else c.lanePortions Env.ref
     lanes.obs.restart = false ∧ lanes.regs.commits = [] ∧ (Env.ref.part.full = false ∨ lanes.bit Reg.boomCtrl 0 = false)) := by decide

/-- An erase that runs on a die. -/
def tOp : RunningOp := ⟨.erase, 1, 5, .erase 0 3, 15, 0, 40, 0, 0, true, 0⟩

/-- A calendar entry of a read. -/
def tEntry : CalEntry := ⟨0, .read, 7, false, false, 0, 0, 8, 0, 0, 5, .maint, 15, 1, none⟩

/-- A controller at tick 100 with one die as a test needs it. -/
def tDie (d : Die) : State :=
  tServe (fun c => { c with
    time := { c.time with tick := 100 }
    cal := { c.cal with dies := [(0, d)] } })

/-- Die states whose time has come, and the boundary of the last suspend. -/
theorem test_witness_die_states :
    ((tDie { Die.fresh with phase := .suspending, till := 100, op := some tOp }).chip.die 0).till ≤ 100 ∧
    ((tDie { Die.fresh with phase := .resuming, till := 100, op := some tOp }).chip.die 0).op = some tOp ∧
    tOp.suspN < (((tDie Die.fresh).chip).fig tOp.mode).smax ∧ (((tDie Die.fresh).chip).fig tOp.mode).smax ≤ 6 ∧
    ((tDie { Die.fresh with phase := .reading, till := 99, reading := some tEntry }).chip.die 0).reading = some tEntry ∧ tEntry.kind = .read ∧
    tEntry.peer = false ∧ 4 < tEntry.cls ∧ ((tDie { Die.fresh with phase := .suspReading, reading := some tEntry }).chip.die 0).phase = .suspReading ∧
    ((tDie { Die.fresh with phase := .runLock, till := 100 }).chip.die 0).phase = .runLock := by decide

/-- A status poll that is due of an erase that runs: status bytes of an end with OK and of a busy array. -/
theorem test_witness_poll :
    let s := tDie { Die.fresh with phase := .runOpen, op := some { tOp with ended := false } }
    let t : State := { s with chip := s.chip.updChan 0 (fun x => { x with phase := .running }) }
    t.chip.pollDue 0 = true ∧ ((0xE0 : Byte).getLsbD 7 = true ∧ (0xE0 : Byte).getLsbD 6 = true ∧ (0xE0 : Byte).getLsbD 5 = true ∧ (0xE0 : Byte).getLsbD 0 = false ∧
      (0xE0 : Byte).getLsbD 1 = false) ∧ ((0x80 : Byte).getLsbD 7 = true ∧ (0x80 : Byte).getLsbD 6 = false) ∧ (t.chip.die 0).phase = .runOpen := by decide

/-- A completion record in the queue of channel 127, the one after which the search begins, and one of an erase that passed. -/
theorem test_witness_collector :
    let r : CplRec := ⟨4095, .erase, 0x00, 5, 0, false⟩
    let c : Chip := { Chip.reset with cal := { Chip.reset.cal with queues := [(127, [r])] } }
    c.cal.collRestarting = false ∧ 127 < 32 * Env.ref.part.regions ∧ Tab.get (fun _ => []) c.cal.queues 127 = r :: [] ∧
    (∀ n < 128, (n + 127 * (c.cal.ptr + 1)) % 128 < (127 + 127 * (c.cal.ptr + 1)) % 128 → Tab.get (fun _ => []) c.cal.queues n = []) := by decide

/-- Completions: of a suspend, of an erase, and an operation without one two ticks after its end. -/
theorem test_witness_completions :
    let r : CplRec := ⟨0, .suspend, 0x00, 5, 0, false⟩
    let s := tDie { Die.fresh with phase := .runOpen, op := some tOp }
    let c : Chip := { s.chip with cal := { s.chip.cal with delivered := [r] } }
    c.cal.delivered = r :: [] ∧ ({ r with kind := .erase } : CplRec).kind = .erase ∧ (c.die 0).op = some tOp ∧ tOp.job = r.job ∧ tOp.ended = true ∧
    tOp.owner = .erase 0 3 ∧ (c.die 0).phase = .runOpen ∧ tOp.ends + 2 ≤ c.tick ∧ s.chip.noRecord 0 tOp.job = true := by decide

/-- Plans and shedding: a plan that may end at cycle 192, one that is abandoned, the third hold tick, and the last tick of shedding. -/
theorem test_witness_plans :
    let c := State.reset.chip
    let d : Chip := { c.setBit Reg.calCtrl 0 true with
      pmu := { c.pmu with flush := some ⟨1, 0, 0⟩ }
      cal := { c.cal with planDone := false, hold := true, holdRun := 3, shedding := true, shedTill := 0 } }
    c.modelsRun = false ∧ d.modelsRun = false ∧ d.planOpen 192 = true ∧ d.planOpen 193 = false ∧ d.held = true ∧ d.bit Reg.calCtrl 0 = true ∧ d.cal.planDone = false ∧
    (({ d with cal := { d.cal with planDone := true } } : Chip).pass.nandStep Env.ref).modelsRun = false ∧
    d.cal.hold = true ∧ 3 ≤ d.cal.holdRun ∧ d.cal.shedding = true ∧ d.cal.shedTill ≤ d.tick := by decide

/-- Program modes 0 and 2 are in use. -/
def tModes (c : Chip) : Chip := [0, 2].foldl (fun c m => (c.setBit (Reg.calModeB m) 28 true).setStg (Reg.calModeB m) (c.stgReg (Reg.calModeB m) + 2 ^ 28)) c

/-- Admission: operands at their limits, a contract that is bound and one that is not, and requests that fail and pass. -/
theorem test_witness_admission :
    let c := tModes State.reset.chip
    (1023 < 1024 ∧ 15 < 16 ∧ 7 < 8) ∧ c.contract 1023 = none ∧ (c.setContract 3 (some ⟨0, 1, false, 7, 5, 0, 0, 0, 0⟩)).contract 3 ≠ none ∧
    (c.admitCheck Env.ref ⟨0, 7, 15, false, 7⟩).2.2 ≠ 0x00 ∧ (c.admitCheck Env.ref ⟨0, 4, 1, false, 1⟩).2.2 = 0x00 ∧
    (∀ m ∈ modesOf 5, (c.fig m).inuse = true) := by decide

/-- CAL_FLOOR and CAL_NRG_BUDGET: values that pass, values that do not, and a die's entry for the debug view. -/
theorem test_witness_calendar_registers :
    let c := tModes { State.reset.chip with pmu := { State.reset.chip.pmu with ceiling := 1 } }
    let d := (tDie { Die.fresh with entries := [tEntry] }).chip
    c.floorOk c.fig 1 = true ∧ c.floorOk c.fig 0 = false ∧ budgetFloor c.stgFig c.stgNrg ≤ 2 ^ 24 - 1 ∧ 0 < budgetFloor c.stgFig c.stgNrg ∧
    ((0 : Word).getLsbD 8 = false ∧ (0 : Word).getLsbD 31 = false) ∧ (d.die 0).entryAt 16 = some tEntry ∧ (d.die 0).entryAt 0 = none := by decide

/-- CAL_MAINT: every test that refuses, at its boundary, and a request that finds its tick. -/
theorem test_witness_maintenance :
    let s := tServe (fun c => c)
    let c := s.chip
    c.bit Reg.calMaintStat 8 = false ∧ (c.setReg Reg.calMaintStat 256).bit Reg.calMaintStat 8 = true ∧ s.env.chanPresent (4095 / 32) = true ∧
    (({ s.env with part := .crn7064 } : Env).chanPresent (4095 / 32) = false) ∧ (1 < 2 ∧ 64 % 64 = 0 ∧ 63 % 64 ≠ 0) ∧ c.dieFenced 0 = false ∧
    (tDie { Die.fresh with phase := .fenced }).chip.dieFenced 0 = true ∧ c.tick + 2 < ({ c with cal := { c.cal with planDone := true } } : Chip).reach ∧ c.reach ≤ c.tick + 4095 ∧ (c.die 0).hasEntry false = true ∧
    c.maintSlot 0 8 10 10 4 false 1 (c.tick + 100) (c.dieAt 0 (c.tick + 100)) = some (c.tick + 100) := by decide

/-- A cord block of 16 members with one closed wordline group, in cord 0. -/
def tCblk : CordBlk := ⟨0, 3, (List.range 16).map (fun k => (256 * k, 7)), 0, .host, 0, 0, 0, 0, false, 1, 4, true, 5, 5⟩

/-- A group that fills with its first page. -/
def tGroup : Group := ⟨0, 0, 3, 0, .host, .filling, 0, 4, 4, 0, 0, 0, none, 0, [⟨0, 0, 0, 5, 0, 4, false, false⟩], [], [], [], [], false, 0⟩

/-- A read item of namespace 2 (index 1), which is zoned. -/
def tItem : Item := ⟨0, ⟨0, 1, 7⟩, false, false, 1, 0, 4, 0xFFFF, false, true, false, false, false, 0, [], [], ItemFx.none, .waiting, [], 0, 0, none, 0, none, [], 0,
  0, 0, 0, 0, 0, [], [], [], [], false, 0, []⟩

/-- A job of one codeword, on its first HARD decode. -/
def tSect : SectJob := ⟨2, 0, false, none, 0, 0⟩

/-- Its job. -/
def tJob : CalJob := ⟨5, .maint, 0, 0, 3, 0, 1, 0, 0, 7, false, false, 0, 0, 0, [tSect], true, false, [], false, 0, 0⟩

/-- A controller with one read item. -/
def tRead (f : Chip → Chip) : State :=
  tHost (fun c => f ((c.setBit Reg.calCtrl 0 true).setContract 1 (some ⟨0, 1, false, 7, 5, 0, 0, 0, 0⟩)))

/-- Reads that wait: one whose contract is used up, and one of nothing that is written. -/
theorem test_witness_reads :
    let s := tRead (fun c => { c with host := { c.host with items := [{ tItem with contracted := true }, { tItem with id := 1, stage := .flash, contracted := true }] } })
    let r := tRead (fun c => { c with host := { c.host with items := [tItem] } })
    let ready := fun (c : Chip) => decide (c.ftuWaits tItem.cmd = false ∧ c.cal.restarting = false ∧ c.restartRuns .map = false ∧ c.bit Reg.calCtrl 0 = true ∧
      c.noNewWork = false ∧ tZns.zoned = true ∧ (tZns.zone (c.itemZone tItem).1).firstBusy = false)
    (s.chip.ns 1 = some tZns ∧ ready s.chip = true ∧ s.chip.depthUsed 1 = 1) ∧
    (r.chip.item 0 = some tItem ∧ ready r.chip = true ∧ r.chip.map.missq = [] ∧ r.chip.firstRun r.env 1 0 4 tZns false = 4 ∧
      r.chip.readSize r.env tItem tZns = 0 ∧ (r.chip.itemSrcs r.env tItem tZns (r.chip.packAt 1 0 tZns)).contains .rebuild = false) := by decide

/-- An item that ends with Die Busy a tick after its acceptance. -/
theorem test_witness_die_busy :
    let s := tRead (fun c => { c with
      time := { c.time with tick := 1 }
      host := { c.host with items := [{ tItem with stage := .flash, status := itBusy }] } })
    ∃ x, s.chip.item 0 = some x ∧ x.stage = .flash ∧ x.status = itBusy ∧ x.accept + 1 ≤ s.chip.tick := ⟨_, rfl, by decide⟩

/-- Decodes: the last count that ends with OK, a HARD decode that may fail, a member of no reconstruct. -/
theorem test_witness_decodes :
    let s := tRead (fun c => { c with cal := { c.cal with jobs := [tJob] } })
    let c := s.chip
    c.job 5 = some tJob ∧ tJob.sects.find? (fun y => y.sect == 2) = some tSect ∧ c.canDecode tJob tSect = true ∧ tSect.step = 0 ∧ tSect.soft = false ∧
    c.fld (Reg.decThr (dieCluster 0)) 7 0 = 80 ∧ 0 < c.fld (Reg.decThr (dieCluster 0)) 9 8 ∧ c.bit (Reg.decCtrl (dieCluster 0)) 5 = false ∧
    tJob.parityMember = false ∧ tJob.parent = none := by decide

/-- A reconstruct whose peers are all there, and a rewrite queue with an entry. -/
theorem test_witness_reconstruct :
    let j : CalJob := { tJob with recon := true, peers := [6] }
    let p : CalJob := { tJob with id := 6, owner := .peer 5, sects := [{ tSect with done := some 0x00 }] }
    let c : Chip := { Chip.reset with cal := { Chip.reset.cal with jobs := [j, p] } }
    let r : Rewrite := ⟨0, 7, 0, 1, 0, 40⟩
    let d := c.setDec 31 ⟨[r], [], [], false, 0, 0⟩
    c.job 5 = some j ∧ c.peersReady j = true ∧ j.sects = [tSect] ∧ tSect.done = none ∧ (8 < 9 ∧ 31 < 8 * Env.ref.part.regions) ∧ (d.dec 31).queue = r :: [] ∧
    15 < 16 := by decide

/-- Scans: a closed cord block that has not been sampled, and one that has. -/
theorem test_witness_scans :
    let c : Chip := { Chip.reset with map := { Chip.reset.map with cblks := [tCblk] } }
    let d : Chip := { c with map := { c.map with sampled := [(3, 6)] } }
    c.cblk 0 3 = some tCblk ∧ c.noNewWork = false ∧ c.cblkQuiet 0 3 = true ∧ 0 < tCblk.groups ∧ Tab.get (fun _ => 0) c.map.sampled 3 = 0 ∧
    d.cblk 0 3 = some tCblk ∧ d.cblkQuiet 0 3 = true ∧ Tab.get (fun _ => 0) d.map.sampled 3 ≠ 0 ∧ 15 < 16 := by decide

/-- Channels: one that is declared and OFF, its training at rates 3 and 6, and the tick of its timeout. -/
theorem test_witness_channels :
    let set := fun (rate : Nat) (x : Chan) => tServe (fun c => ((c.setFld (Reg.chCfg 127) 15 12 1).setFld (Reg.chCfg 127) 22 20 rate).updChan 127 (fun _ => x))
    let c := (set 3 Chan.off).chip
    let b := (set 6 { Chan.off with phase := .bringup }).chip
    c.held = false ∧ (set 3 Chan.off).env.chanPresent 127 = true ∧ (c.chan 127).phase = .off ∧ c.fld (Reg.chCfg 127) 15 12 = 1 ∧ c.map.grown = [] ∧
    (b.chan 127).phase = .bringup ∧ (b.chan 127).ceFenced = 0 ∧ (3 ≤ c.fld (Reg.chCfg 127) 22 20 ∧ b.fld (Reg.chCfg 127) 22 20 < 7) ∧
    ((set 6 { Chan.off with phase := .running }).chip.chan 127).phase = .running := by decide

/-- The declared chip enables of such a channel. -/
theorem test_witness_chip_enables : ((tServe (fun c => c.setFld (Reg.chCfg 127) 11 8 1)).chip.declaredCe 127) = [0] := by decide

/-- Rows and pages: a group, a page of it that no program has written, and one that is lost in the same row. -/
theorem test_witness_rows :
    let c : Chip := { Chip.reset with map := { Chip.reset.map with groups := [tGroup] } }
    let g : Group := { tGroup with lost := [(0, some 1, 0)] }
    c.group 0 = some tGroup ∧ (tGroup.pages.any (fun p => p.row == 0 && p.slot == 0 && p.plane == 0 && !p.passed)) = true ∧ tGroup.pageLost 0 (some 0) 0 = false ∧
    tGroup.plRows.contains 0 = false ∧ (∀ l ∈ tGroup.lost, l.1 ≠ 0) ∧ g.pageLost 0 (some 0) 0 = false ∧ (∃ l ∈ g.lost, l.1 = 0) := by decide

/-- A group that is due for padding. -/
theorem test_witness_pad_due :
    ({ Chip.reset with time := { Chip.reset.time with tick := 2 ^ 20 }, map := { Chip.reset.map with groups := [tGroup] } } : Chip).padDue tGroup = true := by decide

/-- Blocks of 8 in each plane, so that a test can count them. -/
def tEnv : Env := { Env.ref with nand := { refNand with parts := refNand.parts.map (fun p => { p with blocks := 8 }) } }

/-- A stored sector of namespace 1. -/
def tStored : Stored := ⟨List.replicate 8 1, 5, 0, 0, 0, 1⟩

/-- A place in the cord block of the tests. -/
def tLoc : Loc := ⟨0, 3, 0, 0, 0, 0⟩

/-- A controller with one cord, one closed cord block and one stored sector. -/
def tGc (f : Chip → Chip) : State :=
  { tHost (fun c => f { c with
      buf := { c.buf with fenced := [] }
      map := { c.map with
        formed := true
        cords := [⟨0, 0, (List.range 16).map (fun k => 256 * k), false, false⟩]
        cblks := [tCblk]
        groups := [{ tGroup with cblk := 4, cls := .gc, pages := [⟨0, 0, 0, 5, 0, 1, false, false⟩] }]
        flash := [(locKey tLoc, tStored)] } }) with env := tEnv }

/-- Pins: no namespace, a zoned one, one that fits, one too large, one that is pinned. -/
theorem test_witness_pins :
    let s := tHost (fun c => { c with dram := { c.dram with mapNow := 1 } })
    let c := s.chip
    let p : Chip := { c with map := { c.map with pinned := [0] } }
    let large := c.setNs 0 (some { tNs with size := 2 ^ 40 })
    1023 < 1024 ∧ c.bit Reg.mapPinCtrl 31 = false ∧ c.ns 1023 = none ∧ c.ns 1 = some tZns ∧ tZns.zoned = true ∧ c.ns 0 = some tNs ∧ tNs.zoned = false ∧
    0 ∉ c.map.pinned ∧ c.pinCheck 0 = 0x00 ∧ 0 ∈ p.map.pinned ∧ large.pinLimit < large.pinnedSlots (fun _ => true) + pagesIn (2 ^ 40) := by decide

/-- A map page that has been read and holds a change, and no job that still reads it. -/
theorem test_witness_map_fetch :
    let c := Chip.reset.setMslot 7 ⟨.fetching, false, 1, [(9, 1)], true⟩
    (c.mslot 7).state = .fetching ∧ (c.mslot 7).read = true ∧ (∀ j ∈ c.cal.jobs, j.owner ≠ .mapFetch 7) := by decide

/-- The bad block table: an entry at its place, words whose cause is 4 and another, operations and states. -/
theorem test_witness_bad_blocks :
    let g : Grown := ⟨3, 15, 6, 7, 100, true⟩
    let s := tHost (fun c => { c with map := { c.map with grown := [g] } })
    let c := s.chip
    let bbt := fun (op : Nat) => ((c.setFld Reg.mapBbtIdx 22 0 0).setFld Reg.mapBbtCmd 30 28 op).setBit Reg.mapBbtCmd 31 true
    c.map.bbtWait = none ∧ (bbt 0).fld Reg.mapBbtIdx 22 0 = 0 ∧ (bbt 0).fld Reg.mapBbtCmd 30 28 = 0 ∧ (bbt 2).fld Reg.mapBbtCmd 30 28 = 2 ∧ c.map.grown[0]? = some g ∧
    5 < g.cause ∧ s.fuse.lifecycle ≠ .provisioned ∧ (tNext .lifecycleProvision State.reset).fuse.lifecycle = .provisioned ∧
    (grownOf (4 * 2 ^ 18) 7 0 0).cause = 4 ∧ (grownOf (3 * 2 ^ 18) 7 0 0).cause ≠ 4 ∧ (∀ b ∈ c.map.cblks, (0, 7) ∉ b.members) := by decide

/-- Collection: a cord whose victim is another block, and one whose victim is the sector's, under pressure. -/
theorem test_witness_collection :
    let s := tGc id
    let c := s.chip
    (∃ x, c.cord tLoc.cord = some x ∧ c.gcLevel s.env x ≠ 0) ∧ c.victim s.env tLoc.cord = some tCblk ∧ tCblk.idx = tLoc.cblk ∧
    tCblk.idx ≠ ({ tLoc with cblk := 4 } : Loc).cblk ∧ c.noNewWork = false ∧ (c.flashAt tLoc).nsx = 0 ∧ (c.flashAt tLoc).ltag = 5 ∧ c.flashAt tLoc ≠ Stored.none ∧
    ¬ bitOf (c.flashAt tLoc).flags 0 = true ∧ (c.moveSector s.env tCblk tLoc).isSome = true :=
  ⟨⟨_, rfl, by decide⟩, by decide⟩

/-- Refresh: a block that is not due, and a queued one of each kind. -/
theorem test_witness_refresh :
    let r : Refresh := ⟨2, 0, 3, false, []⟩
    let s := tGc (fun c => { c with map := { c.map with refresh := [r] } })
    let c := s.chip
    (tGc id).chip.refreshOf tEnv tCblk = none ∧ c.cblk 0 3 = some tCblk ∧ c.refreshOf s.env tCblk = some r ∧ c.noNewWork = false ∧ c.refreshWaits r = false ∧
    c.refreshFirst r = true ∧ tCblk.conventional = true ∧ ({ tCblk with handle := 0xFFFF } : CordBlk).conventional = false ∧ tCblk.cls = .host := by decide

/-! Invocations, programs and bindings. -/

/-- A program with a read entry. -/
def tProg : Program := ⟨[0], [], [0xFFFF, 0, 0xFFFF], 16, 3, 0, 0, 100, false⟩

/-- A controller with the program in slot 5, bound to namespace 2. -/
def tBound (f : Chip → Chip) : State :=
  tHost (fun c => f { c.setProg 5 (some tProg) with
    host := { c.host with items := [{ tItem with stage := .kerf 1 }] }
    kerf := { c.kerf with
      slots := [(5, some tProg)]
      binds := [(9, some ⟨1, 0xFFFF, 5, List.replicate 256 0, false⟩)] } })

/-- An invocation that may begin on core 0, one item long. -/
theorem test_witness_dispatch :
    let c := (tBound id).chip
    (c.kcore 0).fenced = false ∧ coreRuns 0 1 = true ∧ (c.kcore 0).inv = none ∧ c.slotProg 5 = some tProg ∧ tProg.has 1 = true ∧ 1 ≤ tProg.batch ∧
    c.bindFor 1 0xFFFF = some 9 ∧ (c.binding 9).map (fun g => g.slot) = some 5 ∧
    [0] = ((sortBy (fun y => y.id) (c.host.items.filter (c.itemWaits 0 1 9))).map (fun y => y.id)).take 1 := by decide

/-- An invocation at its budget, and one a cycle below it. -/
theorem test_witness_budget :
    let s := tKerf { tInv with cycles := 4096 }
    ((s.chip.kcore 0).inv).map (fun v => v.cycles) = some 4096 ∧ (s.chip.kcore 0).fenced = false ∧ (8 * s.env.part.regions ≤ 0 → 32 ≤ 0) ∧ 0 < 32 := by decide

/-- Program slots: none free, the lowest free, one that a binding names, one that none does, and images at both ends of the aperture. -/
theorem test_witness_slots :
    let c := (tBound id).chip
    let full : Chip := { c with kerf := { c.kerf with slots := (List.range 64).map (fun i => (i, some tProg)) } }
    let spare : Chip := { c with kerf := { c.kerf with slots := [(0, some tProg)] } }
    c.loadRuns = false ∧ c.slotProg 63 = none ∧ (∀ j < 64, full.slotProg j ≠ none) ∧ c.slotProg 5 = some tProg ∧ 0 < c.bindsOf 5 ∧
    (spare.slotProg 1 = none ∧ (∀ j < 1, spare.slotProg j ≠ none) ∧ spare.bindsOf 0 = 0) ∧ 0x40000004 % 8 ≠ 0 ∧ 0x40000000 % 8 = 0 ∧
    (0x80000000 - 8224) % 8 = 0 := by decide

/-- Images: one that is refused, and one that is taken. -/
theorem test_witness_load :
    (checkImage true (List.replicate 64 0)).prog = none ∧ (State.reset.chip.reg Reg.krfLoadAddr) % 8 = 0 := by decide

/-- Bindings: a check that refuses, one that passes, a key that is bound and one that is not; a slot that drains and has drained. -/
theorem test_witness_bindings :
    let c := (tBound id).chip
    let d : Chip := { c with kerf := { c.kerf with unloading := some 5 } }
    (1023 < 1024 ∧ 65535 < 65536 ∧ 63 < 64) ∧ c.bindCheck 1 0xFFFF 63 ≠ 0x00 ∧ c.bindCheck 1 0xFFFF 5 = 0x00 ∧ c.keyIndex 1 0 = none ∧ c.keyIndex 1 0xFFFF = some 9 ∧
    c.bindIdx 1 0 = none ∧ c.bindIdx 1 0xFFFF = some 9 ∧ d.kerf.unloading = some 5 ∧ d.kerf.cores = [] := by decide

/-! Rings, buffers and DRAM. -/

/-- A descriptor of 16 bytes from one end of the aperture to the other. -/
def tDesc (op : Nat) : Desc := ⟨2 ^ 31 + op, 0x40000000, 0x7FFFFFC0, 16, 32, 0, 0, 0, 0, 0x3FFFF000⟩

/-- A controller whose ring 3 of region 3 runs a descriptor. -/
def tRing (d : Desc) : State := tServe (fun c => c.setTring 3 3 ⟨some d⟩)

/-- Each operation without a key, and the key operations, with a lane in service. -/
theorem test_witness_rings :
    RingReady (tRing (tDesc 1)) 3 3 1 (tDesc 1) (.dram 0) (.dram 0x3FFFFFC0) ∧ RingReady (tRing (tDesc 2)) 3 3 2 (tDesc 2) (.dram 0) (.dram 0x3FFFFFC0) ∧
    RingReady (tRing (tDesc 4)) 3 3 4 (tDesc 4) (.dram 0) (.dram 0x3FFFFFC0) ∧ RingReady (tRing (tDesc 11)) 3 3 11 (tDesc 11) (.dram 0) (.dram 0x3FFFFFC0) := by
  refine ⟨?_, ?_, ?_, ?_⟩ <;> refine ⟨?_, ?_, ?_, ?_, ?_, ?_, ?_, ?_, ?_, ?_, ?_, ?_⟩ <;> decide

/-- A gather of one entry, whose table lies at the start of the aperture. -/
theorem test_witness_gather :
    let d : Desc := { tDesc 3 with arg0 := 2 ^ 32 + 0x40000000 }
    let s : State := { tRing d with mem := { State.reset.mem with dram := Mem.writeLe [] 0 8 (16 * 2 ^ 32 + 0x40001000) } }
    let ws := gatherTable s.mem d
    RingReady s 3 3 3 d (.dram 0) (.dram 0x3FFFFFC0) ∧ gatherBad s.chip d = false ∧ bitsOf d.arg0 40 32 ≠ 0 ∧ bitsOf d.arg0 40 32 ≤ 256 ∧
    s.chip.dramReadBad (bitsOf d.arg0 31 0 - 0x40000000) (8 * ws.length) = false ∧ gatherStatus s.env s.chip 3 d.len ws = 0x00 := by
  refine ⟨⟨?_, ?_, ?_, ?_, ?_, ?_, ?_, ?_, ?_, ?_, ?_, ?_⟩, ?_, ?_, ?_, ?_, ?_⟩ <;> decide

/-- Squeeze: a stream that starts anew and ends, and a stored block that expands. -/
theorem test_witness_squeeze :
    let d : Desc := { tDesc 5 with arg0 := 2 ^ 10 }
    let x : Desc := { tDesc 6 with arg0 := 2 ^ 10 }
    (RingReady (tRing d) 3 3 5 d (.dram 0) (.dram 0x3FFFFFC0) ∧ d.arg0.testBit 8 = false ∧ d.arg0.testBit 10 = true ∧ bitsOf d.arg0 3 2 = 0 ∧ bitsOf d.arg0 63 11 = 0 ∧
      0 < d.outMax) ∧
    (RingReady (tRing x) 3 3 6 x (.dram 0) (.dram 0x3FFFFFC0) ∧ x.arg0.testBit 8 = false ∧
      (match inflate [] [1, 2, 0, 0xFD, 0xFF, 7, 8] 32 with | .ok (o, _, fin) => (o, fin) | .error _ => ([], false)) = ([7, 8], true)) ∧
    (bitsOf (0 : Nat) 7 0 = 0 ∧ shufImmOk 0x81 = true) := by
  refine ⟨⟨⟨?_, ?_, ?_, ?_, ?_, ?_, ?_, ?_, ?_, ?_, ?_, ?_⟩, ?_⟩, ⟨⟨?_, ?_, ?_, ?_, ?_, ?_, ?_, ?_, ?_, ?_, ?_, ?_⟩, ?_, ?_⟩, ?_⟩ <;> decide

/-- A key of 0, 1, 2 … in user slot 200, in entry 15 of page 255. -/
def tKey (type : Nat) (c : Chip) : Chip := (c.setSlot 200 ⟨.valid, type, (List.range 64).map (fun i => BitVec.ofNat 8 i), 0, 0, gcmBlock⟩).setPage 255 15 (some 200)

/-- An XTS descriptor. -/
def tXtsDesc : Desc := { tDesc 7 with arg0 := 15 * 2 ^ 12 + 255, arg2 := 16 }

/-- A controller that runs it, with its key. -/
def tXts : State := { tRing tXtsDesc with chip := tKey 1 (tRing tXtsDesc).chip }

/-- XTS: data units of 16 bytes, a key that is there and one that is not. -/
theorem test_witness_xts : RingReady tXts 3 3 7 tXtsDesc (.dram 0) (.dram 0x3FFFFFC0) ∧ xtsBad tXts.chip tXtsDesc = false ∧
    (match tXts.chip.ringKey 3 3 1 tXtsDesc with | .ok (i, k) => decide (i = 200 ∧ k.length = 64) | .error _ => false) = true ∧
    (match (tRing tXtsDesc).chip.ringKey 3 3 1 tXtsDesc with | .ok _ => 0 | .error e => e) = 0x07 := by
  refine ⟨⟨?_, ?_, ?_, ?_, ?_, ?_, ?_, ?_, ?_, ?_, ?_, ?_⟩, ?_, ?_, ?_⟩ <;> decide

/-- A GCM descriptor. -/
def tGcmDesc : Desc := { tDesc 9 with arg0 := 15 * 2 ^ 12 + 255 }

/-- A controller that runs it, with its key. -/
def tGcm : State := { tRing tGcmDesc with chip := tKey 2 (tRing tGcmDesc).chip }

/-- The key's bytes. -/
def tGcmKey : List Byte := (List.range 32).map (fun i => BitVec.ofNat 8 i)

/-- GCM: an encryption with a counter left in its block. -/
theorem test_witness_gcm : RingReady tGcm 3 3 9 tGcmDesc (.dram 0) (.dram 0x3FFFFFC0) ∧ aadBad tGcm.chip tGcmDesc = false ∧ aadLen tGcmDesc = 0 ∧
    (match tGcm.chip.ringKey 3 3 2 tGcmDesc with | .ok (i, k) => decide (i = 200 ∧ k = tGcmKey) | .error _ => false) = true ∧
    (tGcm.chip.slot 200).ctr + 1 + gcmBlock / 2 ≤ (tGcm.chip.slot 200).resv := by
  refine ⟨⟨?_, ?_, ?_, ?_, ?_, ?_, ?_, ?_, ?_, ?_, ?_, ?_⟩, ?_, ?_, ?_, ?_⟩ <;> decide

/-- A tag that matches, and one of 16 equal bytes that does not. -/
theorem test_witness_gcm_tag : (∃ tag, gcmTag tGcmKey (List.replicate 12 0) [] (List.replicate 16 0) = tag) ∧
    ∃ b : Byte, gcmTag tGcmKey (List.replicate 12 0) [] (List.replicate 16 0) ≠ List.replicate 16 b := by
  refine ⟨⟨_, rfl⟩, ?_⟩
  by_contra h
  have both : ∀ b : Byte, gcmTag tGcmKey (List.replicate 12 0) [] (List.replicate 16 0) = List.replicate 16 b := fun b => not_not.mp (fun n => h ⟨b, n⟩)
  exact absurd ((both 0).symm.trans (both 1)) (by decide)

/-- Fetches: a ring that is due with its descriptor, software's or the hardware's, at HEAD; rings whose BASE lies outside the aperture. -/
theorem test_witness_fetch :
    let c := ((tServe id).chip.setBit (Reg.tqCtrl 3 3) 0 true).setReg (Reg.tqTail 3 3) 1
    let d := c.setReg (Reg.tqBase 3 3) 0x40000000
    let m : Memories := { State.reset.mem with dram := Mem.writeLe [] 0 4 (2 ^ 31 + 11) }
    d.held = false ∧ d.tringNext 3 = some 3 ∧ d.dramReadBad 0 64 = false ∧ (readDesc State.reset.mem 0).ctrl.testBit 31 = false ∧
    (readDesc m 0).ctrl.testBit 31 = true ∧ (readDesc m 0).ctrl.testBit 30 = false ∧ (readDesc m 0).ctrl % 16 = 11 ∧ bitsOf (readDesc m 0).ctrl 26 24 = 0 ∧
    bitsOf (readDesc m 0).ctrl 15 4 = 0 ∧ bitsOf (readDesc m 0).offs 15 14 = 0 ∧ bitsOf (readDesc m 0).offs 31 30 = 0 ∧
    c.tringNext 3 = some 3 ∧ c.reg (Reg.tqBase 3 3) < 0x40000000 := by decide

/-- Descriptors that the checks refuse: no source, LEN 0, LEN one above 1 MiB; and a lane that is fenced. -/
theorem test_witness_descriptors :
    let bad : Desc := { tDesc 1 with src := 0x3FFFFFFF }
    let zero : Desc := { tDesc 1 with len := 0 }
    let long : Desc := { tDesc 1 with dst := 0x40200000, len := 1048577 }
    (tRing bad).chip.srcPlace Env.ref 3 bad = none ∧ (tRing zero).chip.srcPlace Env.ref 3 zero = some (.dram 0) ∧
    (tRing zero).chip.dstPlace Env.ref 3 zero = some (.dram 0x3FFFFFC0) ∧ zero.len = 0 ∧ (tRing long).chip.srcPlace Env.ref 3 long = some (.dram 0) ∧
    (tRing long).chip.dstPlace Env.ref 3 long = some (.dram 0x200000) ∧ 1048576 < long.len ∧ ((tRing zero).chip.ringPick Env.ref 3 3 0).isSome = true ∧
    (tRing zero).chip.dramWriteBad (0x3FFFF000 + 0x30) 16 = false ∧ (tRing zero).chip.dramWriteBad 0x3FFFF000 4 = false ∧
    Env.ref.laneBit 3 15 = true ∧ (tRing zero).chip.bit (Reg.tfFence 3) 15 = false ∧ ((tRing zero).chip.setBit (Reg.tfFence 3) 15 true).bit (Reg.tfFence 3) 15 = true := by
  decide

/-- Buffers: kinds 9 and 10, an owner that is fenced, a landing that is full, a charge that grants none. -/
theorem test_witness_buffers :
    let c := (tServe id).chip
    let f : Chip := { c with buf := { c.buf with fenced := [2304] } }
    let e := Env.ref
    10 > 9 ∧ 9 * 256 + 0 ∈ f.buf.fenced ∧ 9 * 256 ∉ c.buf.fenced ∧ c.dirtyLimit ≤ c.dirtyCount ∧
    ({ c with pmu := { c.pmu with emeas := 5 } } : Chip).pmu.flush = none ∧ c.grantFirst e 0 0 (kindCharges 9 false false) = none ∧
    c.buf.restarting = false ∧ (c.setBit Reg.bpmCtrl 0 true).bit Reg.bpmCtrl 0 = true := by decide

/-- An allocation that grants: the near reserve of region 0 has room. -/
theorem test_witness_grant : ((tServe id).chip.grantFirst Env.ref 0 0 (kindCharges 7 false false)).isSome = true := by decide

/-- References: handles that name no buffer, one of another kind, and WARDEN buffers with 1, 2, 65,534 and 65,535 references. -/
theorem test_witness_references :
    let c := (tServe (fun c => { c with dram := { c.dram with farNow := 64 } })).chip
    let v : Word := 0x80000005
    let put := fun (kind refs : Nat) => c.setBuffer v.toNat ⟨kind, 0, .farReserve, refs, 0, false⟩
    handleValid Env.ref c 0xFFFFFFFF = false ∧ (handleValid Env.ref (put 8 1) v.toNat = true ∧ ((put 8 1).buffer v.toNat).kind ≠ 9) ∧
    (∀ n ∈ [1, 2, 65534, 65535], handleValid Env.ref (put 9 n) v.toNat = true ∧ ((put 9 n).buffer v.toNat).kind = 9 ∧ ((put 9 n).buffer v.toNat).refs = n) := by decide

/-- The buffer window: no buffer selected, and one of kind WARDEN; the audit at a tick of its period and beside it. -/
theorem test_witness_window :
    let c := (tServe (fun c => { c with dram := { c.dram with farNow := 64 } })).chip
    let d := (c.setBuffer 0x80000005 ⟨9, 0, .farReserve, 1, 0, false⟩).setReg Reg.bpmWinSel 0x80000005
    (16380 < 16384 ∧ 16380 % 4 = 0) ∧ c.windowHandle Env.ref = none ∧ d.windowHandle Env.ref = some 0x80000005 ∧ c.tick % c.fld Reg.bpmAuditCfg 11 0 = 0 ∧
    1 % c.fld Reg.bpmAuditCfg 11 0 ≠ 0 := by decide

/-- DRAM: a request of sub-channel 0 at an idle one; urgent and other requests of a bank; recalibration at its tick; devices 0 and 9. -/
theorem test_witness_dram :
    let r : DramReq := ⟨7, 0, 5⟩
    let c := (tServe (fun c => { (c.setBit Reg.memCtrl 0 true) with dram := { c.dram with rate := 1 } })).chip
    let x := c.subCh 0
    c.bit Reg.memCtrl 0 = true ∧ c.dram.rate ≠ 0 ∧ 7 < 8 ∧ x.now ≤ 5 ∧ x.waiting = [] ∧ (∀ p ∈ x.postponed, p.2 < 4) ∧ c.dram.flush = false ∧ dramSub r.offset = 0 ∧
    r.port < 8 ∧ r.arrived ≤ 5 ∧ c.tick < x.recal + 2500 ∧ x.recal + 2500 ≤ 2500 ∧ (9 < 10 ∧ 9 ≠ 0) ∧ 2 ^ 31 - 1 < Env.ref.board.dramGib * 2 ^ 30 := by decide

/-- Failures of units: a lane in service and a fenced one, cores at both ends, a block that restarts and one that does not. -/
theorem test_witness_failures :
    let c := (tServe id).chip
    let d : Chip := { c with rcu := { c.rcu with restarts := [(.map, 16)] } }
    Env.ref.laneBit 3 15 = true ∧ c.bit (Reg.tfFence 3) 15 = false ∧ (c.setBit (Reg.tfFence 3) 15 true).bit (Reg.tfFence 3) 15 = true ∧
    (31 < 8 * Env.ref.part.regions ∨ (32 ≤ 31 ∧ 31 < 40)) ∧ (32 ≤ 39 ∧ 39 < 40) ∧ c.rcu.phase ≠ .inReset ∧ d.restartRuns .map = true ∧ c.restartRuns .map = false := by decide

/-- Dirty-page logging: slot 7 and function 255, one that another slot follows, and a cut that is pending. -/
theorem test_witness_dlog :
    let c := (tServe id).chip
    let d : Chip := { c with fn := { c.fn with dlog := c.fn.dlog.set 0 { DlogSlot.idle with active := true, fn := 255, cutPending := true } } }
    (7 < 8 ∧ 255 < 256) ∧ c.fn.dlog.length = 8 ∧ (∀ i < 8, i ≠ 7 → (c.dlogSlot i).active = true → (c.dlogSlot i).fn ≠ 255) ∧
    (∃ i < 8, i ≠ 7 ∧ (d.dlogSlot i).active = true ∧ (d.dlogSlot i).fn = 255) ∧ (c.dlogSlot 7).cutPending = false ∧ (d.dlogSlot 0).cutPending = true := by decide

/-! The host. -/

/-- A function that serves while the lifecycle refuses, in degraded hold, and in service. -/
theorem test_witness_io_stops :
    let s := tHost id
    let blank : State := { s with fuse := State.reset.fuse }
    let hold := tHost (fun c => { c with rcu := { c.rcu with phase := .hold } })
    let c := s.chip
    (c.func 0).phase = .enabled ∧ c.pmu.flush = none ∧ blank.fuse.lifecycle = .blank ∧ hold.chip.inHold = true ∧ s.fuse.lifecycle ≠ .blank ∧ s.fuse.lifecycle ≠ .retired ∧
    c.inHold = false ∧ c.ns (nsxOf 1024) = none ∧ c.ns (nsxOf 1) = some tNs ∧ tNs.owner = some 0 ∧ tNs.owner ≠ some 1 ∧ tNs.standby ≠ some 1 ∧
    ({ tNs with standby := some 1 } : Ns).standby = some 1 ∧ ({ tNs with move := some ⟨0, none⟩ } : Ns).move ≠ none := by decide

/-- The limits of a read: 513 sectors, the last sector and one past it, and a zone that is crossed. -/
theorem test_witness_io_limits :
    let s := tHost id
    nsStop s tCmd 1 0 none = none ∧ nsStop s tCmd 2 0 none = none ∧ 512 < 512 + 1 ∧ 511 + 1 ≤ 512 ∧ tNs.size < 2 ^ 20 - 1 + (1 + 1) ∧ 2 ^ 20 - 1 + (0 + 1) ≤ tNs.size ∧
    tZns.zsze < 4095 % Nat.max 1 tZns.zsze + (1 + 1) ∧ tNs.crosses (2 ^ 20 - 1) 1 tNs.zsze = false ∧ tZns.crosses 4095 1 tZns.zsze = false := by decide

/-- I/O commands that meet nothing that stops them, on both namespaces. -/
theorem test_witness_io_ready : IoReady (tHost id) tCmd 1 0 none 0 ∧ IoReady (tHost id) tCmd 1 0 (some false) (2 ^ 20 - 1) ∧ IoReady (tHost id) tCmd 2 0 none 4095 ∧
    IoReady (tHost id) tCmd 2 0 (some true) 0 ∧ IoReady (tHost id) tCmd 1 0 none tNs.size := by
  refine ⟨⟨?_, ?_, ?_, ?_, ?_⟩, ⟨?_, ?_, ?_, ?_, ?_⟩, ⟨?_, ?_, ?_, ?_, ?_⟩, ⟨?_, ?_, ?_, ?_, ?_⟩, ⟨?_, ?_, ?_, ?_, ?_⟩⟩ <;> decide

/-- Writes: the first write of a zone, and to its last sector; a stream that exists; a deferred error. -/
theorem test_witness_writes :
    let c := (tHost id).chip
    let last : Ns := { tZns with zones := [(0, { Zone.fresh with state := .impOpen, wp := 4095, assigned := 4095 })] }
    c.ns (nsxOf 2) = some tZns ∧ c.zoneState 1 0 (tZns.zone 0) ≠ .full ∧ 0 % Nat.max 1 tZns.zsze + 1 ≤ tZns.zcap ∧ 0 % Nat.max 1 tZns.zsze = (tZns.zone 0).assigned ∧
    (∃ d, c.openZone 1 0 .impOpen = .ok d) ∧ 4095 % Nat.max 1 tZns.zsze + 1 ≤ tZns.zcap ∧ 4095 % Nat.max 1 tZns.zsze = (last.zone 0).assigned ∧
    1 < tNs.handles.length ∧ (∃ t, ({ tNs with parityLost := some 3 } : Ns).parityLost = some t ∧ t < 4) :=
  ⟨rfl, by decide, by decide, by decide, ⟨_, rfl⟩, by decide, by decide, by decide, ⟨3, rfl, by decide⟩⟩

/-- Zone commands: an append to an empty zone and one that fills it, the start of the last zone, HOLD, and protected zones. -/
theorem test_witness_zones :
    let c := (tHost id).chip
    let hold : Fuses := { (tHost id).fuse with lcCount := 1 }
    let p : Ns := { tZns with zones := [(0, { Zone.fresh with evid := true, state := .full })] }
    (tZns.zone 0).assigned + (511 + 1) ≤ tZns.zcap ∧ tZns.zcap ≤ tZns.zsze ∧ c.zoneState 1 0 (tZns.zone 0) ≠ .full ∧
    (2 ^ 20 - 4096 < tZns.size ∧ (2 ^ 20 - 4096) % Nat.max 1 tZns.zsze = 0) ∧ (tHost id).fuse.lifecycle ≠ .hold ∧ hold.lifecycle = .hold ∧
    (tZns.zone 0).protected = false ∧ (p.zone 0).protected = true := by decide

/-- An admin command, and an opcode on an I/O queue. -/
theorem test_witness_admin_ready : AdminReady (tHost id) ⟨0, 0, 7⟩ ∧ ((tHost id).chip.func 0).phase = .enabled ∧ ioStop (tHost id) = none ∧ (⟨0, 1, 7⟩ : Cmd).sq ≠ 0 := by
  refine ⟨⟨?_, ?_, ?_⟩, ?_, ?_, ?_⟩ <;> decide

/-- Read contracts: words that are refused, one of class 7, one that binds and one that the calendar refuses. -/
theorem test_witness_contracts :
    let t := tModes (tHost (fun c => c.setFn 0 { tFn with balance := 0 })).chip
    ((0x8 : Word) &&& 0xFFFFF078 ≠ 0) ∧ (0x707 : Word).toNat % 8 = 7 ∧ ((0x707 : Word) &&& 0xFFFFF078 = 0) ∧ (0x5 : Word).toNat % 8 = 5 ∧
    ((0x104 : Word) &&& 0xFFFFF078 = 0 ∧ (0x104 : Word).toNat % 8 ≤ 4 ∧ (0x104 : Word).toNat / 2 ^ 8 % 16 ≠ 0) ∧ t.contract 0 = none ∧ (t.bindContract Env.ref 1 0x104).1 = 0x00 ∧
    (t.bindContract Env.ref 1 0xE00).1 = 0x0E := by decide

/-- Ownership: a standby function, a link that has been down for DOWN_TICKS, a move without commands in the machine and one with a command. -/
theorem test_witness_ownership :
    let n : Ns := { tNs with standby := some 64 }
    let m : Ns := { n with move := some ⟨0, none⟩ }
    let s := tHost (fun c => (c.setNs 0 (some n)).setFld Reg.hostOwn 11 0 1)
    let c := ((s.chip.setFn 64 { tFn with link := 1 }).updLink 1 (fun x => { x with state := 2 })).updLink 0 (fun x => { x with downSince := some 0 })
    let d : Chip := { c with time := { c.time with tick := 1 } }
    c.ns 0 = some n ∧ n.owner = some 0 ∧ n.standby = some 64 ∧ n.move = none ∧ c.fld Reg.hostOwn 11 0 ≠ 0 ∧ (c.link (c.func 64).link).state = 2 ∧
    (c.link (c.func 0).link).downSince = some 0 ∧ 0 + c.fld Reg.hostOwn 11 0 ≤ d.tick ∧ m.move = some ⟨0, none⟩ ∧ (∀ p ∈ c.host.cmds, p.nsx ≠ 0) ∧
    (∀ z ∈ c.host.zoneOps, z.nsx ≠ 0) ∧ n.owner ≠ some 64 := by decide

/-- Queues: identifiers, sizes and vectors at their limits, with and without the queues that they name. -/
theorem test_witness_queues :
    let s := tHost (fun c => c.setFn 0 { tFn with
      sqs := [⟨0, 32, 0, 0, 0, 0⟩, ⟨2, 32, 0, 0, 2, 0⟩]
      cqs := [⟨0, 32, 0, 0, true, []⟩, ⟨1, 32, 0, 0, true, []⟩, ⟨2, 32, 0, 0, true, []⟩]
      feat := { tFn.feat with nsq := 3, ncq := 3 } })
    let x := s.chip.func 0
    AdminReady s ⟨0, 0, 7⟩ ∧ (∃ k ∈ x.cqs, k.qid = 2) ∧ (∃ k ∈ x.sqs, k.qid = 2) ∧ (¬ ∃ k ∈ x.cqs, k.qid = 3) ∧ (¬ ∃ k ∈ x.sqs, k.qid = 3) ∧
    s.chip.queueLimit x.feat.ncq < 4 ∧ 3 ≤ s.chip.queueLimit x.feat.nsq ∧ (4095 ≤ 4095 ∧ 4095 < 4096) ∧ (1023 < 1024 ∧ x.vf = 0) ∧ ¬ (1024 < 1024) ∧
    (∃ k ∈ x.sqs, k.cqid = 2) ∧ (∀ k ∈ x.sqs, k.cqid ≠ 1) := by
  refine ⟨⟨?_, ?_, ?_⟩, ?_, ?_, ?_, ?_, ?_, ?_, ?_, ?_, ?_, ?_, ?_⟩ <;> decide

/-- Aborts and events: a command of which no item has left the host engine, four outstanding requests, a reply that waits. -/
theorem test_witness_housekeeping :
    let p : Pend := ⟨⟨0, 1, 9⟩, false, 1, 0, 4, [0], none, 0, false⟩
    let c := (tHost (fun c => { c with host := { c.host with items := [tItem], cmds := [p], replies := [(0, ⟨0, 7, 0, 0, false, 0, 0⟩)] } })).chip
    (∃ q ∈ c.host.cmds, (q.cmd == ⟨0, 1, 9⟩ && q.items.all (fun i => (c.item i).all (fun x => x.stage == .waiting))) = true) ∧
    (∀ q ∈ c.host.cmds, (q.cmd == ⟨0, 1, 8⟩) = false) ∧ 4 ≤ ({ tFn with aers := List.replicate 4 ⟨0, 0, 1⟩ } : Fn).aers.length ∧ tFn.aers.length < 4 ∧
    c.host.replies = (0, ⟨0, 7, 0, 0, false, 0, 0⟩) :: [] ∧ (tHost id).chip.host.replies = [] := by decide

/-- Features: queues at the largest number, states of APST, namespaces that exist and none, and a power request that is free to run. -/
theorem test_witness_features :
    let c := (tHost id).chip
    (∀ q ∈ (c.func 0).sqs, q.qid = 0) ∧ 65534 < 65535 ∧ (c.func 0).vf = 0 ∧ ({ tFn with vf := 1 } : Fn).vf ≠ 0 ∧ (∃ p ∈ c.host.nss, p.2 ≠ none) ∧
    (∀ p ∈ Chip.reset.host.nss, p.2 = none) ∧ 4 ≤ 4 ∧ c.pmu.req = none ∧ ({ c with pmu := { c.pmu with req := some (0, 1) } } : Chip).pmu.req ≠ none ∧
    (¬ ∃ i < 5, ∃ y, ([(3, 100), (3, 100), (4, 100), (4, 5), (0, 0)] : List (Nat × Nat))[i]? = some y ∧ y.2 ≠ 0 ∧ ((y.1 ≠ 3 ∧ y.1 ≠ 4) ∨ y.1 ≤ i)) ∧
    (∃ i < 5, ∃ y, ([(2, 100)] : List (Nat × Nat))[i]? = some y ∧ y.2 ≠ 0 ∧ ((y.1 ≠ 3 ∧ y.1 ≠ 4) ∨ y.1 ≤ i)) := by
  refine ⟨by decide, by decide, by decide, by decide, by decide, by decide, by decide, by decide, by decide, ?_, ⟨0, by decide, _, rfl, by decide, by decide⟩⟩
  rintro ⟨i, hi, y, hy, h1, h2⟩
  match i, hi with
  | 0, _ => cases hy; revert h1 h2; decide
  | 1, _ => cases hy; revert h1 h2; decide
  | 2, _ => cases hy; revert h1 h2; decide
  | 3, _ => cases hy; revert h1 h2; decide
  | 4, _ => cases hy; revert h1 h2; decide

/-- A request to the power unit that goes on, or ends with OK. -/
theorem test_witness_power_feature :
    let t := (tHost id).chip.taken ⟨0, 0, 7⟩
    let asked := t.setFn 0 { tFn with feat := { tFn.feat with power := 4 } }
    let d := asked.pmuRequest false 0 ((asked.enabledPfs.map (fun y => y.feat.power)).foldl Nat.min 4)
    d.pmu.req ≠ none ∨ d.fld Reg.pmuReqRes 7 0 = 0x00 := by decide

/-- Log pages: one that does not exist, and one that does; Identify structures. -/
theorem test_witness_logs :
    let t := (tHost id).chip.taken ⟨0, 0, 7⟩
    t.logPage Env.ref 0 0x7F = none ∧ (∃ bs d, t.logPage Env.ref 0 0x01 = some (bs, d)) ∧ 6 < 7 := ⟨by decide, ⟨_, _, rfl⟩, by decide⟩

/-- Links: one that is enabled and trains, one that is up, one that is not enabled. -/
theorem test_witness_links :
    let c := (tHost (fun c => (c.setBit Reg.hostCtrl 3 true).updLink 0 (fun x => { x with state := 2 }))).chip
    (c.wakeSee .link).bit Reg.hostCtrl 3 = true ∧ ((c.wakeSee .link).link 3).state ≠ 2 ∧ (0 < 6 ∧ 6 ≤ 6 ∧ 0 < 3 ∧ 3 ≤ 3) ∧ ((c.wakeSee .link).link 0).state = 2 ∧
    (c.wakeSee .link).bit Reg.hostCtrl 2 = false := by decide

/-- Doorbells: a function that is disabled, a queue that does not exist, values at the size, below it, and completions to take. -/
theorem test_witness_doorbells :
    let q : SQ := ⟨2, 32, 0, 0, 2, 0⟩
    let k : CQ := ⟨2, 32, 30, 0, true, List.replicate 3 ⟨2, 5, 0, 0, false, 0, 0⟩⟩
    let c := (tHost (fun c => c.setFn 0 { tFn with sqs := [q], cqs := [k] })).chip
    let x := (c.wakeSee .host).func 0
    ((c.wakeSee .host).func 1).phase = .disabled ∧ x.phase ≠ .disabled ∧ x.phase ≠ .resetting ∧ (∀ y ∈ x.sqs, y.qid ≠ 3) ∧
    x.sqs.find? (fun y => y.qid == 2) = some q ∧ q.size ≤ 32 ∧ 31 < q.size ∧ x.cqs.find? (fun y => y.qid == 2) = some k ∧
    (1 < k.size ∧ (1 + k.size - k.head) % k.size ≤ k.entries.length) := by decide

/-- Fetches: no function to serve, and one with entries in its queue. -/
theorem test_witness_fetch_decisions :
    let q : SQ := ⟨2, 32, 0, 5, 2, 0⟩
    let s := tHost (fun c => (c.setFn 0 { tFn with ccEn := true, rdy := true, balance := 5, sqs := [⟨0, 32, 0, 0, 0, 0⟩, q] }).setBit Reg.hostCtrl 0 true)
    (tHost id).chip.nextFn = none ∧ s.chip.nextFn = some 0 ∧ (s.chip.chooseQueue (s.chip.func 0)).isSome = true := by decide

/-- Translations: no request of a number, one that waits, one that has waited for TIMEOUT and one that has not. -/
theorem test_witness_translations :
    let r : FtuReq := ⟨3, 0, none, 7, none, 0, false⟩
    let c := (tHost (fun c => { c with fn := { c.fn with ftuReqs := [r] } })).chip
    let d : Chip := { c with time := { c.time with tick := c.fld Reg.fnFtuCfg 11 0 } }
    (∀ y ∈ c.fn.ftuReqs, y.id ≠ 4) ∧ c.fn.ftuReqs.find? (fun y => y.id == 3) = some r ∧ AtsResult.granted 5 ≠ AtsResult.denied ∧ c.tick < r.since + c.fld Reg.fnFtuCfg 11 0 ∧
    r.since + d.fld Reg.fnFtuCfg 11 0 ≤ d.tick := by decide

/-- Namespaces: fields that are refused, a share that is used up, the lowest free index, and a table without room. -/
theorem test_witness_creation :
    let s := tHost id
    let c := s.chip
    let mine := (c.host.nss.filter (fun p => p.2.any (fun n => n.creator == 0))).length
    createBad c s.env true 0 2 1 [] = true ∧ createBad c s.env true (2 ^ 20) 2 1 [] = false ∧ mine = 2 ∧ mine < c.fn.shares.ns ∧
    ({ c.fn.shares with ns := 2 } : Shares).ns ≤ mine ∧ c.ns 2 = none ∧ (∀ j < 2, c.ns j ≠ none) ∧ c.fullRefuses (2 ^ 20) = false ∧
    ({ c with map := { c.map with full := true } } : Chip).fullRefuses (2 ^ 45) = true := by decide

/-- Deletions and attachments: no namespace, a sealed zone, HOLD, functions that are there or not, on one link and on two. -/
theorem test_witness_attachment :
    let sealed : Ns := { tZns with zones := [(0, { Zone.fresh with evid := true, state := .full, sealed := some 3 })] }
    let c := (tHost (fun c => (c.setFn 64 { tFn with link := 1 }).setFn 1 tFn)).chip
    c.ns (nsxOf 4) = none ∧ sealed.holdsSeal = true ∧ tZns.holdsSeal = false ∧ ({ (tHost id).fuse with lcCount := 1 } : Fuses).lifecycle = .hold ∧
    (c.func 2).present = false ∧ (c.func 1).present = true ∧ tNs.owner = some 0 ∧ ({ tNs with owner := none } : Ns).owner = none ∧ tNs.standby = none ∧ 0 ≠ 1 ∧
    (c.func 0).link = (c.func 1).link ∧ (c.func 0).link ≠ (c.func 64).link ∧ (c.func 64).present = true ∧ tNs.owner ≠ some 1 ∧ tNs.standby ≠ some 1 := by decide

/-- Firmware: the last piece of 16 MiB, one that meets another, a whole image, and versions at the minimum and below it. -/
theorem test_witness_firmware :
    (0 < 4096 ∧ (2 ^ 24 - 4096) % 4096 = 0 ∧ 2 ^ 24 - 4096 + 4096 ≤ 2 ^ 24) ∧ ¬ (2 ^ 24 + 4096 ≤ 2 ^ 24) ∧
    (∃ p ∈ [(4096, 8192)], 8192 < p.1 + p.2 ∧ p.1 < 8192 + 4096) ∧ ¬ (∃ p ∈ [(4096, 4096)], 8192 < p.1 + p.2 ∧ p.1 < 8192 + 4096) ∧
    fwWhole [(0, 4096), (4096, 4096)] = true ∧ fwWhole [] = false ∧ ([0, 0, 0, 5] : List Nat).getD 3 0 ≤ 5 ∧ ¬ ([0, 0, 0, 5] : List Nat).getD 3 0 ≤ 4 := by decide

/-- Formats and sanitize: progress records that run, that ended and that failed; units that are ready, the last one and an earlier one. -/
theorem test_witness_format :
    let s := tHost id
    let p : Progress := ⟨3, 1, 0, 1, 0, 0, 1, 0, some ⟨0, 0, 7⟩, [0]⟩
    let c : Chip := { s.chip with host := { s.chip.host with progress := p } }
    let z : Chip := { s.chip with host := { s.chip.host with progress := { p with action := 1, total := 4, nss := [] } } }
    s.chip.host.progress.state ≠ 1 ∧ p.state = 1 ∧ 3 ≤ p.action ∧ ({ p with action := 2 } : Progress).action ≤ 2 ∧ ({ p with state := 3 } : Progress).state = 3 ∧
    tNs.holdsSeal = false ∧ s.fuse.lifecycle ≠ .hold ∧ (s.chip.func 0).vf = 0 ∧ ({ tFn with vf := 1 } : Fn).vf ≠ 0 ∧ c.unitReady [0] false = true ∧ p.done = 0 ∧
    z.unitReady [] true = true ∧ s.chip.ns (nsxOf 1) = some tNs ∧ tNs.owner = some 0 := by decide

/-- What the units clear is known: the last unit of a format and the first of four of a sanitize. -/
theorem test_witness_format_units :
    let s := tHost id
    let p : Progress := ⟨3, 1, 0, 1, 0, 0, 1, 0, some ⟨0, 0, 7⟩, [0]⟩
    let c : Chip := { s.chip with host := { s.chip.host with progress := p } }
    let z : Chip := { s.chip with host := { s.chip.host with progress := { p with action := 1, total := 4, nss := [] } } }
    ((p.nss.foldl (fun c x => c.clearNs s.env x) c).host.progress.total ≤ (p.nss.foldl (fun c x => c.clearNs s.env x) c).host.progress.done + 1) ∧
    (z.sanitizeMap s.env).host.progress.done + 1 < (z.sanitizeMap s.env).host.progress.total ∧
    (∀ q ∈ s.chip.host.nss, ∀ n, s.chip.ns q.1 = some n → n.holdsSeal = false) := by
  refine ⟨by decide, by decide, ?_⟩
  intro q h n hn
  have h2 : q = (0, some tNs) ∨ q = (1, some tZns) := by
    have : (tHost id).chip.host.nss = [(0, some tNs), (1, some tZns)] := rfl
    rw [this] at h
    simpa using h
  rcases h2 with rfl | rfl <;> (cases hn; decide)

/-- FN_CMD: no operation runs; functions in each state; function 255, 256 and 511. -/
theorem test_witness_fn_cmd :
    let c := (tHost (fun c => (c.setFn 1 { tFn with phase := .resetting }).setFn 2 { tFn with phase := .paused })).chip
    c.bit Reg.fnCmd 31 = false ∧ (255 < 256 ∧ 256 ≤ 256 ∧ 511 < 512) ∧ (c.func 0).phase = .enabled ∧ (c.func 1).phase = .resetting ∧ (c.func 2).phase = .paused ∧
    (c.func 255).phase = .disabled ∧ ({ tFn with phase := .disabled } : Fn).present = true := by decide

/-- Function resets: a drain that runs, at its limit and before it, with commands left and without; shutdowns, pauses, VFs. -/
theorem test_witness_fn_resets :
    let r : FnReset := ⟨2, false, false, false, false, 0, 2⟩
    let c := (tHost (fun c => (c.setFn 0 { tFn with phase := .resetting, reset := some r }).updLink 0 (fun x => { x with state := 2 }))).chip
    let d : Chip := { c with time := { c.time with tick := c.fld Reg.fnResetCfg 13 0 } }
    let b : Chip := { c with host := { c.host with cmds := [⟨⟨0, 1, 9⟩, false, 1, 0, 4, [0], none, 0, false⟩] } }
    (c.func 0).reset = some r ∧ r.squash = false ∧ c.tick < r.started + c.fld Reg.fnResetCfg 13 0 ∧ r.started + d.fld Reg.fnResetCfg 13 0 ≤ d.tick ∧
    c.fnBusy 0 = false ∧ (∀ q ∈ c.fn.ftuReqs, q.fn ≠ 0) ∧ b.fnBusy 0 = true ∧ c.fn.cmdRunning ≠ some 0 ∧ tFn.reset = none ∧ tFn.phase = .enabled ∧ tFn.ccEn = false ∧
    ({ tFn with ccEn := true } : Fn).ccEn = true ∧ (c.func 200).phase = .disabled ∧ tFn.present = true ∧ tFn.fwDisabled = false ∧ r.cause ≠ 6 ∧ r.pause = false ∧
    r.shutdown = false ∧ ({ r with pause := true } : FnReset).pause = true ∧ ({ r with shutdown := true } : FnReset).shutdown = true ∧ (c.link 0).state = 2 ∧
    (c.link 1).state ≠ 2 := by decide

/-- A number of VFs that the link has room for. -/
theorem test_witness_vfs : 255 ≤ ((tHost (fun c => c.setReg (Reg.hostLinkCfg 0) (256 * 2 ^ 8))).chip.linkRange 0).2 - 1 := by decide

/-! Keys, the seal and tokens. -/

/-- Key operations: none runs, checks that refuse and that pass, slots and pages at their limits. -/
theorem test_witness_key_operations :
    let c := tKey 1 (tServe id).chip
    (511 < 512 ∧ 15 < 16 ∧ 2047 < 2048) ∧ c.keyBusy = false ∧ ({ c with key := { c.key with jobs := [⟨2, 200, 255, 15, [], false, false, true, none⟩] } } : Chip).keyBusy = true ∧ c.keyCheck .deployed 0 0 511 0 ≠ 0x00 ∧
    c.keyCheck .deployed 0 0 255 0 = 0x00 ∧ c.keyCheck .deployed 2 0 255 15 = 0x00 ∧ c.keyCheck .deployed 3 0 255 15 = 0x00 ∧ c.keyCheck .deployed 4 200 0 0 = 0x00 ∧
    c.keyCheck .deployed 4 2047 0 0 ≠ 0x00 ∧ c.keyCheck .deployed 5 0 255 0 = 0x00 := by decide

/-- Ends of key operations: a slot with users and without, jobs of each kind, and none. -/
theorem test_witness_key_ends :
    let j : KeyJob := ⟨2, 200, 255, 15, [], false, false, true, none⟩
    let c := tKey 1 (tServe (fun c => { c with key := { c.key with jobs := [j] } })).chip
    let u := c.setSlot 200 { c.slot 200 with users := 1 }
    let d : Chip := { c with key := { c.key with jobs := [{ j with op := 0, slot := 201, drained := true }] } }
    c.key.jobs.find? (fun y => y.slot == 200 && !y.drained) = some j ∧ (u.slot 200).users ≠ 0 ∧ (c.slot 200).users = 0 ∧ j.op ≠ 3 ∧ ({ j with op := 3 } : KeyJob).op = 3 ∧
    c.key.jobs.find? (fun y => y.drained && !y.vaulted) = none ∧ (d.key.jobs.find? (fun y => y.drained && !y.vaulted)).map (fun j => j.op) = some 0 ∧
    (d.key.jobs.find? (fun y => y.slot == 200 && !y.drained)) = none := by decide

/-- Anchors: BLANK and DEPLOYED, the secure world and the other one, an anchor that is programmed and one that is not. -/
theorem test_witness_anchors :
    (⟨0, true⟩ : Access).secure = true ∧ (⟨7, false⟩ : Access).secure = false ∧ State.reset.fuse.lifecycle = .blank ∧ (tServe id).fuse.lifecycle ≠ .blank ∧
    (tServe id).fuse.lifecycle ≠ .provisioned ∧ State.reset.fuse.anchor 7 = [] ∧ ({ State.reset.fuse with anchors := [(7, [1])] } : Fuses).anchor 7 ≠ [] := by decide

/-- Security requests: lifecycle states that refuse, payloads of 16 bytes, a PF and a VF, a key object that is there. -/
theorem test_witness_security :
    let c := (tHost id).chip
    (tHost id).fuse.lifecycle = .deployed ∧ ({ (tHost id).fuse with retired := true } : Fuses).lifecycle = .retired ∧
    ([BitVec.ofNat 8 (0 + 1), 15] ++ List.replicate 14 0 : List Byte).length = 16 ∧ (15 : Byte).toNat = 15 ∧ (c.func 0).vf = 0 ∧ ({ tFn with vf := 1 } : Fn).vf ≠ 0 ∧
    c.sealer.keyObj = [] ∧ ({ c with sealer := { c.sealer with keyObj := [1] } } : Chip).sealer.keyObj ≠ [] := by decide

/-- Raw sectors: 16 of a sealed zone, sectors that are not within it, and a request that named them; dirty-page logs of link 0's PF and of another. -/
theorem test_witness_raw :
    let n : Ns := { tZns with zones := [(0, { Zone.fresh with evid := true, state := .full, wp := 16, sealed := some 3 })] }
    let c := (tHost (fun c => { (c.setNs 1 (some n)) with
      sealer := { c.sealer with raw := [(0, (1, 0, 16))] }
      fn := { c.fn with dlog := c.fn.dlog.set 7 { DlogSlot.idle with fn := 255, cutDone := true } } })).chip
    c.ns (nsxOf 2) = some n ∧ n.zoned = true ∧ n.owner = some 0 ∧ (n.zone 0).sealed ≠ none ∧ 0 % Nat.max 1 n.zsze + 16 ≤ (n.zone 0).wp ∧
    ¬ 1 % Nat.max 1 n.zsze + 16 ≤ (n.zone 0).wp ∧ Tab.get (fun _ => (0, 0, 0)) c.sealer.raw 0 = (1, 0, 16) ∧ ((c.func 0).vf = 0 ∧ (c.func 0).link = 0) ∧
    ¬ (({ tFn with link := 1 } : Fn).link = 0) ∧ firstIdx (fun (x : DlogSlot) => x.fn == 255 && x.cutDone) c.fn.dlog = some 7 := by decide

/-- Sectors that can be read, and one that cannot. -/
theorem test_witness_raw_sources :
    let t := (tHost id).chip.taken ⟨0, 0, 7⟩
    let lost : Ns := { tZns with zones := [(0, { Zone.fresh with evid := true, state := .full, wp := 16, sealed := some 3, lost := [0] })] }
    t.sectorSrc Env.ref 1 0 tZns ≠ .unreadable ∧ t.sectorSrc Env.ref 1 0 lost = .unreadable := by decide

/-- Tokens: a PF and a VF, states at both ends of the transitions, and one that a check refuses. -/
theorem test_witness_tokens :
    let s := tHost id
    (s.chip.func 0).vf = 0 ∧ ({ tFn with vf := 1 } : Fn).vf ≠ 0 ∧ (2 ≤ 2 ∧ 5 ≤ 5) ∧ (tokCheck s 2 []).1 ≠ 0x00 := by decide

/-- Alarms: a source that is logged, one that erases, one that locks and one that kills; the count below its limit, and HOLD. -/
theorem test_witness_alarms :
    let c := (tServe id).chip
    let cfg := fun (v : Nat) => (c.setReg Reg.keyAlarmCfg v)
    (∀ a < 4, (cfg (a * 2 ^ 2)).fld Reg.keyAlarmCfg 3 2 = a) ∧ c.fld Reg.keyAlarmCnt 4 0 < 15 ∧ (tServe id).fuse.lifecycle ≠ .hold ∧
    AlarmSource.cglitch ≠ AlarmSource.repeat16 := by decide

/-- The seal engine: one that is ready, a period that is due, a strike that is due, and the ticks about a request. -/
theorem test_witness_seal :
    let on := fun (c : Chip) => (c.setBit Reg.sealCtrl 0 true).setSlot 0 ⟨.valid, 3, List.replicate 32 0, 0, 0, 0⟩
    let c := (tServe (fun c => { on c with sealer := { c.sealer with seq := 5, strike := some 0 }, time := { c.time with tick := 2 ^ 31 } })).chip
    c.sealReady = true ∧ (c.setReg Reg.sealPeriod 1).periodDue = true ∧ c.strikeDue = true ∧ (tServe id).chip.sealReady = false ∧ c.sealer.strike ≠ none ∧
    (tServe id).chip.sealer.strike = none ∧ 1 < (tServe id).chip.tick + 2 ∧ (tServe id).chip.tick + 2 ≤ 2 ∧ c.sealer.seq < 2 ^ 64 - 1 ∧
    2 ^ 64 - 1 ≤ ({ c with sealer := { c.sealer with seq := 2 ^ 64 - 1 } } : Chip).sealer.seq := by decide

/-- Signatures: none waits, one waits without the key of slot 1, and with it. -/
theorem test_witness_signatures :
    let c := (tServe (fun c => { c with sealer := { c.sealer with signing := [(4, 1, 100, false)] } })).chip
    let d := c.setSlot 1 ⟨.valid, 3, List.replicate 48 1, 0, 0, 0⟩
    (tServe id).chip.sealer.signing = [] ∧ c.sealer.signing = (4, 1, 100, false) :: [] ∧ (c.slot 1).state ≠ .valid ∧ (d.slot 1).state = .valid ∧ d.sealer.strikeSid = none := by
  decide

/-- The words of a strike request: high and low, below and at two ticks ahead, as the registers take them. -/
theorem test_witness_strike_words : (0 * 2 ^ 32 + 1) % 2 ^ 48 < 0 + 2 ∧ 0 + 2 ≤ (0xFFFF * 2 ^ 32 + 0xFFFFFFFF) % 2 ^ 48 := by decide

/-! Boom, power, resets and observation. -/

/-- A controller with port 3 as a test needs it, at tick 12,500. -/
def tPort (p : Port) : State :=
  tServe (fun c => { (c.setBit Reg.boomCtrl 0 true).setPort 3 p with time := { c.time with tick := 12500 } })

/-- Ports: each phase, each deadline at its tick and one tick before it. -/
theorem test_witness_ports :
    let at_ := fun (ph : PortPhase) (since : Nat) => ((tPort { Port.off with phase := ph, since := since }).chip.port 3)
    (at_ .train 11250).phase = .train ∧ (at_ .train 11250).since + 1250 ≤ 12500 ∧ 12500 < (at_ .train 11251).since + 1250 ∧ (at_ .keying 11250).phase = .keying ∧
    (at_ .down 0).phase = .down ∧ (at_ .down 0).since + 12500 ≤ 12500 ∧ 12500 < (at_ .down 1).since + 12500 ∧ (tPort Port.off).chip.bit Reg.boomCtrl 0 = true ∧
    Env.ref.part.full = true ∧ (at_ .up 0).phase ≠ .fenced ∧ (at_ .fenced 0).phase = .fenced ∧ (at_ .off 0).phase ≠ .train ∧
    ({ Env.ref with boom := ⟨0, [0xFFFF, 0xFFFF, 0xFFFF, 7], []⟩ } : Env).declaresPort 3 = true := by decide

/-- A neighbour that is as declared, and one that is not. -/
theorem test_witness_keying :
    let e : Env := { Env.ref with boom := ⟨0, [0xFFFF, 0xFFFF, 0xFFFF, 7], [[], [], [], [1, 2]]⟩ }
    (([1, 2] : List Byte) = e.boom.fp.getD 3 [] ∧ 7 = e.boom.nb.getD 3 0xFFFF ∧ true = true) ∧ ¬ (([1, 3] : List Byte) = e.boom.fp.getD 3 [] ∧ 7 = e.boom.nb.getD 3 0xFFFF) := by
  decide

/-- Frames of a port that is up: nothing unacknowledged, a window with one frame, acknowledgements that are late, and 138 slots. -/
theorem test_witness_frames :
    let p : Port := { Port.off with phase := .up, slot := 138, ackTick := 12496, unacked := [⟨0, 0, .idle⟩], rx := 2 ^ 32 + 5 }
    let q : Port := { p with unacked := [] }
    p.phase = .up ∧ p.unacked ≠ [] ∧ p.ackTick + 4 ≤ 12500 ∧ 12499 < p.ackTick + 4 ∧ p.resend = none ∧ p.unacked.length < 276 ∧ q.queue = [] ∧ q.tx < 2 ^ 64 - 1 ∧
    (∃ g ∈ p.unacked, g.slot + 138 ≤ p.slot) ∧ (∀ g ∈ ([⟨0, 1, .idle⟩] : List SentFrame), p.slot < g.slot + 138) ∧ p.rx % 2 ^ 32 = 5 ∧ p.rx % 2 ^ 32 ≠ 6 ∧
    Chip.reset.boom.parent ≠ some 3 ∧ p.child = false ∧ (∀ x ∈ ({ p with phase := .keying } : Port).kx, ¬ (x.1 = 2 ∧ x.2.1 = 0)) := by decide

/-- Roots that a frame may carry and may not, and a service message. -/
theorem test_witness_frame_bodies :
    let ok := fun (node root level : Nat) => decide (¬ (root = node ∧ level ≠ 0) ∧ ¬ (level = 0 ∧ root ≠ node))
    ok 5 5 0 = true ∧ ok 5 3 1 = true ∧ ok 5 5 1 = false ∧ ok 5 3 0 = false ∧ (⟨0, 1, 0, 5, 0, 0, 0, []⟩ : SvcMsg).dir ≠ 1 := by decide

/-- Services: no request, a package with a parent, a barrier that it has entered, reports that are due and not, and a reset that is agreed on. -/
theorem test_witness_services :
    let v : Svc := ⟨1, 9, 0, [2, 3], 12500, 0, 0, true, false, false⟩
    let s := tPort { Port.off with phase := .up }
    let c : Chip := { s.chip with boom := { s.chip.boom with parent := some 3, svcs := [v] } }
    s.env.part.full = true ∧ c.boom.request = none ∧ ({ c with boom := { c.boom with request := some (0, none) } } : Chip).boom.request ≠ none ∧
    c.boom.parent = some 3 ∧ c.svc 1 = some v ∧ v.self = true ∧ c.boom.svcs = [v] ∧ 3 ∈ v.due ∧ v.dueTick ≤ c.tick ∧ (c.port 3).phase = .up ∧ (∃ k ∈ v.due, k ≠ 3) ∧
    (∀ v ∈ s.chip.boom.svcs, v.self = false ∨ 3 ∉ v.due ∨ c.tick < v.dueTick) ∧ c.boom.resetTick = none ∧
    ({ c with boom := { c.boom with resetTick := some 12500 } } : Chip).boom.resetTick = some 12500 ∧ 12500 ≤ c.tick ∧ 12499 < 12500 ∧ c.sealReady = false ∧
    ({ c with boom := { c.boom with align := 1 } } : Chip).boom.align = 1 ∧ 15 < 2 ^ 15 := by decide

/-- Points and requests: a point that stands, falls and rises; votes; requests that are too wide, below the floor, and good. -/
theorem test_witness_points :
    let c := (tServe id).chip
    let low := c.setBit Reg.pmuCtrl 0 true
    let high : Chip := { c with pmu := { c.pmu with point := 1 } }
    let slow : Chip := { c with pmu := { c.pmu with point := 3 } }
    c.pmu.dvfs = none ∧ c.pmu.flush = none ∧ c.pmu.ps < 4 ∧ c.voted = false ∧ c.wantPoint = c.pmu.point ∧ high.pmu.point < high.wantPoint ∧ slow.wantPoint < slow.pmu.point ∧
    low.bit Reg.pmuCtrl 0 = true ∧ c.bit Reg.pmuCtrl 0 = false ∧ (c.setReg Reg.pmuSvote 1).voted = true ∧ c.pmu.req = none ∧ (4 < 5 ∧ 3 < 4 ∧ 7 < 8) ∧
    c.contracts = [] ∧ (c.setContract 3 (some ⟨0, 1, false, 7, 5, 0, 0, 0, 0⟩)).contracts ≠ [] ∧ c.fld Reg.calFloor 1 0 = 2 := by decide

/-- The wake timer at its tick, cleared, and at another tick. -/
theorem test_witness_timer :
    let c := (tPort Port.off).chip
    (c.setReg Reg.pmuTimerLo 12500).reg Reg.pmuTimerLo + c.fld Reg.pmuTimerHi 15 0 * 2 ^ 32 = c.tick ∧ c.reg Reg.pmuTimerLo + c.fld Reg.pmuTimerHi 15 0 * 2 ^ 32 = 0 ∧
    (c.setReg Reg.pmuTimerLo 1).reg Reg.pmuTimerLo ≠ c.tick := by decide

/-- PS3 and PS4: entries that may begin and may not, commit points, entries that the cores hold up for 125 ticks, exits. -/
theorem test_witness_states :
    let c := (tServe (fun c => { (c.setBit Reg.pmuCtrl 0 true) with pmu := { c.pmu with target := 3 } })).chip
    let e : Chip := { c with pmu := { c.pmu with phase := .entering } }
    let f : Chip := { c with pmu := { c.pmu with ps := 3, target := 4 } }
    let g : Chip := { f with pmu := { f.pmu with phase := .entering, commitDone := false } }
    let h : Chip := { g with pmu := { g.pmu with commits := [0, 1, 2, 3] }, kerf := { g.kerf with wardens := [0, 2, 4, 6].map (fun w => (w, { WardenCore.fresh with waiting := true })) } }
    c.bit Reg.pmuCtrl 0 = true ∧ c.pmu.phase = .steady ∧ c.pmu.ps < 3 ∧ 3 ≤ c.wantState ∧ c.pkgIdle = true ∧ c.pmu.flush = none ∧ c.contracts = [] ∧
    (∀ g ∈ c.map.groups, g.phase ≠ .filling) ∧ (tServe id).chip.wantState < 3 ∧ e.pmu.phase = .entering ∧ e.quiet = true ∧ f.pmu.ps = 3 ∧ f.wantState = 4 ∧
    g.inPs4Entry = true ∧ g.coresReady = false ∧ h.inPs4Entry = true ∧ h.coresReady = true ∧ g.tick < g.pmu.entryTick + 125 ∧ 0 + 125 ≤ 125 ∧ g.pmu.req = none := by decide

/-- Exits: one that runs from PS4, one from PS3, and none. -/
theorem test_witness_exits :
    let x := fun (ps : Nat) => (tServe (fun c => { c with pmu := { c.pmu with ps := ps, phase := .exiting, target := 2 } })).chip
    (x 4).pmu.phase = .exiting ∧ (x 4).pmu.ps = 4 ∧ (x 3).pmu.ps = 3 ∧ (x 3).pmu.target < 3 ∧ (tServe id).chip.pmu.phase ≠ .exiting ∧ WakeSource.boom ≠ WakeSource.timer := by decide

/-- Supplies: the cap of PS0 and one above it, the 125th tick, a change that runs, packages that are there and not, a flush that runs and none. -/
theorem test_witness_supplies :
    let c := (tServe id).chip
    let d : Dvfs := ⟨1, 2, none, 0⟩
    55000 ≤ [55000, 40000, 25000, 2500, 180].getD c.pmu.ps 55000 ∧ [55000, 40000, 25000, 2500, 180].getD c.pmu.ps 55000 < 55001 ∧ c.pmu.capRun < 124 ∧ 124 ≤ 124 ∧
    c.pmu.dvfs = none ∧ ({ c with pmu := { c.pmu with dvfs := some d } } : Chip).pmu.dvfs = some d ∧ d.effect = none ∧ c.pmu.req = none ∧
    State.reset.chip.rcu.phase = .inReset ∧ c.rcu.phase ≠ .inReset ∧ c.pmu.flush = none ∧ c.pmu.ps < 3 ∧ c.map.refugeHeld = false ∧ c.pmu.refLost = false ∧
    Env.ref.hasPackage (.region 3) = true ∧ ({ Env.ref with part := .crn7064 } : Env).hasPackage (.region 3) = false := by decide

/-- The thermal model at work and at rest, sensors, inputs and codes at their limits, and a node that is critical. -/
theorem test_witness_thermal :
    let c := ((tServe id).chip.setBit Reg.thmCtrl 0 true).setBit Reg.calCtrl 0 true
    State.reset.chip.modelsRun = false ∧ c.modelsRun = true ∧ c.bit Reg.calCtrl 0 = true ∧ (31 < 32 ∧ Env.ref.hasSensor 31 = true ∧ c.pmu.ps < 3) ∧
    (-(2 ^ 31) ≤ (2 ^ 31 - 1 : Int) ∧ (2 ^ 31 - 1 : Int) < 2 ^ 31) ∧ (32 ≤ 32 ∨ Env.ref.hasSensor 32 = false) ∧ (28 ≤ (⟨28, 0⟩ : AdcSample).input) ∧
    ((⟨9, 0xFFF⟩ : AdcSample).input < 10 ∧ (⟨9, 0xFFF⟩ : AdcSample).code % 4096 = 0xFFF) ∧
    ((⟨2, 0xFFE⟩ : AdcSample).input < 3 ∧ 0 < (⟨2, 0xFFE⟩ : AdcSample).code % 4096 ∧ (⟨2, 0xFFE⟩ : AdcSample).code % 4096 < 0xFFF) ∧
    c.thm.trip = false ∧ c.rcu.phase ≠ .inReset ∧ c.pmu.flush = none ∧ c.map.refugeHeld = false := by decide

/-- A silicon node at 2,000 degrees is critical. -/
theorem test_witness_trip : ((tServe (fun c => { c with thm := { c.thm with nodes := Env.ref.siNodes.map (fun k => (k, 2000 * 65536)) } })).chip.siCrit Env.ref) = true := by decide

/-- Resets: outside one, in one of each kind, the pin low and high, a flush that runs. -/
theorem test_witness_resets :
    let c := (tServe id).chip
    let f : Flush := ⟨5, 0, 0⟩
    c.rcu.phase ≠ .inReset ∧ c.pmu.flush = none ∧ c.pmu.ps < 3 ∧ c.map.refugeHeld = false ∧ State.reset.chip.rcu.phase = .inReset ∧ State.reset.chip.rcu.cause ≠ 0 ∧
    State.reset.chip.rcu.kind ≠ 1 ∧ State.reset.chip.rcu.rstLow = false ∧ ({ c.rcu with rstLow := true } : RcuState).rstLow = true ∧ 0 - 0 < 2 ^ 32 ∧
    ({ c with pmu := { c.pmu with flush := some f } } : Chip).pmu.flush = some f ∧ (2 ≤ 2 ∧ 7 ≤ 7) ∧ State.reset.fuse.lifecycle = .blank ∧
    (tServe id).fuse.lifecycle ≠ .blank ∧ (⟨0, false⟩ : Access).secure = false := by decide

/-- A start that reaches the check of DRAM. -/
def tBoot : BootReport := ⟨true, 0, false, false, 0, true, false, 0, [], [], [], []⟩

/-- Start-up: one that may begin and one that may not; records that are right and wrong; hold-up that suffices and that is short. -/
theorem test_witness_start_up :
    let c := State.reset.chip
    let weak : Env := { Env.ref with power := { refPower with holdMj := 1 } }
    let short : Env := { Env.ref with board := { refBoard with vid := 255, modes := [] } }
    let b := c.leaveReset.bootFirmware false tBoot
    c.mayStart = true ∧ (tServe id).chip.mayStart = false ∧ Env.ref.recordsOk = true ∧ short.recordsOk = false ∧ (b.loadRecords Env.ref).holdUpOk Env.ref = true ∧
    (b.loadRecords weak).holdUpOk weak = false ∧ weak.recordsOk = true ∧ tBoot.firmwareOk = true ∧ tBoot.optionBlockOk = true ∧ tBoot.dramOk = false ∧
    c.key.locked = false ∧ State.reset.fuse.kill = false := by decide

/-- Tick steps: a tick at the present one, the one after it, and after the calendar has been enabled. -/
theorem test_witness_tick_step : (0 * 2 ^ 32 + 0) % 2 ^ 48 ≤ State.reset.chip.tick ∧ State.reset.chip.tick < (0 * 2 ^ 32 + 1) % 2 ^ 48 ∧
    State.reset.chip.rcu.calSince = false ∧ ({ State.reset.chip.rcu with calSince := true } : RcuState).calSince = true := by decide

/-- Observation: a period that ends and one that goes on, messages that wait and that do not, the tick mark's tick, and CC.EN. -/
theorem test_witness_observation :
    let c := (tHost (fun c => { c with
      obs := { c.obs with pba := [(0, 2047)], unmasked := [(0, 3)] }
      map := { c.map with formed := true } })).chip
    let d : Chip := { c with time := { c.time with tick := 125000 } }
    let m : Chip := { c with map := { c.map with mark := 62501 } }
    c.tick < c.obs.tallyEnd ∧ d.obs.tallyEnd ≤ d.tick ∧ (c.func 0).present = true ∧ (c.func 1).present = false ∧ (2047 < 2048 ∧ 2048 ≤ 2048) ∧
    (0, 2047) ∈ c.obs.pba ∧ (0, 2047) ∉ c.obs.unmasked ∧ (0, 5) ∉ c.obs.pba ∧ (0, 5) ∉ c.obs.unmasked ∧ c.obs.pend = [] ∧ m.tick + 62500 < m.map.mark ∧
    c.map.mark ≤ c.tick + 62500 ∧ c.map.formed = true ∧ c.held = false ∧ c.rcu.phase ≠ .inReset ∧ (c.func 0).phase = .enabled ∧ (c.func 0).ccEn = false ∧
    ({ tFn with ccEn := true } : Fn).ccEn = true ∧ c.fld Reg.logFlCur 9 0 < 1023 := by decide
end Sys2Proof.Machine
end

section
/-! SUPPORT. Scope and control space: fields bit by bit (R12, R43), accesses of absent units (R5), the identity registers (R4, R32-R34), and the state
after reset (R14, R374, R462). -/

namespace Sys2Proof.Machine

/-! Bit fields, bit by bit. -/

theorem testBit_bitsOf (v hi lo i : Nat) : (bitsOf v hi lo).testBit i = (decide (i < hi + 1 - lo) && v.testBit (i + lo)) := by
  rw [bitsOf, Nat.testBit_mod_two_pow, Nat.testBit_div_two_pow]

/-- The three parts of a word with a field put: the bits above the field, the field, the bits below it. -/
theorem putBits_eq_parts (v hi lo x : Nat) :
    putBits v hi lo x = 2 ^ lo * (2 ^ (hi + 1 - lo) * (v / 2 ^ lo / 2 ^ (hi + 1 - lo)) + x % 2 ^ (hi + 1 - lo)) + v % 2 ^ lo := by
  have hlow := Nat.div_add_mod v (2 ^ lo)
  have hfield := Nat.div_add_mod (v / 2 ^ lo) (2 ^ (hi + 1 - lo))
  rw [← hfield] at hlow
  unfold putBits bitsOf
  rw [Nat.mul_add] at hlow ⊢
  rw [Nat.mul_comm (_ % _) (2 ^ lo), Nat.mul_comm (x % _) (2 ^ lo)]
  omega

/-- A put field shows the value's bits, and every bit outside stands. -/
theorem testBit_putBits (v hi lo x i : Nat) :
    (putBits v hi lo x).testBit i = if lo ≤ i ∧ i ≤ hi then x.testBit (i - lo) else v.testBit i := by
  rw [putBits_eq_parts, Nat.testBit_two_pow_mul_add _ (Nat.mod_lt _ (by positivity)),
    Nat.testBit_two_pow_mul_add _ (Nat.mod_lt _ (by positivity))]
  by_cases hlo : i < lo
  · have hout : ¬ (lo ≤ i ∧ i ≤ hi) := by omega
    simp [hlo, hout, Nat.testBit_mod_two_pow]
  · by_cases hhi : i ≤ hi
    · have hin : lo ≤ i ∧ i ≤ hi := by omega
      have hlt : i - lo < hi + 1 - lo := by omega
      simp [hlo, hin, hlt, Nat.testBit_mod_two_pow]
    · have hout : ¬ (lo ≤ i ∧ i ≤ hi) := by omega
      have hge : ¬ i - lo < hi + 1 - lo := by omega
      have hsum : i - lo - (hi + 1 - lo) + (hi + 1 - lo) + lo = i := by omega
      simp [hlo, hout, hge, Nat.testBit_div_two_pow, hsum]

theorem testBit_putBits_outside {hi lo i : Nat} (h : ¬ (lo ≤ i ∧ i ≤ hi)) (v x : Nat) : (putBits v hi lo x).testBit i = v.testBit i := by
  rw [testBit_putBits, if_neg h]

theorem testBit_putBits_inside {hi lo i : Nat} (h : lo ≤ i ∧ i ≤ hi) (v x : Nat) : (putBits v hi lo x).testBit i = x.testBit (i - lo) := by
  rw [testBit_putBits, if_pos h]

/-- Bit `i` of a word stands in its field at `i - lo`. -/
theorem testBit_bitsOf_inside {hi lo i : Nat} (h : lo ≤ i ∧ i ≤ hi) (v : Nat) : (bitsOf v hi lo).testBit (i - lo) = v.testBit i := by
  have hlt : i - lo < hi + 1 - lo := by omega
  have hsum : i - lo + lo = i := by omega
  simp [testBit_bitsOf, hlt, hsum]

theorem land_add_ldiff (m n : Nat) : (m &&& n) + Nat.ldiff m n = m := by
  induction m using Nat.binaryRec generalizing n with
  | zero => exact Nat.eq_of_testBit_eq fun i => by simp [Nat.testBit_ldiff]
  | bit b m ih =>
    induction n using Nat.bitCasesOn with
    | bit d n =>
      have := ih n
      rw [Nat.land_bit, Nat.ldiff_bit, Nat.bit_val, Nat.bit_val, Nat.bit_val]
      cases b <;> cases d <;> simp <;> omega

/-- Taking away the bits that two numbers share clears them. -/
theorem testBit_sub_land (m n i : Nat) : (m - (m &&& n)).testBit i = (m.testBit i && !n.testBit i) := by
  have hdiff : m - (m &&& n) = Nat.ldiff m n := by have := land_add_ldiff m n; omega
  rw [hdiff, Nat.testBit_ldiff]

/-! What a write does to a field, by access code (R12, R43). -/

/-- The field takes the value. -/
def RegField.fits (f : RegField) (v : Nat) : Prop := f.min ≤ bitsOf v f.hi f.lo ∧ bitsOf v f.hi f.lo ≤ f.max

theorem RegField.write_keeps {f : RegField} (h : f.acc = .ro ∨ f.acc = .rc ∨ f.acc = .st) (locked : Bool) (old v : Nat) :
    f.write locked old v = old := by
  rcases h with h | h | h <;> simp [RegField.write, h]

theorem RegField.write_locked {f : RegField} (h : f.acc = .rwl) (old v : Nat) : f.write true old v = old := by
  simp [RegField.write, h]

theorem RegField.write_w1s {f : RegField} (h : f.acc = .w1s) (locked : Bool) (old v : Nat) :
    f.write locked old v = putBits old f.hi f.lo (bitsOf old f.hi f.lo ||| bitsOf v f.hi f.lo) := by
  simp [RegField.write, h]

theorem RegField.write_w1c {f : RegField} (h : f.acc = .w1c) (locked : Bool) (old v : Nat) :
    f.write locked old v = putBits old f.hi f.lo (bitsOf old f.hi f.lo - (bitsOf old f.hi f.lo &&& bitsOf v f.hi f.lo)) := by
  simp [RegField.write, h]

theorem RegField.write_rw {f : RegField} {locked : Bool} (h : f.acc = .rw ∨ f.acc = .rws ∨ (f.acc = .rwl ∧ locked = false)) {v : Nat} (hv : f.fits v)
    (old : Nat) : f.write locked old v = putBits old f.hi f.lo (bitsOf v f.hi f.lo) := by
  obtain ⟨hmin, hmax⟩ := hv
  rcases h with h | h | ⟨h, hl⟩ <;> simp [RegField.write, *]

theorem RegField.write_outside_limits {f : RegField} (h : f.acc = .rw ∨ f.acc = .rws ∨ f.acc = .rwl) {v : Nat} (hv : ¬ f.fits v) (locked : Bool)
    (old : Nat) : f.write locked old v = old := by
  unfold RegField.fits at hv
  rcases h with h | h | h <;> simp [RegField.write, h, hv]

/-- Whatever its access code, a write leaves the word or puts the field. -/
theorem RegField.write_eq_old_or_putBits (f : RegField) (locked : Bool) (old v : Nat) :
    f.write locked old v = old ∨ ∃ x, f.write locked old v = putBits old f.hi f.lo x := by
  cases h : f.acc with
  | ro | rc | st => exact .inl (RegField.write_keeps (by simp [h]) locked old v)
  | w1s => exact .inr ⟨_, RegField.write_w1s h locked old v⟩
  | w1c => exact .inr ⟨_, RegField.write_w1c h locked old v⟩
  | rw | rws =>
    by_cases hv : f.fits v
    · exact .inr ⟨_, RegField.write_rw (by simp [h]) hv old⟩
    · exact .inl (RegField.write_outside_limits (by simp [h]) hv locked old)
  | rwl =>
    cases locked with
    | true => exact .inl (RegField.write_locked h old v)
    | false =>
      by_cases hv : f.fits v
      · exact .inr ⟨_, RegField.write_rw (by simp [h]) hv old⟩
      · exact .inl (RegField.write_outside_limits (by simp [h]) hv false old)

theorem RegField.stage_of_not_staged {f : RegField} (h : f.acc ≠ .st) (old v : Nat) : f.stage old v = old := by
  unfold RegField.stage
  split
  · contradiction
  · rfl

theorem RegField.stage_st {f : RegField} (h : f.acc = .st) {v : Nat} (hv : f.fits v) (old : Nat) :
    f.stage old v = putBits old f.hi f.lo (bitsOf v f.hi f.lo) := by
  obtain ⟨hmin, hmax⟩ := hv
  simp [RegField.stage, *]

/-- Settles O20: the written word is the old one or the old one with the field put, and a put field is read bit by bit. -/
theorem registerFieldWrites : Obligations.RegisterFieldWrites := by
  intro f locked old v i _ x new inside fits
  refine ⟨fun hout => ?_, fun h => RegField.write_keeps h locked old v, fun h hin => ?_, fun h hin => ?_, fun h hv hin => ?_,
    fun h hv => RegField.write_outside_limits h hv locked old, fun h hl => ?_, fun h => RegField.stage_of_not_staged h old v, fun h hv hin => ?_⟩
  · rcases f.write_eq_old_or_putBits locked old v with h | ⟨y, h⟩
    · exact congrArg (·.testBit i) h
    · exact (congrArg (·.testBit i) h).trans (testBit_putBits_outside hout old y)
  · rw [show new = _ from RegField.write_w1c h locked old v, testBit_putBits_inside hin, testBit_sub_land, testBit_bitsOf_inside hin,
      testBit_bitsOf_inside hin]
  · rw [show new = _ from RegField.write_w1s h locked old v, testBit_putBits_inside hin, Nat.testBit_or, testBit_bitsOf_inside hin,
      testBit_bitsOf_inside hin]
  · rw [show new = _ from RegField.write_rw h hv old, testBit_putBits_inside hin, testBit_bitsOf_inside hin]
  · subst hl
    exact RegField.write_locked h old v
  · rw [RegField.stage_st h hv, testBit_putBits_inside hin, testBit_bitsOf_inside hin]

/-! Accesses of absent units (R5). -/

theorem exec_absentUnitAccess (acc : Access) (a : Nat) (wr : Option Word) (s : State) :
    exec (.absentUnitAccess acc a wr) s = .next (access acc a 4 (wr.map (fun w => w.toNat)) s) := rfl

theorem target_absent {s : State} {a : Nat} (h : absentAt s.env.part a = true) (acc : Access) (width : Nat) (write : Bool) :
    target s acc a width write = .nothing := by
  simp [target, h]

theorem busRead_absent {s : State} {a : Nat} (h : absentAt s.env.part a = true) (acc : Access) (width : Nat) : busRead acc a width s = .ok 0 s := by
  simp [busRead, target_absent h]

theorem busWrite_absent {s : State} {a : Nat} (h : absentAt s.env.part a = true) (acc : Access) (width v : Nat) :
    busWrite acc a width v s = .ok 0 s := by
  simp [busWrite, target_absent h]

theorem debugAccess_absent {s : State} {a : Nat} (h : absentAt s.env.part a = true) (hr : debugReaches s a = true) (width : Nat) (wr : Option Nat) :
    debugAccess a width wr s = answer 0 cstOk s := by
  cases wr <;> simp [debugAccess, hr, busRead_absent h, busWrite_absent h]

/-- An access of an absent unit answers 0 and OK and does nothing else: a warden core's always, the debug window's where it reaches (R31). -/
theorem access_absent {s : State} {acc : Access} {a : Nat} (h : absentAt s.env.part a = true) (hr : acc.who < 8 ∨ debugReaches s a = true)
    (width : Nat) (wr : Option Nat) : access acc a width wr s = answer 0 cstOk s := by
  unfold access
  split_ifs with hw
  · exact debugAccess_absent h (hr.resolve_left (by omega)) width wr
  · cases wr <;> simp [busRead_absent h, busWrite_absent h]

/-- G2 and G3 of a CRN-7064. -/
theorem absentAt_region {p : Part} {a : Nat} (hp : p = .crn7064) (hlo : 0x18000000 ≤ a) (hhi : a < 0x20000000) : absentAt p a = true := by
  have hbase : 0x10000000 ≤ a := by omega
  have hregion : 2 ≤ (a - 0x10000000) / 0x4000000 := by omega
  simp [absentAt, Part.regions, hp, hbase, hhi, hregion]

/-- The Boom block of a CRN-7128S. -/
theorem absentAt_boom {p : Part} {a : Nat} (hp : p = .crn7128S) (hlo : 0x600000 ≤ a) (hhi : a < 0x700000) : absentAt p a = true := by
  simp [absentAt, Part.full, hp, hlo, hhi]

/-- The squeeze registers of a CRN-7128S. -/
theorem absentAt_squeeze {p : Part} {a : Nat} (hp : p = .crn7128S) (hbase : 0x10000000 ≤ a) (hend : a < 0x20000000)
    (hlo : 0x80003C ≤ a % 0x4000000) (hhi : a % 0x4000000 < 0x800040) : absentAt p a = true := by
  simp [absentAt, Part.full, hp, hbase, hend, hlo, hhi]

theorem State.locked_eq_false {s : State} (h : s.fuse.lifecycle = .blank ∨ s.fuse.lifecycle = .provisioned) : s.locked = false := by
  rcases h with h | h <;> simp [State.locked, h]

/-- In BLANK and PROVISIONED the debug window reaches an address of the hub or of a region beyond the S blocks (R31). -/
theorem debugReaches_of_open {s : State} {a : Nat} (h : s.fuse.lifecycle = .blank ∨ s.fuse.lifecycle = .provisioned) (hlo : 0x400000 ≤ a)
    (hhi : a < 0x20000000) : debugReaches s a = true := by
  have hblock : ¬ a < 0x400000 := by omega
  simp [debugReaches, secureBlock, State.locked_eq_false h, hhi, hblock]

/-- Settles O24: each of the ranges is absent, and the debug window reaches each while it is open. -/
theorem absentUnitAccesses : Obligations.AbsentUnitAccesses := by
  intro s acc a wr hacc hrange
  have hunit : absentAt s.env.part a = true ∧ 0x400000 ≤ a ∧ a < 0x20000000 := by
    rcases hrange with ⟨hp, hlo, hhi⟩ | ⟨hp, hlo, hhi⟩ | ⟨hp, hbase, hend, hlo, hhi⟩
    · exact ⟨absentAt_region hp hlo hhi, by omega, hhi⟩
    · exact ⟨absentAt_boom hp hlo hhi, by omega, by omega⟩
    · exact ⟨absentAt_squeeze hp hbase hend hlo hhi, by omega, hend⟩
  obtain ⟨habsent, hlo, hhi⟩ := hunit
  rw [exec_absentUnitAccess, access_absent habsent (hacc.imp_right fun h => debugReaches_of_open h hlo hhi)]
  rfl

/-! The identity registers (R4, R32-R35). -/

theorem exec_clearOnRead (acc : Access) (a : Nat) (s : State) : exec (.clearOnRead acc a) s = .next (access acc a 4 none s) := rfl

/-- A warden core that reads a register word is answered with the word. -/
theorem exec_clearOnRead_word {s : State} {acc : Access} {a : Nat} (hw : acc.who < 8) (ht : target s acc a 4 false = .word) :
    exec (.clearOnRead acc a) s = .next (answer (readWord acc a s).1 0x00 (readWord acc a s).2) := by
  have hcore : ¬ 8 ≤ acc.who := by omega
  simp only [exec_clearOnRead, access, if_neg hcore, busRead, ht]
  rfl

theorem target_idBlock (s : State) (acc : Access) {a : Nat} (ha : a < 0x10000) (h4 : a % 4 = 0) (write : Bool) : target s acc a 4 write = .word := by
  have habsent : absentAt s.env.part a = false := by
    have h1 : ¬ 0x10000000 ≤ a := by omega
    have h2 : ¬ 0x600000 ≤ a := by omega
    simp [absentAt, h1, h2]
  have hblock : secureBlock a = false := by
    have h1 : ¬ 0x300000 ≤ a := by omega
    simp [secureBlock, h1]
  have hhub : a < 0x20000000 := by omega
  have h1 : ¬ (a < 0x10000000 ∧ 0xC00000 ≤ a) := by omega
  have h2 : ¬ 0x980000 ≤ a := by omega
  have h3 : ¬ 0x10000000 ≤ a := by omega
  simp [target, regTarget, habsent, hblock, hhub, h4, h1, h2, h3]

theorem windowAt_idBlock {a : Nat} (ha : a < 0x10000) : windowAt a = .none := by
  have h1 : ¬ 0x301000 ≤ a := by omega
  have h2 : ¬ 0x410000 ≤ a := by omega
  have h3 : ¬ 0x981000 ≤ a := by omega
  have h4 : ¬ 0x990000 ≤ a := by omega
  have h5 : ¬ 0x10000000 ≤ a := by omega
  simp [windowAt, h1, h2, h3, h4, h5]

theorem readWord_idBlock (s : State) (acc : Access) {a i : Nat} {r : RegRow} (ha : a < 0x10000) (hf : findReg a = some (r, i)) (hh : r.half = .one) :
    (readWord acc a s).1 = idView s a (s.chip.storedWord r a) := by
  have hhub : ¬ 0x10000000 ≤ a := by omega
  have hlow : a < 0x10000000 := by omega
  simp [readWord, wordAt, windowAt_idBlock ha, hf, hh, hhub, regView, hlow, hubView, ha]

/-- A read of a 32-bit register of the ID block answers what the block shows, in every state and to both worlds. -/
theorem exec_clearOnRead_idBlock (s : State) {acc : Access} {a i : Nat} {r : RegRow} (hw : acc.who < 8) (ha : a < 0x10000) (h4 : a % 4 = 0)
    (hf : findReg a = some (r, i)) (hh : r.half = .one) :
    ∃ t, exec (.clearOnRead acc a) s = .next t ∧ t.chip.resp = ⟨BitVec.ofNat 32 (idView s a (s.chip.storedWord r a)), 0x00⟩ :=
  ⟨_, exec_clearOnRead_word hw (target_idBlock s acc ha h4 false), by rw [← readWord_idBlock s acc ha hf hh]; rfl⟩

/-- Settles O27: the four registers stand in the ID block, whose view holds their words for each part. -/
theorem identityRegisters : Obligations.IdentityRegisters := by
  intro s acc hw reads
  have hread : ∀ {a i : Nat} {r : RegRow}, a < 0x10000 → a % 4 = 0 → findReg a = some (r, i) → r.half = .one →
      reads a (idView s a (s.chip.storedWord r a)) := fun ha h4 hf hh => exec_clearOnRead_idBlock s hw ha h4 hf hh
  refine ⟨?_, hread (by decide) rfl rfl rfl, ?_, hread (by decide) rfl rfl rfl⟩
  · have hword : reads Reg.idPart s.env.part.idWord := hread (by decide) rfl rfl rfl
    cases hp : s.env.part <;> exact hp ▸ hword
  · have hword : reads Reg.capUnits s.env.part.capUnits := hread (by decide) rfl rfl rfl
    cases hp : s.env.part <;> exact hp ▸ hword

/-! The state after reset (R14, R374, R462). -/

theorem Chip.reset_slot (k : Nat) : Chip.reset.slot k = KeySlot.empty := rfl

theorem Chip.reset_func (f : Nat) : Chip.reset.func f = Fn.absent := rfl

theorem Chip.reset_port (n : Nat) : Chip.reset.port n = Port.off := rfl

theorem Chip.reset_warden (w : Nat) : Chip.reset.warden w = WardenCore.fresh := rfl

theorem State.reset_mem_wf : State.reset.mem.wf = true := rfl

theorem State.reset_fuse_sound : State.reset.fuse.sound = true := rfl

/-- Settles O3: the tables of the state after reset are empty, so each entry is its default. -/
theorem afterReset : Obligations.AfterReset := by
  refine ⟨rfl, State.reset_mem_wf, State.reset_fuse_sound, rfl, rfl, rfl, rfl, rfl, rfl, rfl, rfl, Chip.reset_reg, fun k => ?_, Mem.read_nil,
    fun f => ?_, fun n => ?_, fun w => ?_⟩
  · exact congrArg KeySlot.state (Chip.reset_slot k)
  · exact congrArg Fn.phase (Chip.reset_func f)
  · exact congrArg Port.phase (Chip.reset_port n)
  · exact congrArg WardenCore.fenced (Chip.reset_warden w)

end Sys2Proof.Machine
end

section
/-! SUPPORT. What the commands leave alone beside the controller and the memories: the queue, the option block's records and the fuses. -/

namespace Sys2Proof.Machine

/-! What lies beside the controller and the memories. -/

/-- The queue, the option block's records and the fuses: what a command on the controller and the memories leaves alone. -/
def State.beside (s : State) : List Instr × Env × Fuses := (s.pending, s.env, s.fuse)

/-- A state with another controller and other memories. -/
theorem beside_with (s : State) (m : Memories) (c : Chip) : { s with mem := m, chip := c }.beside = s.beside := rfl

theorem beside_ite {s a b : State} {p : Prop} [Decidable p] (ha : a.beside = s.beside) (hb : b.beside = s.beside) :
    (if p then a else b).beside = s.beside := by
  split
  · exact ha
  · exact hb

theorem flushDlog_beside (s : State) : (flushDlog s).beside = s.beside := beside_with ..

/-! Operations on the controller. -/

theorem bpmAllocOp_beside (s : State) : (bpmAllocOp s).beside = s.beside := beside_with ..

theorem bpmRefOp_beside (release : Bool) (s : State) : (bpmRefOp release s).beside = s.beside := beside_with ..

theorem windowWrite_beside (off : Nat) (v : Word) (s : State) : (windowWrite off v s).beside = s.beside := by
  unfold windowWrite
  split
  · exact beside_with ..
  · rfl

theorem keyCommand_beside (op slot page index : Nat) (s : State) : (keyCommand op slot page index s).beside = s.beside :=
  beside_ite rfl (beside_with ..)

theorem keyPage_beside (op pay : Nat) (cmd : Cmd) (payload : List Byte) (s : State) : (keyPage op pay cmd payload s).beside = s.beside := by
  unfold keyPage
  refine beside_ite (beside_with ..) ?_
  split <;> exact beside_with ..

theorem krfLoadGo_beside (unload : Bool) (slot : Nat) (s : State) : (krfLoadGo unload slot s).beside = s.beside :=
  beside_ite rfl (beside_with ..)

theorem takeOver_beside (w : Nat) (s : State) : (takeOver w s).beside = s.beside := beside_with ..

theorem wardenFail_beside (w cause : Nat) (s : State) : (wardenFail w cause s).beside = s.beside :=
  beside_ite (beside_with ..) (beside_ite ((takeOver_beside ..).trans (beside_with ..)) (beside_with ..))

theorem ps3Commit_beside (s : State) : (ps3Commit s).beside = s.beside := beside_ite (beside_with ..) rfl

theorem resetWipe_beside (s : State) : (resetWipe s).beside = s.beside := beside_with ..

theorem flushEnd_beside (s : State) : (flushEnd s).beside = s.beside := by
  unfold flushEnd
  split
  · rfl
  · exact (resetWipe_beside _).trans (beside_with ..)

theorem flushAtOnce_beside (s : State) : (flushAtOnce s).beside = s.beside := beside_ite (flushEnd_beside s) rfl

theorem resetSource_beside (cause : Nat) (s : State) : (resetSource cause s).beside = s.beside :=
  beside_ite (beside_with ..) ((flushAtOnce_beside _).trans (beside_with ..))

theorem systemReset_beside (s : State) : (systemReset s).beside = s.beside := by
  unfold systemReset
  dsimp only
  split
  · rfl
  · exact beside_ite rfl (beside_ite ((resetSource_beside ..).trans (beside_with ..)) (beside_with ..))

theorem powerTrigger_beside (cause : Nat) (s : State) : (powerTrigger cause s).beside = s.beside :=
  beside_ite (beside_with ..) ((beside_with ..).trans ((flushAtOnce_beside _).trans (beside_with ..)))

theorem powerCycle_beside (s : State) : (powerCycle s).beside = s.beside := (resetWipe_beside _).trans (beside_with ..)

theorem thermalLimits_beside (old : Chip) (s : State) : (thermalLimits old s).beside = s.beside :=
  beside_ite rfl (beside_ite ((resetSource_beside ..).trans (beside_with ..)) (beside_with ..))

theorem unitFail_beside (u : UnitRef) (s : State) : (unitFail u s).beside = s.beside := by
  cases u with
  | channelParity n | channelWatchdog n | tfLane g lane | sramWord h => exact beside_with ..
  | decLane k lane | decComplex k | bandTable k | kerfCore k => exact beside_ite (beside_with ..) rfl
  | wardenCore w => exact beside_ite rfl (wardenFail_beside ..)

/-! Transform rings. -/

theorem State.put_beside (s : State) (p : Place) (bs : List Byte) : (s.put p bs).beside = s.beside := beside_with ..

theorem tringBack_beside (g q : Nat) (d : Desc) (st r0 r1 r2 : Nat) (bad : Bool) (s : State) :
    (tringBack g q d st r0 r1 r2 bad s).beside = s.beside := beside_ite (beside_with ..) (beside_with ..)

theorem tringFetch_beside (g q : Nat) (s : State) : (tringFetch g q s).beside = s.beside :=
  beside_ite (beside_with ..) (beside_ite (beside_with ..) (beside_ite (beside_with ..)
    (beside_ite ((tringBack_beside ..).trans (beside_with ..)) (beside_with ..))))

theorem tqFetch_beside (g : Nat) (s : State) : (tqFetch g s).beside = s.beside := by
  unfold tqFetch
  refine beside_ite rfl ?_
  split
  · rfl
  · exact tringFetch_beside ..

/-- A descriptor's operation leaves alone what its run does. -/
theorem ringOp_beside {run : QArgs → State → QRes} (hrun : ∀ x t, (run x t).s.beside = t.beside) (g q op key : Nat)
    (bad zero limit : Chip → Desc → Bool) (s : State) : (ringOp g q op key bad zero limit run s).beside = s.beside := by
  unfold ringOp
  dsimp only
  split
  · rfl
  · refine beside_ite rfl (beside_ite rfl ?_)
    split
    · refine (tringBack_beside ..).trans ?_
      rw [beside_with]
      split
      · rfl
      · exact hrun _ _
    · exact tringBack_beside ..

theorem wrote_beside (x : QArgs) (bs : List Byte) (r2 : Nat) (s : State) : (wrote x bs r2 s).s.beside = s.beside := State.put_beside ..

theorem QRes.beside_ite {s : State} {a b : QRes} {p : Prop} [Decidable p] (ha : a.s.beside = s.beside) (hb : b.s.beside = s.beside) :
    (if p then a else b).s.beside = s.beside := by
  split
  · exact ha
  · exact hb

theorem gatherRun_beside (x : QArgs) (s : State) : (gatherRun x s).s.beside = s.beside :=
  QRes.beside_ite rfl (QRes.beside_ite rfl (QRes.beside_ite rfl (wrote_beside ..)))

theorem sqzCRun_beside (lane : Nat) (x : QArgs) (s : State) : (sqzCRun lane x s).s.beside = s.beside :=
  QRes.beside_ite (beside_with ..)
    (QRes.beside_ite ((State.put_beside ..).trans (beside_with ..)) ((wrote_beside ..).trans (beside_with ..)))

theorem sqzXRun_beside (lane : Nat) (x : QArgs) (s : State) : (sqzXRun lane x s).s.beside = s.beside := by
  refine QRes.beside_ite (beside_with ..) ?_
  split
  · exact (State.put_beside ..).trans (beside_with ..)
  · exact (State.put_beside ..).trans (beside_with ..)

theorem gcmERun_beside (x : QArgs) (s : State) : (gcmERun x s).s.beside = s.beside := by
  refine QRes.beside_ite rfl ?_
  split
  · rfl
  · exact (wrote_beside ..).trans (beside_with ..)

theorem gcmDRun_beside (x : QArgs) (s : State) : (gcmDRun x s).s.beside = s.beside :=
  QRes.beside_ite rfl (QRes.beside_ite (wrote_beside ..) (State.put_beside ..))

/-! Register writes. -/

theorem chipDo_beside (f : Chip → Chip) (s : State) : (chipDo f s).beside = s.beside := beside_with ..

theorem itemsDo_beside (f : Chip → Chip) (s : State) : (itemsDo f s).beside = s.beside := (flushDlog_beside _).trans (beside_with ..)

theorem plainWrite_beside (r : RegRow) (a v : Nat) (s : State) : (plainWrite r a v s).beside = s.beside := chipDo_beside ..

theorem onBit_beside {f : State → State} (hf : ∀ t, (f t).beside = t.beside) (v i : Nat) (s : State) : (onBit v i f s).beside = s.beside :=
  beside_ite (hf s) rfl

theorem onBit_chipDo_beside (v i : Nat) (f : Chip → Chip) (s : State) : (onBit v i (chipDo f) s).beside = s.beside :=
  onBit_beside (chipDo_beside f) v i s

theorem commitOn_beside (b : CommitBlk) (r : RegRow) (a v : Nat) (s : State) : (commitOn b r a v s).beside = s.beside :=
  (onBit_chipDo_beside ..).trans (plainWrite_beside ..)

theorem rcuWrite_beside (acc : Access) (r : RegRow) (a o v : Nat) (s : State) : (rcuWrite acc r a o v s).beside = s.beside := by
  unfold rcuWrite
  split
  · exact beside_ite (resetSource_beside ..) (beside_ite (resetSource_beside ..) rfl)
  · exact plainWrite_beside ..

theorem pmuWrite_beside (acc : Access) (r : RegRow) (a o v : Nat) (s : State) : (pmuWrite acc r a o v s).beside = s.beside := by
  unfold pmuWrite
  split
  · exact (chipDo_beside ..).trans (plainWrite_beside ..)
  · exact beside_ite (chipDo_beside ..) (plainWrite_beside ..)
  · exact beside_ite (plainWrite_beside ..) rfl
  · exact plainWrite_beside ..

theorem calWrite_beside (r : RegRow) (a o v : Nat) (s : State) : (calWrite r a o v s).beside = s.beside := by
  unfold calWrite
  split
  · exact (chipDo_beside ..).trans (commitOn_beside ..)
  · exact chipDo_beside ..
  · exact beside_ite (chipDo_beside ..) (plainWrite_beside ..)
  · exact beside_ite (chipDo_beside ..) (plainWrite_beside ..)
  · exact chipDo_beside ..
  · exact chipDo_beside ..
  · exact plainWrite_beside ..

theorem hostWrite_beside (r : RegRow) (a o v : Nat) (s : State) : (hostWrite r a o v s).beside = s.beside :=
  beside_ite (itemsDo_beside ..) (beside_ite ((chipDo_beside ..).trans (plainWrite_beside ..)) (plainWrite_beside ..))

theorem dlogWrite_beside (k : Nat) (r : RegRow) (a o v : Nat) (s : State) : (dlogWrite k r a o v s).beside = s.beside := by
  unfold dlogWrite
  split
  · exact (onBit_chipDo_beside ..).trans ((onBit_chipDo_beside ..).trans (plainWrite_beside ..))
  · exact beside_ite rfl (plainWrite_beside ..)
  · exact onBit_chipDo_beside ..
  · exact plainWrite_beside ..

theorem fnWrite_beside (r : RegRow) (a o v : Nat) (s : State) : (fnWrite r a o v s).beside = s.beside := by
  unfold fnWrite
  split
  · exact commitOn_beside ..
  · exact beside_ite (itemsDo_beside ..) (plainWrite_beside ..)
  · exact beside_ite (plainWrite_beside ..) rfl
  · exact beside_ite (dlogWrite_beside ..) (plainWrite_beside ..)

theorem keyWrite_beside (r : RegRow) (a o v : Nat) (s : State) : (keyWrite r a o v s).beside = s.beside := by
  unfold keyWrite
  split
  · exact beside_ite (keyCommand_beside ..) (plainWrite_beside ..)
  · exact commitOn_beside ..
  · exact plainWrite_beside ..

theorem bpmWrite_beside (r : RegRow) (a o v : Nat) (s : State) : (bpmWrite r a o v s).beside = s.beside := by
  unfold bpmWrite
  split
  · exact commitOn_beside ..
  · exact onBit_beside bpmAllocOp_beside ..
  · exact (onBit_beside (bpmRefOp_beside _) ..).trans (plainWrite_beside ..)
  · exact onBit_chipDo_beside ..
  · exact plainWrite_beside ..

theorem boomWrite_beside (r : RegRow) (a o v : Nat) (s : State) : (boomWrite r a o v s).beside = s.beside := by
  unfold boomWrite
  split
  · exact (chipDo_beside ..).trans (commitOn_beside ..)
  · exact beside_ite (chipDo_beside ..) (plainWrite_beside ..)
  · exact beside_ite ((onBit_chipDo_beside ..).trans (onBit_chipDo_beside ..)) (plainWrite_beside ..)

theorem thmWrite_beside (r : RegRow) (a o v : Nat) (s : State) : (thmWrite r a o v s).beside = s.beside := by
  unfold thmWrite
  split
  · exact (chipDo_beside ..).trans (commitOn_beside ..)
  · exact plainWrite_beside ..

theorem logWrite_beside (acc : Access) (r : RegRow) (a o v : Nat) (s : State) : (logWrite acc r a o v s).beside = s.beside := by
  unfold logWrite
  split
  · exact (chipDo_beside ..).trans (plainWrite_beside ..)
  · exact (chipDo_beside ..).trans (plainWrite_beside ..)
  · exact (onBit_chipDo_beside ..).trans (commitOn_beside ..)
  · exact (chipDo_beside ..).trans (plainWrite_beside ..)
  · exact plainWrite_beside ..

theorem krfWrite_beside (acc : Access) (r : RegRow) (a o v : Nat) (s : State) : (krfWrite acc r a o v s).beside = s.beside := by
  refine beside_ite ?_ (beside_ite ?_ (onBit_chipDo_beside ..))
  · split
    · exact beside_ite (krfLoadGo_beside ..) (plainWrite_beside ..)
    · exact beside_ite (chipDo_beside ..) (plainWrite_beside ..)
    · exact plainWrite_beside ..
  · split
    · exact onBit_chipDo_beside ..
    · exact onBit_chipDo_beside ..
    · exact plainWrite_beside ..

theorem routeWrite_beside (acc : Access) (r : RegRow) (a e v : Nat) (s : State) : (routeWrite acc r a e v s).beside = s.beside :=
  beside_ite rfl (beside_ite rfl (beside_ite rfl (beside_ite (chipDo_beside ..) (chipDo_beside ..))))

theorem irqWrite_beside (acc : Access) (r : RegRow) (a o v : Nat) (s : State) : (irqWrite acc r a o v s).beside = s.beside :=
  beside_ite (routeWrite_beside ..) (beside_ite (chipDo_beside ..) (plainWrite_beside ..))

theorem mapWrite_beside (r : RegRow) (a o v : Nat) (s : State) : (mapWrite r a o v s).beside = s.beside := by
  unfold mapWrite
  split
  · exact commitOn_beside ..
  · exact beside_ite (chipDo_beside ..) (plainWrite_beside ..)
  · exact beside_ite (itemsDo_beside ..) (plainWrite_beside ..)
  · exact plainWrite_beside ..

theorem hubWrite_beside (acc : Access) (r : RegRow) (a v : Nat) (s : State) : (hubWrite acc r a v s).beside = s.beside :=
  beside_ite rfl <| beside_ite (rcuWrite_beside ..) <| beside_ite (pmuWrite_beside ..) <| beside_ite (calWrite_beside ..) <|
  beside_ite (hostWrite_beside ..) <| beside_ite (fnWrite_beside ..) <| beside_ite (keyWrite_beside ..) <|
  beside_ite (beside_ite (commitOn_beside ..) (plainWrite_beside ..)) <| beside_ite (bpmWrite_beside ..) <|
  beside_ite (beside_ite (commitOn_beside ..) (plainWrite_beside ..)) <| beside_ite (boomWrite_beside ..) <|
  beside_ite (thmWrite_beside ..) <| beside_ite (logWrite_beside ..) <| beside_ite (krfWrite_beside ..) <|
  beside_ite (irqWrite_beside ..) (mapWrite_beside ..)

theorem chWrite_beside (n : Nat) (r : RegRow) (a o v : Nat) (s : State) : (chWrite n r a o v s).beside = s.beside := by
  unfold chWrite
  split
  · exact (onBit_beside (itemsDo_beside _) ..).trans (onBit_chipDo_beside ..)
  · exact beside_ite (plainWrite_beside ..) rfl
  · exact plainWrite_beside ..

theorem decWrite_beside (k : Nat) (r : RegRow) (a o v : Nat) (s : State) : (decWrite k r a o v s).beside = s.beside := by
  unfold decWrite
  split
  · exact (itemsDo_beside ..).trans (commitOn_beside ..)
  · exact plainWrite_beside ..

theorem ringWrite_beside (acc : Access) (g q : Nat) (r : RegRow) (a o v : Nat) (s : State) : (ringWrite acc g q r a o v s).beside = s.beside := by
  unfold ringWrite
  dsimp only
  split
  · exact (onBit_chipDo_beside ..).trans (plainWrite_beside ..)
  · exact beside_ite rfl (plainWrite_beside ..)
  · exact beside_ite rfl (plainWrite_beside ..)
  · exact plainWrite_beside ..
  · exact plainWrite_beside ..

theorem tfWrite_beside (acc : Access) (g : Nat) (r : RegRow) (a o v : Nat) (s : State) : (tfWrite acc g r a o v s).beside = s.beside :=
  beside_ite (commitOn_beside ..) (beside_ite (chipDo_beside ..) (beside_ite (ringWrite_beside ..) (plainWrite_beside ..)))

theorem regionWrite_beside (acc : Access) (g : Nat) (r : RegRow) (a o v : Nat) (s : State) : (regionWrite acc g r a o v s).beside = s.beside :=
  beside_ite (beside_ite (chWrite_beside ..) (decWrite_beside ..)) (beside_ite (tfWrite_beside ..) (plainWrite_beside ..))

theorem regWrite_beside (acc : Access) (r : RegRow) (a v : Nat) (s : State) : (regWrite acc r a v s).beside = s.beside :=
  beside_ite (hubWrite_beside ..) (regionWrite_beside ..)

theorem wideAct_beside (lo v : Nat) (s : State) : (wideAct lo v s).beside = s.beside :=
  beside_ite (chipDo_beside ..) (beside_ite (chipDo_beside ..) rfl)

theorem writeLow_beside (acc : Access) (rl rh : RegRow) (lo v : Nat) (s : State) : (writeLow acc rl rh lo v s).beside = s.beside :=
  (wideAct_beside ..).trans ((plainWrite_beside ..).trans ((plainWrite_beside ..).trans (chipDo_beside ..)))

theorem bandWrite_beside (k o v : Nat) (s : State) : (bandWrite k o v s).beside = s.beside := beside_ite rfl (chipDo_beside ..)

/-! Reads. -/

theorem readWord_beside (acc : Access) (a : Nat) (s : State) : (readWord acc a s).2.beside = s.beside := by
  unfold readWord
  split
  · split
    · exact chipDo_beside ..
    · exact chipDo_beside ..
  · rfl

theorem busRead_beside {acc : Access} {a width v : Nat} {s t : State} (h : busRead acc a width s = .ok v t) : t.beside = s.beside := by
  unfold busRead at h
  split at h <;> cases h
  case h_3 => exact readWord_beside ..
  all_goals rfl

theorem csrRead_beside (w n : Nat) (t : State) : (csrRead w n t).2.beside = t.beside := by
  unfold csrRead
  dsimp only
  split_ifs
  case pos h => exact beside_with ..
  all_goals rfl

theorem csrWrite_beside (w n v : Nat) (t : State) : (csrWrite w n v t).beside = t.beside :=
  beside_ite (beside_with ..) (beside_ite rfl (beside_ite (beside_with ..) (beside_ite (beside_with ..) (beside_with ..))))

end Sys2Proof.Machine
end

section
/-! SUPPORT. The fuses (R35, R243, R350, R372-R376): the ways in which a command moves them, and the commands that do. -/

namespace Sys2Proof.Machine

/-! What a command does to the fuses. -/

/-- Every way in which a command leaves or moves the fuses (R243, R350, R372-R376). -/
inductive Fuses.Move (f : Fuses) : Fuses → Prop
  | stay : Fuses.Move f f
  | anchor {a : Nat} (h : Tab.get (fun _ => []) f.anchors a = []) (bs : List Byte) :
    Fuses.Move f { f with anchors := Tab.set (fun _ => []) f.anchors a bs }
  | version (keyid svn : Nat) : Fuses.Move f { f with svn := updateAt f.svn keyid (Nat.max svn) }
  | release : Fuses.Move f { f with nonce := f.nonce + 1 }
  | provision (h : f.lifecycle = .blank) : Fuses.Move f { f with provisioned := true }
  | hold (h : f.lifecycle = .deployed ∨ f.lifecycle = .hold) (hc : f.lcCount < 4096) :
    Fuses.Move f { f with nonce := f.nonce + 1, lcCount := f.lcCount + 1 }
  | retire (h : f.lifecycle = .deployed ∨ f.lifecycle = .provisioned) : Fuses.Move f { f with nonce := f.nonce + 1, retired := true }
  | deploy (h : f.lifecycle = .provisioned) : Fuses.Move f { f with nonce := f.nonce + 1, deployed := true }
  | kill (h : f.lifecycle ≠ .hold) : Fuses.Move f { f with kill := true, retired := true }

theorem Fuses.sound_iff (f : Fuses) :
    f.sound = true ↔ (f.deployed = false → f.lcCount = 0) ∧ f.lcCount ≤ 4096 ∧ (f.kill = true → f.retired = true) := by
  cases hd : f.deployed <;> cases hk : f.kill <;> simp [Fuses.sound, hd, hk, and_assoc]

theorem Fuses.lifecycle_blank_iff (f : Fuses) :
    f.lifecycle = .blank ↔ f.retired = false ∧ f.deployed = false ∧ f.provisioned = false := by
  unfold Fuses.lifecycle
  split_ifs <;> simp_all

theorem Fuses.lifecycle_provisioned_iff (f : Fuses) :
    f.lifecycle = .provisioned ↔ f.retired = false ∧ f.deployed = false ∧ f.provisioned = true := by
  unfold Fuses.lifecycle
  split_ifs <;> simp_all

theorem Fuses.lifecycle_deployed_iff (f : Fuses) :
    f.lifecycle = .deployed ↔ f.retired = false ∧ f.deployed = true ∧ f.lcCount % 2 = 0 := by
  unfold Fuses.lifecycle
  split_ifs <;> simp_all

theorem Fuses.lifecycle_hold_iff (f : Fuses) :
    f.lifecycle = .hold ↔ f.retired = false ∧ f.deployed = true ∧ f.lcCount % 2 = 1 := by
  unfold Fuses.lifecycle
  split_ifs <;> simp_all

theorem Fuses.lifecycle_retired_iff (f : Fuses) : f.lifecycle = .retired ↔ f.retired = true := by
  unfold Fuses.lifecycle
  split_ifs <;> simp_all

theorem updateAt_eq_set {α : Type} (xs : List α) (i : Nat) (g : α → α) (d : α) : updateAt xs i g = xs.set i (g (xs.getD i d)) := by
  induction xs generalizing i with
  | nil => cases i <;> rfl
  | cons x t ih =>
    cases i with
    | zero => rfl
    | succ i => exact congrArg (x :: ·) (ih i)

/-- An update that lowers no element lowers none of the list's. -/
theorem getD_le_updateAt {g : Nat → Nat} (hg : ∀ x, x ≤ g x) (xs : List Nat) (i j : Nat) : xs.getD j 0 ≤ (updateAt xs i g).getD j 0 := by
  rw [updateAt_eq_set _ _ _ 0]
  by_cases hij : i = j
  · subst hij
    by_cases hi : i < xs.length
    · simpa [hi] using hg xs[i]
    · simp [hi]
  · simp [hij]

/-- Nothing that the fuses held is lost. -/
theorem Fuses.Move.keeps {f g : Fuses} (h : f.Move g) : f.Keeps g := by
  have hrefl : ∀ f : Fuses, f.Keeps f := fun f => ⟨id, id, id, id, Nat.le_refl _, Nat.le_refl _, fun _ => Nat.le_refl _, fun _ _ => rfl⟩
  obtain ⟨hp, hd, hr, hk, hc, hn, hs, ha⟩ := hrefl f
  cases h with
  | stay => exact hrefl f
  | anchor hfree bs =>
    refine ⟨hp, hd, hr, hk, hc, hn, hs, fun b hb => ?_⟩
    rw [Tab.get_set_ne _ _ (by rintro rfl; exact hb hfree)]
  | version keyid svn => exact ⟨hp, hd, hr, hk, hc, hn, fun j => getD_le_updateAt (Nat.le_max_right svn) _ _ _, ha⟩
  | release => exact ⟨hp, hd, hr, hk, hc, Nat.le_succ _, hs, ha⟩
  | provision _ => exact ⟨fun _ => rfl, hd, hr, hk, hc, hn, hs, ha⟩
  | hold _ _ => exact ⟨hp, hd, hr, hk, Nat.le_succ _, Nat.le_succ _, hs, ha⟩
  | retire _ => exact ⟨hp, hd, fun _ => rfl, hk, hc, Nat.le_succ _, hs, ha⟩
  | deploy _ => exact ⟨hp, fun _ => rfl, hr, hk, hc, Nat.le_succ _, hs, ha⟩
  | kill _ => exact ⟨hp, hd, fun _ => rfl, fun _ => rfl, hc, hn, hs, ha⟩

/-- The premise of the lifecycle's moves is kept. -/
theorem Fuses.Move.sound {f g : Fuses} (h : f.Move g) (hf : f.sound = true) : g.sound = true := by
  rw [Fuses.sound_iff] at hf ⊢
  obtain ⟨hcount, hmax, hkill⟩ := hf
  cases h with
  | stay | anchor _ _ | version _ _ | release | provision _ => exact ⟨hcount, hmax, hkill⟩
  | hold hlife hc =>
    have hd : f.deployed = true := by
      rcases hlife with h | h
      · exact ((Fuses.lifecycle_deployed_iff f).mp h).2.1
      · exact ((Fuses.lifecycle_hold_iff f).mp h).2.1
    exact ⟨fun h => absurd (hd.symm.trans h) (by decide), hc, hkill⟩
  | retire _ => exact ⟨hcount, hmax, fun _ => rfl⟩
  | deploy _ => exact ⟨fun h => absurd h Bool.noConfusion, hmax, hkill⟩
  | kill _ => exact ⟨hcount, hmax, fun _ => rfl⟩

/-- The lifecycle stays, with its count, or takes a transition of R374's table. -/
theorem Fuses.Move.lifecycle {f g : Fuses} (h : f.Move g) (hf : f.sound = true) :
    (g.lifecycle = f.lifecycle ∧ g.lcCount = f.lcCount) ∨ (f.lifecycle, g.lifecycle) ∈ lifecycleMoves := by
  rw [Fuses.sound_iff] at hf
  obtain ⟨hcount, hmax, hkill⟩ := hf
  cases h with
  | stay | anchor _ _ | version _ _ | release => exact .inl ⟨rfl, rfl⟩
  | provision h =>
    obtain ⟨hr, hd, hp⟩ := (Fuses.lifecycle_blank_iff f).mp h
    have hg : Fuses.lifecycle { f with provisioned := true } = .provisioned := (Fuses.lifecycle_provisioned_iff _).mpr ⟨hr, hd, rfl⟩
    exact .inr (by rw [h, hg]; decide)
  | hold h _ =>
    rcases h with h | h
    · obtain ⟨hr, hd, he⟩ := (Fuses.lifecycle_deployed_iff f).mp h
      have hg : Fuses.lifecycle { f with nonce := f.nonce + 1, lcCount := f.lcCount + 1 } = .hold :=
        (Fuses.lifecycle_hold_iff _).mpr ⟨hr, hd, by simp only; omega⟩
      exact .inr (by rw [h, hg]; decide)
    · obtain ⟨hr, hd, he⟩ := (Fuses.lifecycle_hold_iff f).mp h
      have hg : Fuses.lifecycle { f with nonce := f.nonce + 1, lcCount := f.lcCount + 1 } = .deployed :=
        (Fuses.lifecycle_deployed_iff _).mpr ⟨hr, hd, by simp only; omega⟩
      exact .inr (by rw [h, hg]; decide)
  | retire h =>
    have hg : Fuses.lifecycle { f with nonce := f.nonce + 1, retired := true } = .retired := (Fuses.lifecycle_retired_iff _).mpr rfl
    rw [hg]
    rcases h with h | h <;> exact .inr (by rw [h]; decide)
  | deploy h =>
    obtain ⟨hr, hd, hp⟩ := (Fuses.lifecycle_provisioned_iff f).mp h
    have hg : Fuses.lifecycle { f with nonce := f.nonce + 1, deployed := true } = .deployed :=
      (Fuses.lifecycle_deployed_iff _).mpr ⟨hr, rfl, by simp only [hcount hd]⟩
    exact .inr (by rw [h, hg]; decide)
  | kill h =>
    have hg : Fuses.lifecycle { f with kill := true, retired := true } = .retired := (Fuses.lifecycle_retired_iff _).mpr rfl
    rw [hg]
    cases hl : f.lifecycle with
    | hold => exact absurd hl h
    | retired => exact .inl ⟨rfl, rfl⟩
    | blank | provisioned | deployed => exact .inr (by decide)

/-- No transition of the table leaves the lifecycle where it is. -/
theorem lifecycleMoves_irrefl : ∀ p ∈ lifecycleMoves, p.2 ≠ p.1 := by decide

/-! Commands that move the fuses. -/

/-- A command leaves the queue and the option block's records alone, and takes a move of the fuses. -/
def State.Moves (s t : State) : Prop := ∃ f, s.fuse.Move f ∧ t.beside = (s.pending, s.env, f)

theorem beside_fuse (s : State) (f : Fuses) (m : Memories) (c : Chip) :
    { s with fuse := f, mem := m, chip := c }.beside = (s.pending, s.env, f) := rfl

theorem State.Moves.of_beside {s t : State} (h : t.beside = s.beside) : s.Moves t := ⟨s.fuse, .stay, h⟩

theorem State.Moves.refl (s : State) : s.Moves s := .of_beside rfl

/-- What acts beside the fuses may come before a move. -/
theorem State.Moves.after {s t u : State} (hm : t.Moves u) (h : t.beside = s.beside) : s.Moves u := by
  obtain ⟨f, hf, hu⟩ := hm
  unfold State.beside at h
  obtain ⟨hp, he, hfu⟩ : t.pending = s.pending ∧ t.env = s.env ∧ t.fuse = s.fuse := by simpa using h
  exact ⟨f, hfu ▸ hf, by rw [hu, hp, he]⟩

/-- What acts beside the fuses may come after a move. -/
theorem State.Moves.andThen {s t u : State} (hm : s.Moves t) (h : u.beside = t.beside) : s.Moves u := by
  obtain ⟨f, hf, ht⟩ := hm
  exact ⟨f, hf, h.trans ht⟩

theorem State.Moves.ite {s a b : State} {p : Prop} [Decidable p] (ha : p → s.Moves a) (hb : ¬ p → s.Moves b) : s.Moves (if p then a else b) := by
  split
  · exact ha ‹_›
  · exact hb ‹_›

theorem adminOp_moves {f : State → State} (hf : ∀ t : State, t.Moves (f t)) (cmd : Cmd) (s : State) : s.Moves (adminOp cmd f s) :=
  .ite (fun _ => ((hf _).andThen (flushDlog_beside _)).after (beside_with ..)) (fun _ => .refl s)

theorem adminOp_beside_moves {f : State → State} (hf : ∀ t, (f t).beside = t.beside) (cmd : Cmd) (s : State) : s.Moves (adminOp cmd f s) :=
  adminOp_moves (fun t => .of_beside (hf t)) cmd s

/-- An anchor is programmed once (R373). -/
theorem keyAnchorWrite_moves (acc : Access) (a : Nat) (v : Word) (s : State) : s.Moves (keyAnchorWrite acc a v s) := by
  refine .ite (fun _ => .of_beside (beside_with ..)) (fun _ => .ite (fun _ => .of_beside (beside_with ..)) (fun _ => .ite
    (fun _ => .of_beside (beside_with ..)) (fun h => ?_)))
  exact ⟨_, .anchor (by_contra fun hne => h (.inl hne)) _, beside_fuse ..⟩

theorem lifecycleProvision_moves (s : State) : s.Moves (lifecycleProvision s) :=
  .ite (fun _ => .refl s) (fun h => ⟨_, .provision (not_not.mp h), (resetSource_beside ..).trans (beside_fuse ..)⟩)

theorem firmwareCommit_moves (cmd : Cmd) (ca fs keyid svn : Nat) (sigOk : Bool) (s : State) : s.Moves (firmwareCommit cmd ca fs keyid svn sigOk s) := by
  refine .ite (fun _ => .of_beside (beside_with ..)) (fun _ => .ite (fun _ => .of_beside (beside_with ..)) (fun _ => .ite
    (fun _ => .of_beside (beside_with ..)) (fun _ => .ite (fun _ => .of_beside (beside_with ..)) (fun _ => ?_))))
  refine ⟨_, ?_, beside_fuse ..⟩
  split
  · exact .version keyid svn
  · exact .stay

/-! Tokens (R372, R374). -/

/-- Where no check of a list fails with OK, an OK says that all pass. -/
theorem firstFail_eq_ok {l : List (Bool × Nat)} (hl : ∀ p ∈ l, p.2 ≠ cstOk) (h : firstFail l = cstOk) : ∀ p ∈ l, p.1 = false := by
  induction l with
  | nil => exact fun _ hp => absurd hp List.not_mem_nil
  | cons p l ih =>
    obtain ⟨b, st⟩ := p
    cases b with
    | true => exact absurd h (hl _ List.mem_cons_self)
    | false => exact List.forall_mem_cons.mpr ⟨rfl, ih (fun q hq => hl q (List.mem_cons_of_mem _ hq)) h⟩

/-- What an accepted token says of the fuses: its action is not forbidden, and a transition is not past the counter's end (R374). -/
theorem tokCheck_ok {s : State} {act : Nat} {tok : List Byte} (h : (tokCheck s act tok).1 = cstOk) :
    actForbidden s.fuse.lifecycle act = false ∧ (2 ≤ act → s.fuse.lcCount < 4096) := by
  have hall := firstFail_eq_ok (by simp [cstLife, cstBad, cstHold, cstKey, cstWrap, cstOk]) h
  simp only [List.forall_mem_cons, Bool.or_eq_false_iff, Bool.and_eq_false_iff, decide_eq_false_iff_not] at hall
  obtain ⟨hact, -, -, -, ⟨⟨⟨-, hcount⟩, -⟩, -⟩, -⟩ := hall

  exact ⟨hact, fun hlo => by omega⟩

/-- Step 1 of R375 takes a transition of the table, where its action is not forbidden. -/
theorem transition_moves {act : Nat} {s : State} (hlo : 2 ≤ act) (hhi : act ≤ 5) (hact : actForbidden s.fuse.lifecycle act = false)
    (hcount : s.fuse.lcCount < 4096) (tok : List Byte) : s.Moves (transition act tok s) := by
  obtain rfl | rfl | rfl | rfl : act = 2 ∨ act = 3 ∨ act = 4 ∨ act = 5 := by omega
  · exact ⟨_, .hold (.inl (by simpa [actForbidden] using hact)) hcount, beside_fuse ..⟩
  · exact ⟨_, .hold (.inr (by simpa [actForbidden] using hact)) hcount, beside_fuse ..⟩
  · exact ⟨_, .retire (by simpa [actForbidden, or_iff_not_imp_left] using hact), beside_fuse ..⟩
  · exact ⟨_, .deploy (by simpa [actForbidden] using hact), beside_fuse ..⟩

theorem tokenCmd_moves {act : Nat} (hlo : 1 ≤ act) (hhi : act ≤ 5) (cmd : Cmd) (tok : List Byte) (s : State) : s.Moves (tokenCmd act cmd tok s) := by
  refine .ite (fun _ => .of_beside (beside_with ..)) (fun _ => .ite (fun _ => .of_beside (beside_with ..)) (fun _ => ?_))
  refine .ite (fun _ => .of_beside (beside_with ..)) (fun hst => .ite (fun _ => ⟨_, .release, beside_fuse ..⟩) (fun hact => ?_))
  obtain ⟨hallowed, hcount⟩ := tokCheck_ok (not_not.mp hst)
  have htrans := transition_moves (s := { s with chip := s.chip.tokStat (tokCheck s act tok).1 (tokCheck s act tok).2 }) (by omega) hhi hallowed
    (hcount (by omega)) tok
  exact (htrans.andThen ((resetSource_beside ..).trans (beside_with ..))).after (beside_with ..)

/-! Alarms (R358, R376). -/

theorem alarmAction_kill {s : State} {bit : Nat} (h : alarmAction s bit = 3) : s.fuse.lifecycle ≠ .hold := by
  intro hl
  unfold alarmAction at h
  simp only [hl, and_true] at h
  split_ifs at h
  · exact absurd h (by decide)
  · contradiction

/-- The fuses that the KILL transition blows. -/
def Fuses.killed (f : Fuses) : Fuses := { f with kill := true, retired := true }

/-- An alarm leaves the fuses, or blows KILL outside HOLD. -/
theorem alarmOne_beside (bit : Nat) (s : State) : (alarmOne bit s).beside = s.beside ∨
    s.fuse.lifecycle ≠ .hold ∧ (alarmOne bit s).beside = (s.pending, s.env, s.fuse.killed) := by
  by_cases hact : alarmAction s bit = 3
  · refine .inr ⟨alarmAction_kill hact, ?_⟩
    simp only [alarmOne, hact, ne_eq, not_true_eq_false, if_false]
    split
    · exact beside_fuse ..
    · exact (resetSource_beside ..).trans (beside_fuse ..)
  · simp only [alarmOne, ne_eq, hact, not_false_eq_true, if_true]
    exact .inl (beside_with ..)

theorem alarmOne_moves (bit : Nat) (s : State) : s.Moves (alarmOne bit s) := by
  rcases alarmOne_beside bit s with h | ⟨hl, h⟩
  · exact .of_beside h
  · exact ⟨_, .kill hl, h⟩

/-- The second alarm of a count that has just reached 16 meets fuses that the first one left or blew: KILL is blown once. -/
theorem keyAlarm_moves (src : AlarmSource) (s : State) : s.Moves (keyAlarm src s) := by
  refine .ite (fun _ => ?_) (fun _ => alarmOne_moves _ s)
  rcases alarmOne_beside (alarmBit src) s with h | ⟨hl, h⟩
  · exact (alarmOne_moves 6 _).after h
  · refine ⟨_, .kill hl, ?_⟩
    obtain ⟨hp, he, hf⟩ : (alarmOne (alarmBit src) s).pending = s.pending ∧ (alarmOne (alarmBit src) s).env = s.env ∧
        (alarmOne (alarmBit src) s).fuse = s.fuse.killed := by simpa [State.beside] using h
    rcases alarmOne_beside 6 (alarmOne (alarmBit src) s) with h' | ⟨-, h'⟩
    · exact h'.trans h
    · rw [h', hp, he, hf]
      rfl

end Sys2Proof.Machine
end

section
/-! SUPPORT. Every command takes a move of the fuses, and the lifecycle follows its table (R374). -/

namespace Sys2Proof.Machine

/-! Accesses: only a write of an anchor's last word moves the fuses (R373). -/

theorem anchorWrite_moves (acc : Access) (o v : Nat) (s : State) : s.Moves (anchorWrite acc o v s) :=
  .ite (fun _ => keyAnchorWrite_moves ..) (fun _ => .ite (fun _ => .refl s) (fun _ => .of_beside (chipDo_beside ..)))

theorem writeWord_moves (acc : Access) (a v : Nat) (s : State) : s.Moves (writeWord acc a v s) := by
  unfold writeWord
  split
  · exact anchorWrite_moves ..
  · exact .of_beside (windowWrite_beside ..)
  · exact .of_beside (chipDo_beside ..)
  · exact .refl s
  · exact .of_beside (bandWrite_beside ..)
  · split
    · exact .refl s
    · split
      · exact .of_beside (chipDo_beside ..)
      · exact .of_beside (writeLow_beside ..)
      · exact .of_beside (regWrite_beside ..)

theorem busWrite_moves {acc : Access} {a width v r : Nat} {s t : State} (h : busWrite acc a width v s = .ok r t) : s.Moves t := by
  unfold busWrite at h
  split at h <;> cases h
  case h_3 => exact writeWord_moves ..
  case h_5 => exact .of_beside (beside_ite rfl (beside_with ..))
  case h_7 => exact .of_beside (beside_with ..)
  all_goals exact .refl s

theorem answer_beside (v st : Nat) (s : State) : (answer v st s).beside = s.beside := chipDo_beside ..

theorem debugAccess_moves (a width : Nat) (wr : Option Nat) (s : State) : s.Moves (debugAccess a width wr s) := by
  have hrefused : s.Moves (answer 0 cstOk (chipDo (fun c => c.raise0 303) s)) := .of_beside ((answer_beside ..).trans (chipDo_beside ..))
  refine .ite (fun _ => hrefused) (fun _ => ?_)
  cases wr with
  | none =>
    dsimp only
    split
    case h_1 v t h => exact .of_beside ((answer_beside ..).trans (busRead_beside h))
    case h_2 => exact hrefused
  | some w =>
    dsimp only
    split
    case h_1 v t h => exact (busWrite_moves h).andThen (answer_beside ..)
    case h_2 => exact hrefused

theorem access_moves (acc : Access) (a width : Nat) (wr : Option Nat) (s : State) : s.Moves (access acc a width wr s) := by
  refine .ite (fun _ => debugAccess_moves ..) (fun _ => ?_)
  have hbus : ∀ f : Chip → Chip, s.Moves (answer 0 cstBus (chipDo f s)) := fun f => .of_beside ((answer_beside ..).trans (chipDo_beside ..))
  cases wr with
  | none =>
    dsimp only
    split
    case h_1 v t h => exact .of_beside ((answer_beside ..).trans (busRead_beside h))
    case h_2 => exact hbus _
    case h_3 => exact .refl s
  | some w =>
    dsimp only
    split
    case h_1 v t h => exact (busWrite_moves h).andThen (answer_beside ..)
    case h_2 => exact hbus _
    case h_3 => exact .refl s

/-! The Kerf cores. -/

theorem putWarden_beside (s : State) (w : Nat) (x : WardenCore) : (s.putWarden w x).beside = s.beside := beside_with ..

theorem State.trap_beside (s : State) (w cause : Nat) (addr : Option Nat) (log : Bool) : (s.trap w cause addr log).beside = s.beside := beside_with ..

theorem State.awake_beside (s : State) (w : Nat) : (s.awake w).beside = s.beside := putWarden_beside ..

theorem onWarden_moves (f : WardenCore → WardenCore) (w : Nat) (t : State) : t.Moves (onWarden f w t) := .of_beside (putWarden_beside ..)

/-- No instruction of the data profile reaches the fuses. -/
theorem dataRun_beside (k cost : Nat) (g : Guard) (f : KCore → Invocation → KOut) (s : State) : (dataRun k cost g f s).beside = s.beside := by
  unfold dataRun
  split
  · rfl
  · refine beside_ite ?_ (beside_with ..)
    split
    · exact beside_with ..
    · exact beside_with ..
    · exact (flushDlog_beside _).trans (beside_with ..)
    · exact (flushDlog_beside _).trans (beside_with ..)

/-- An instruction of a warden core moves the fuses as its own effect does. -/
theorem wardenRun_moves {f : State → State} (hf : ∀ t : State, t.Moves (f t)) (w : Nat) (g : Guard) (illegal : Bool) (priv : WardenCore → Bool)
    (s : State) : s.Moves (wardenRun w g illegal priv f s) := by
  refine .ite (fun _ => .refl s) (fun _ => State.Moves.after ?_ (s.awake_beside w))
  dsimp only
  split
  · exact .of_beside (State.trap_beside ..)
  · exact .ite (fun _ => .of_beside (State.trap_beside ..)) (fun _ => .ite (fun _ => .of_beside (putWarden_beside ..)) (fun _ => .ite
      (fun _ => .of_beside (State.trap_beside ..)) (fun _ => hf _)))

theorem wardenRegs_moves (w : Nat) (g : Guard) (illegal : Bool) (f : KCore → KCore) (s : State) : s.Moves (wardenRegs w g illegal f s) :=
  wardenRun_moves (fun _ => .of_beside (putWarden_beside ..)) ..

theorem kerfRegs_moves (c cost : Nat) (g : Guard) (illegal : Bool) (f : KCore → KCore) (s : State) : s.Moves (kerfRegs c cost g illegal f s) :=
  .ite (fun _ => .of_beside (dataRun_beside ..)) (fun _ => wardenRegs_moves ..)

theorem dataOnly_moves (c cost : Nat) (g : Guard) (f : KCore → Invocation → KOut) (s : State) : s.Moves (dataOnly c cost g f s) :=
  .ite (fun _ => .of_beside (dataRun_beside ..)) (fun _ => wardenRun_moves .refl ..)

theorem controlOnly_moves {f : Nat → State → State} (hf : ∀ (w : Nat) (t : State), t.Moves (f w t)) (c : Nat) (g : Guard) (illegal : Bool)
    (priv : WardenCore → Bool) (s : State) : s.Moves (controlOnly c g illegal priv f s) :=
  .ite (fun _ => .refl s) (fun _ => wardenRun_moves (hf _) ..)

theorem wardenLoad_beside (w : Nat) (rd ra : BitVec 4) (imm : BitVec 15) (width : Nat) (t : State) :
    (wardenLoad w rd ra imm width t).beside = t.beside := by
  unfold wardenLoad
  dsimp only
  split
  · exact State.trap_beside ..
  · split
    case h_1 h => exact (putWarden_beside ..).trans (busRead_beside h)
    case h_2 => exact State.trap_beside ..
    case h_3 => rfl

theorem wardenStore_moves (w : Nat) (rd ra : BitVec 4) (imm : BitVec 15) (width : Nat) (t : State) :
    t.Moves (wardenStore w rd ra imm width t) := by
  unfold wardenStore
  dsimp only
  split
  · exact .of_beside (State.trap_beside ..)
  · split
    case h_1 h => exact (busWrite_moves h).after (putWarden_beside ..)
    case h_2 => exact .of_beside (State.trap_beside ..)
    case h_3 => exact .refl t

theorem kerfLoad_moves (c : Nat) (g : Guard) (rd ra : BitVec 4) (imm : BitVec 15) (width : Nat) (s : State) :
    s.Moves (kerfLoad c g rd ra imm width s) :=
  .ite (fun _ => .of_beside (dataRun_beside ..)) (fun _ => wardenRun_moves (fun _ => .of_beside (wardenLoad_beside ..)) ..)

theorem kerfStore_moves (c : Nat) (g : Guard) (rd ra : BitVec 4) (imm : BitVec 15) (width : Nat) (s : State) :
    s.Moves (kerfStore c g rd ra imm width s) :=
  .ite (fun _ => .of_beside (dataRun_beside ..)) (fun _ => wardenRun_moves (wardenStore_moves _ _ _ _ _) ..)

theorem casRun_moves (rd ra rb : BitVec 4) (w : Nat) (t : State) : t.Moves (casRun rd ra rb w t) := by
  unfold casRun
  dsimp only
  split
  · exact .of_beside (State.trap_beside ..)
  · split
    case h_1 v u h =>
      have hread : (u.putWarden w ((t.chip.warden w).setReg rd (BitVec.ofNat 64 v)).advance).beside = t.beside :=
        (putWarden_beside ..).trans (busRead_beside h)
      refine .ite (fun _ => .of_beside hread) (fun _ => ?_)
      split
      case h_1 hw => exact (busWrite_moves hw).after hread
      case h_2 => exact .of_beside (State.trap_beside ..)
      case h_3 => exact .refl t
    case h_2 => exact .of_beside (State.trap_beside ..)
    case h_3 => exact .refl t

/-! Outcomes. -/

/-- The outcome is a next state, which the fuses reach by a move. -/
def State.Answers (s : State) (o : Host.Outcome State Fault Refusal) : Prop := ∃ t, o = .next t ∧ s.Moves t

theorem State.Moves.answers {s t : State} (h : s.Moves t) : s.Answers (.next t) := ⟨t, rfl, h⟩

theorem beside_answers {s t : State} (h : t.beside = s.beside) : s.Answers (.next t) := (State.Moves.of_beside h).answers

theorem State.Answers.after {s t : State} {o : Host.Outcome State Fault Refusal} (ho : t.Answers o) (h : t.beside = s.beside) : s.Answers o := by
  obtain ⟨u, hu, hm⟩ := ho
  exact ⟨u, hu, hm.after h⟩

theorem onChip_answers (f : Chip → Chip) (s : State) : s.Answers (onChip f s) := beside_answers (beside_with ..)

theorem onHost_answers (f : Chip → Chip) (s : State) : s.Answers (onHost f s) := beside_answers ((flushDlog_beside _).trans (beside_with ..))

theorem onItems_answers (f : Chip → Chip) (s : State) : s.Answers (onItems f s) := onHost_answers ..

theorem adminChip_answers (cmd : Cmd) (f : State → Chip → Chip) (s : State) : s.Answers (adminChip cmd f s) :=
  (adminOp_beside_moves (fun _ => beside_with ..) cmd s).answers

theorem ioOp_answers (cmd : Cmd) (stops : State → List (Option (NStat × Nat))) (nsx lba : Nat) (run : State → Chip → Chip) (s : State) :
    s.Answers (ioOp cmd stops nsx lba run s) := onItems_answers ..

theorem zoneSend_answers (op : Nat) (cmd : Cmd) (nsid zslba : Nat) (all : Bool) (s : State) : s.Answers (zoneSend op cmd nsid zslba all s) :=
  ioOp_answers ..

theorem onNodes_answers (f : Chip → Chip) (s : State) : s.Answers (onNodes f s) :=
  beside_answers ((thermalLimits_beside ..).trans (beside_with ..))

theorem pfOnly_answers (cmd : Cmd) (f : State → Chip → Chip) (s : State) : s.Answers (pfOnly cmd f s) := adminChip_answers ..

theorem admin_answers (cmd : Cmd) (f : State → Chip → Chip) (s : State) : s.Answers (admin cmd f s) := adminChip_answers ..

theorem adminItems_answers (cmd : Cmd) (f : State → Chip → Chip) (s : State) : s.Answers (adminItems cmd f s) := admin_answers ..

theorem sanitize_answers (action : Nat) (cmd : Cmd) (s : State) : s.Answers (sanitize action cmd s) := admin_answers ..

theorem execBufferWindowAccess_answers (acc : Access) (off : Nat) (wr : Option Word) (s : State) :
    s.Answers (execBufferWindowAccess acc off wr s) := by
  unfold execBufferWindowAccess
  dsimp only
  split
  · exact beside_answers rfl
  · split
    · exact beside_answers ((beside_with ..).trans (windowWrite_beside ..))
    · exact beside_answers (beside_with ..)

theorem execImageEnvelopeCheck_answers (addr : Nat) (s : State) : s.Answers (execImageEnvelopeCheck addr s) := by
  unfold execImageEnvelopeCheck
  exact onChip_answers ..

theorem execHostDmaFailure_answers (what : DmaFault) (s : State) : s.Answers (execHostDmaFailure what s) := by
  unfold execHostDmaFailure
  split
  · exact onItems_answers ..
  · exact onChip_answers ..
  · exact onChip_answers ..

theorem execInvalidOpcode_answers (cmd : Cmd) (opc : Nat) (s : State) : s.Answers (execInvalidOpcode cmd opc s) := by
  unfold execInvalidOpcode
  split
  · exact adminChip_answers ..
  · exact onItems_answers ..

/-- Every command answers a next state, leaves the queue and the option block's records alone, and takes a move of the fuses. -/
theorem exec_answers (i : Instr) (s : State) : s.Answers (exec i s) := by
  cases i with dsimp only [exec]
  | tickBoundary | adminCompletion => exact onHost_answers ..
  | registerWrite | clearOnRead | reg64LowRead | reg64HighWrite | reg64LowWrite | busErrorAccess | absentUnitAccess | sealStrikeRequest
  | rcuTickStep =>
    exact (access_moves ..).answers
  | debugWindowAccess => exact (debugAccess_moves ..).answers
  | planAbandon | railAdcRound | siliconModelStep | sensorRead => exact onNodes_answers ..
  | shedStart | shedEnd | arrayReadEnd | suspendDone | resumeDone | lockEnd | collectorGrant | calAdmitTest | calAdmitBind | calAdmitRelease
  | calFloorWrite | calNrgBudgetWrite | calMaintRead | calMaintErase | calMaintMaintenance | calDbgSelWrite | chStart | rewriteQueuePop
  | firstSampleScan | patrolRead | mapPin | mapUnpin | bbtRead | bbtRemove | interruptEntry | slotDrainDone | krfBind | krfUnbind | krfLookup
  | wpCommit | wpCommitDone | mbxPost | mbxPop | tfLaneFence | tqResume | cmdFetch | ownershipAutoMove | miRequest | fnEnable | fnDrainReset
  | fnPause | fnResume | ccEnClear | shutdownNotification | dlogStart | dlogStop | dlogCut | atsInvalidate | keySlotDrained | keyVaultUpdated
  | epochStrikePeriodic | epochStrikeRequested | epochSigned | bufferAlloc | leakAuditSample | auditUnfence | dramCommandSlot | dramAgePromotion
  | dramRefresh | dramRecalibration | frameSlotSend | frameRetransmit | frameRxKx | frameRxIdle | frameRxRoot | frameRxTsync | frameRxSvc
  | boomPortTrained | boomKeyingDone | boomKeyingTimeout | boomPortRetry | boomPeerSlow | boomPortFence | boomPortUnfence | boomBroadcast
  | boomBarrier | boomSnapshot | boomSystemReset | svcReportTimeout | pmuSetState | pmuSetCeiling | ps4Entry | ps4CommitPoint | ps4EntryAbandon
  | wakeEvent | pmuTimerExpiry | ps4Exit | dvfsChange | vddSettled | vcorePgLow | capExceed | sensorCrossCheck | thermalStep | rstNHigh
  | tickMarkWrite | logFlClear | logFlCurWrite | logTyCurWrite | logCaptureAdvance | tallyPeriodEnd | tallyRestart | lockstepMismatch | refRestored
  | powerRecovery | ccEnSet | msixVectorUnmask | boomTrainingTimeout | entropyHealthChange => exact onChip_answers ..
  | statusPoll | completionCollected | dieTimeout | readAccept | dieBusyPost | reconstructXor | bringupEnd | bringupTimeout | chFence
  | codewordDecode | decLaneFence | groupPad | pageLoss | pageRebuildDone | mapFetchDone | gcMoveCommit | refreshMove | bbtAdd | invocationDispatch
  | invocationBudgetOverrun | hostLinkUp | hostLinkDown | doorbellWrite | ownershipSwap | formatUnitDone | sanitizeUnitDone | fnDisable
  | fnSquashReset | functionLevelReset | vfEnableChange | functionResetDone | drainTimeout | translationCompletion | translationTimeout
  | dramEccError | ps3Entry | ps3Exit | supplyTimeout | startUp | lockstepRestartDone | packageFault => exact onItems_answers ..
  | nop | clrv | add | sub | mul | and | or | xor | shl | shr | sar | minu | maxu | bins | popc | clz | addi | andi | ori | xori | shli | shri | sari
  | movi | movk | bext | cmp | cmpi | pset => exact (kerfRegs_moves ..).answers
  | ldb | ldh | ldw | ldd => exact (kerfLoad_moves ..).answers
  | stb | sth | stw | std => exact (kerfStore_moves ..).answers
  | sadd | emit | fail | undo | exit | abort | shuf | sqz | xts | hash | place | tag => exact (dataOnly_moves ..).answers
  | krfLoad | krfUnload => exact beside_answers (krfLoadGo_beside ..)
  | read | write | flush | writeZeroes | datasetManagement | zoneAppend | zoneOffline | setZoneDescriptorExt | zoneManagementReceive =>
    exact ioOp_answers ..
  | zoneOpen | zoneClose | zoneFinish | zoneReset => exact zoneSend_answers ..
  | createIoSq | createIoCq | deleteIoCq | setFeatures | getFeatures | setFeatureArbitration | setFeatureNumberOfQueues | setFeaturePowerManagement
  | setFeatureApst | setFeatureFdp | setFeatureReadContract | setFeatureOwnership | asyncEventRequest | firmwareImageDownload | formatNvm
  | sanitizeExitFailureMode | sanitizeOverwrite | nvmeMiSend | nvmeMiReceive => exact admin_answers ..
  | deleteIoSq | nvmeAbort | namespaceManagement | namespaceAttachment => exact adminItems_answers ..
  | getLogPage | getLogEmitRing | identify | rawSectorRangeSend | rawSectorReceive | dirtyLogReceive | securityProtocolInvalid =>
    exact adminChip_answers ..
  | sanitizeBlockErase | sanitizeCryptoErase => exact sanitize_answers ..
  | tokenChallenge | sealLogSeqSend | sealLogReceive | epochKeyObjectReceive | identityChainReceive => exact pfOnly_answers ..
  | keyGenerateXts | keyGenerateGcm | keyEraseIndex | keyRewrite | keyEraseSlot | keyReloadPage => exact beside_answers (keyCommand_beside ..)
  | plnNLow | vinTrip => exact beside_answers (powerTrigger_beside ..)
  | planCommit cycle =>
    exact beside_answers ((thermalLimits_beside ..).trans ((flushDlog_beside _).trans (beside_with ..)))
  | commitWrite acc blk => exact (access_moves ..).answers
  | wardenCoreFail c selfCheck => exact beside_answers (beside_ite rfl (wardenFail_beside ..))
  | imageEnvelopeCheck addr => exact execImageEnvelopeCheck_answers addr s
  | bufferWindowAccess acc off wr => exact execBufferWindowAccess_answers acc off wr s
  | powerLoss => exact beside_answers ((beside_with ..).trans (powerCycle_beside s))
  | hostDmaFailure what => exact execHostDmaFailure_answers what s
  | unitSelfCheckFail u => exact (onItems_answers ..).after (unitFail_beside u s)
  | invalidOpcode cmd opc => exact execInvalidOpcode_answers cmd opc s
  | mfs c g rd sel => exact (State.Moves.ite (fun _ => .of_beside (dataRun_beside ..)) (fun _ => wardenRegs_moves ..)).answers
  | br c g off | loop c rc maxm1 len =>
    exact (State.Moves.ite (fun _ => .of_beside (dataRun_beside ..))
      (fun _ => wardenRun_moves (fun _ => .of_beside (putWarden_beside ..)) ..)).answers
  | rcuWarm => exact beside_answers (resetSource_beside ..)
  | rcuLifecycle acc => exact beside_answers (beside_ite (resetSource_beside ..) rfl)
  | rstNLow => exact beside_answers (beside_ite rfl ((beside_with ..).trans (resetSource_beside ..)))
  | refLoss =>
    exact beside_answers (beside_ite rfl ((beside_with ..).trans ((resetSource_beside ..).trans (beside_with ..))))
  | systemResetTick => exact beside_answers (systemReset_beside s)
  | landingFlushEnd => exact beside_answers (flushEnd_beside s)
  | powerOn => exact beside_answers (powerCycle_beside s)
  | ps3CommitPoint => exact beside_answers (ps3Commit_beside s)
  | jmp | call | jr | eret | wfi | fence => exact (controlOnly_moves (onWarden_moves _) ..).answers
  | mfc c g rd csr =>
    exact (controlOnly_moves (fun _ _ => .of_beside ((putWarden_beside ..).trans (csrRead_beside ..))) ..).answers
  | mtc c g ra csr => exact (controlOnly_moves (fun _ _ => (onWarden_moves ..).after (csrWrite_beside ..)) ..).answers
  | wcall c g svc =>
    exact (controlOnly_moves (fun _ _ => .ite (fun _ => .of_beside (State.trap_beside ..)) (fun _ => onWarden_moves ..)) ..).answers
  | cas c g rd ra rb => exact (controlOnly_moves (casRun_moves rd ra rb) ..).answers
  | tqDescriptorFetch g => exact beside_answers (tqFetch_beside g s)
  | copy | fill | tqShuf | xtsE | xtsD | tqHash => exact beside_answers (ringOp_beside (fun _ _ => wrote_beside ..) ..)
  | gather g q => exact beside_answers (ringOp_beside gatherRun_beside ..)
  | sqzC g q lane => exact beside_answers (ringOp_beside (sqzCRun_beside lane) ..)
  | sqzX g q lane => exact beside_answers (ringOp_beside (sqzXRun_beside lane) ..)
  | gcmE g q => exact beside_answers (ringOp_beside gcmERun_beside ..)
  | gcmD g q => exact beside_answers (ringOp_beside gcmDRun_beside ..)
  | bpmAlloc => exact beside_answers (bpmAllocOp_beside s)
  | bpmRefTake handle | bpmRefRelease handle => exact beside_answers ((bpmRefOp_beside ..).trans (beside_with ..))
  | keyPageGenerateXts | keyPageGenerateGcm | keyPageErase | keyPageRewrite =>
    exact (adminOp_beside_moves (keyPage_beside _ _ _ _) ..).answers
  | firmwareCommit cmd ca fs keyid svn sigOk => exact (adminOp_moves (firmwareCommit_moves cmd ca fs keyid svn sigOk) cmd s).answers
  | tokenReleaseZone cmd tok | tokenEnterHold cmd tok | tokenLeaveHold cmd tok | tokenRetire cmd tok | tokenDeploy cmd tok =>
    exact (adminOp_moves (tokenCmd_moves (by decide) (by decide) cmd tok) cmd s).answers
  | keyAlarm src => exact (keyAlarm_moves src s).answers
  | keyAnchorWrite acc a v => exact (keyAnchorWrite_moves acc a v s).answers
  | lifecycleProvision => exact (lifecycleProvision_moves s).answers

/-- A step takes a move of the fuses. -/
theorem Steps.fuse_move {s t : State} (h : Steps s t) : s.fuse.Move t.fuse := by
  unfold Steps step at h
  split at h
  · cases h
    exact .stay
  · rename_i c rest _
    obtain ⟨u, hu, f, hf, hb⟩ := exec_answers c { s with pending := rest }
    obtain rfl : u = t := Host.Outcome.next.inj (hu.symm.trans h)
    obtain rfl : u.fuse = f := congrArg (fun p => p.2.2) hb
    exact hf

/-- Settles O5: every command takes a move of the fuses, and each move keeps what the fuses held and follows the table. -/
theorem lifecycleMovesByTheTable : Obligations.LifecycleMovesByTheTable := by
  refine ⟨fun s t hstep hsound => ?_, fun s acc hwho => exec_clearOnRead_idBlock s hwho (by decide) rfl rfl rfl⟩
  have hmove := hstep.fuse_move
  refine ⟨hmove.sound hsound, hmove.keeps, ?_⟩
  rcases hmove.lifecycle hsound with ⟨hlife, hcount⟩ | htable
  · exact ⟨.inl hlife, fun _ => hcount⟩
  · exact ⟨.inr htable, fun hlife => absurd hlife (lifecycleMoves_irrefl _ htable)⟩

end Sys2Proof.Machine
end

section
/-! SUPPORT. The two words of a 64-bit register (R30). -/

namespace Sys2Proof.Machine

/-! Words of the hub blocks below the secure ones. -/

theorem target_below_secure (s : State) (acc : Access) {a : Nat} (ha : a < 0x300000) (h4 : a % 4 = 0) (write : Bool) :
    target s acc a 4 write = .word := by
  have habsent : absentAt s.env.part a = false := by grind [absentAt]
  have hblock : secureBlock a = false := by grind [secureBlock]
  have hhub : a < 0x20000000 := by omega
  have hreg : regTarget acc a 4 = .word := by grind [regTarget]
  simp [target, habsent, hhub, hreg]

theorem windowAt_below_secure {a : Nat} (ha : a < 0x300000) : windowAt a = .none := by grind [windowAt]

theorem wordAt_below_secure (s : State) {a i : Nat} {r : RegRow} (ha : a < 0x300000) (hf : findReg a = some (r, i)) : wordAt s a = regView s r a := by
  simp [wordAt, windowAt_below_secure ha, hf]

/-- A warden core that writes a register word is answered OK. -/
theorem access_write_word {s : State} {acc : Access} {a : Nat} (hw : acc.who < 8) (ht : target s acc a 4 true = .word) (v : Word) :
    access acc a 4 (some v.toNat) s = answer 0 0x00 (writeWord acc a v.toNat s) := by
  have hcore : ¬ 8 ≤ acc.who := by omega
  have hv : v.toNat % 2 ^ 32 = v.toNat := Nat.mod_eq_of_lt v.isLt
  simp only [access, if_neg hcore, busWrite, ht, hv]
  rfl

/-! A write of either word. -/

theorem writeWord_high {s : State} {acc : Access} {lo j : Nat} {rh : RegRow} (hlo : lo + 4 < 0x300000) (hf : findReg (lo + 4) = some (rh, j))
    (hh : rh.half = .hi) (v : Nat) : writeWord acc (lo + 4) v s = holdHigh acc lo v s := by
  simp [writeWord, windowAt_below_secure hlo, hf, hh]

theorem writeWord_low {s : State} {acc : Access} {lo i j : Nat} {rl rh : RegRow} (hlo : lo + 4 < 0x300000) (hfl : findReg lo = some (rl, i))
    (hl : rl.half = .lo) (hfh : findReg (lo + 4) = some (rh, j)) (v : Nat) : writeWord acc lo v s = writeLow acc rl rh lo v s := by
  simp [writeWord, windowAt_below_secure (show lo < 0x300000 by omega), hfl, hfh, hl]

theorem highPart_below_secure {lo : Nat} (hlo : lo < 0x300000) (v : Nat) : highPart lo v = v := by
  have hen : lo ≠ Reg.logTyEnLo := by unfold Reg.logTyEnLo; omega
  simp [highPart, hen]

theorem wideAct_below_secure {lo : Nat} (hlo : lo < 0x300000) (hstep : lo ≠ Reg.rcuTickStepLo) (v : Nat) (s : State) : wideAct lo v s = s := by
  have hstrike : lo ≠ Reg.sealStrikeLo := by unfold Reg.sealStrikeLo; omega
  simp [wideAct, hstrike, hstep]

/-- The state whose held high word of an accessor's register is `w`. -/
def State.holding (s : State) (key : Nat) (w : Option Word) : State :=
  { s with chip := { s.chip with regs := { s.chip.regs with wrHold := Tab.set (fun _ => none) s.chip.regs.wrHold key w } } }

/-- A low write below the secure blocks commits both words and starts nothing. -/
theorem writeLow_below_secure {lo : Nat} (hlo : lo < 0x300000) (hstep : lo ≠ Reg.rcuTickStepLo) (acc : Access) (rl rh : RegRow) (v : Nat) (s : State) :
    writeLow acc rl rh lo v s = plainWrite rl lo v (plainWrite rh (lo + 4)
      (((Tab.get (fun _ => none) s.chip.regs.wrHold (holdKey acc lo)).map BitVec.toNat).getD (regView s rh (lo + 4)))
      (s.holding (holdKey acc lo) none)) := by
  simp only [writeLow, wideAct_below_secure hlo hstep, highPart_below_secure hlo]
  cases Tab.get (fun _ => none) s.chip.regs.wrHold (holdKey acc lo) <;> rfl

/-! A read of either word. -/

theorem readWord_below_secure {acc : Access} {a i : Nat} {r : RegRow} (ha : a < 0x300000) (hf : findReg a = some (r, i)) (s : State) :
    readWord acc a s =
      ((if r.half = .hi then (Tab.get (fun _ => none) s.chip.regs.rdHold (holdKey acc (a - 4))).map BitVec.toNat else none).getD (regView s r a),
        readEffects acc a r s) := by
  have hhub : ¬ 0x10000000 ≤ a := by omega
  simp only [readWord, windowAt_below_secure ha, hf, hhub, and_false, if_false, wordAt_below_secure s ha hf]

/-- A low read latches the high word for its accessor. -/
theorem readEffects_low {lo j : Nat} {rl rh : RegRow} (hlo : lo + 4 < 0x300000) (hl : rl.half = .lo) (hfh : findReg (lo + 4) = some (rh, j))
    (acc : Access) (s : State) : (readEffects acc lo rl s).chip.regs.rdHold =
      Tab.set (fun _ => none) s.chip.regs.rdHold (holdKey acc lo) (some (BitVec.ofNat 32 (regView s rh (lo + 4)))) := by
  have hcnt : lo ≠ Reg.irqCnt := by unfold Reg.irqCnt; omega
  have hfl : lo ≠ Reg.logFlE 7 := by unfold Reg.logFlE; omega
  have hty : lo ≠ Reg.logTyR 15 := by unfold Reg.logTyR; omega
  simp only [readEffects, chipDo, hcnt, hfl, hty, hl, if_true, if_false, wordAt_below_secure s hlo hfh]
  rfl

theorem exec_read_word {s : State} {acc : Access} {a i : Nat} {r : RegRow} (hw : acc.who < 8) (ha : a < 0x300000) (h4 : a % 4 = 0)
    (hf : findReg a = some (r, i)) :
    exec (.clearOnRead acc a) s = .next (answer
      ((if r.half = .hi then (Tab.get (fun _ => none) s.chip.regs.rdHold (holdKey acc (a - 4))).map BitVec.toNat else none).getD (regView s r a))
      0x00 (readEffects acc a r s)) := by
  rw [exec_clearOnRead_word hw (target_below_secure s acc ha h4 false), readWord_below_secure ha hf]

/-- Settles O26: the accesses go to the words, a high write only fills the accessor's copy, a low write takes it, a low read latches the high word. -/
theorem wideRegisterAccesses : Obligations.WideRegisterAccesses := by
  intro s acc lo i j v h rl rh hw hlo h4 hfl hl hfh hh hstep key hold
  have hlow : lo < 0x300000 := by omega
  have h4' : (lo + 4) % 4 = 0 := by omega
  have hwrite : exec (.reg64LowWrite acc lo v) s = .next (answer 0 0x00 (writeLow acc rl rh lo v.toNat s)) := by
    rw [← writeWord_low hlo hfl hl hfh, ← access_write_word hw (target_below_secure s acc hlow h4 true)]
    rfl
  rw [writeLow_below_secure hlow hstep] at hwrite
  refine ⟨?_, fun hheld => ?_, fun hnone => ?_, ?_, fun hlatch => ?_, fun acc' hne => ?_⟩
  · rw [show hold s (some (BitVec.ofNat 32 h.toNat)) = writeWord acc (lo + 4) h.toNat s from (writeWord_high hlo hfh hh _).symm,
      ← access_write_word hw (target_below_secure s acc hlo h4' true)]
    rfl
  · rw [hwrite, show Tab.get (fun _ => none) s.chip.regs.wrHold (holdKey acc lo) = some h from hheld]
    rfl
  · rw [hwrite, show Tab.get (fun _ => none) s.chip.regs.wrHold (holdKey acc lo) = none from hnone]
    rfl
  · refine ⟨_, exec_read_word hw hlow h4 hfl, ?_, readEffects_low hlo hl hfh acc s⟩
    simp [answer, chipDo, hl]
  · refine ⟨_, exec_read_word hw hlo h4' hfh, ?_⟩
    rw [show Tab.get (fun _ => none) s.chip.regs.rdHold (holdKey acc (lo + 4 - 4)) = some h from hlatch]
    simp [answer, chipDo, hh]
  · intro hkey
    exact hne (by omega)

end Sys2Proof.Machine
end

section
/-! SUPPORT. Failures of units, and dirty-page logging (R45, R80, R248, R333-R335, R338). -/

namespace Sys2Proof.Machine

/-! Self-checks (R45, R248). -/

/-- A failure that stays on the controller: the host engine's items then go on. -/
theorem exec_unitSelfCheckFail {u : UnitRef} {s : State} {c : Chip} (h : unitFail u s = { s with chip := c }) :
    exec (.unitSelfCheckFail u) s = .next (goesOn s c) := by
  rw [show exec (.unitSelfCheckFail u) s = onItems id (unitFail u s) from rfl, h]
  rfl

theorem Chip.tfLaneFail_fenced {c : Chip} {e : Env} {g l : Nat} (hf : c.bit (Reg.tfFence g) l = true) : c.tfLaneFail e g l = c := by
  simp [Chip.tfLaneFail, hf]

theorem Chip.tfLaneFail_served {c : Chip} {e : Env} {g l : Nat} (hl : e.laneBit g l = true) (hf : c.bit (Reg.tfFence g) l = false) :
    c.tfLaneFail e g l = Chip.fenceLanes ((c.orReg (Reg.tfFault g) (2 ^ l)).raise (256 + g) 0 0xFFFF 0 0) e g (2 ^ l) := by
  simp [Chip.tfLaneFail, hl, hf]

theorem unitFail_kerfCore {s : State} {k : Nat} (hk : k < 8 * s.env.part.regions ∨ (32 ≤ k ∧ k < 40)) :
    unitFail (.kerfCore k) s = { s with chip := s.chip.kerfCoreFail k } := by
  simp [unitFail, hk]

/-! Lockstep pairs (R45, R80). -/

theorem exec_lockstepMismatch {s : State} (h : s.chip.rcu.phase ≠ .inReset) (b : LockstepBlk) :
    exec (.lockstepMismatch b) s = .next { s with chip := s.chip.mismatch b } := by
  rw [show exec (.lockstepMismatch b) s = .next { s with chip := if s.chip.rcu.phase = .inReset then s.chip else s.chip.mismatch b } from rfl,
    if_neg h]

theorem exec_lockstepRestartDone (b : LockstepBlk) (s : State) : exec (.lockstepRestartDone b) s = .next (goesOn s
    (if s.chip.restartRuns b then
      { s.chip with rcu := { s.chip.rcu with restarts := s.chip.rcu.restarts.filter (fun p => p.1 != b) } }.markRestart b false
    else s.chip)) := rfl

/-! Dirty-page logging (R333-R335). -/

/-- A controller with another record in a logging slot. -/
def Chip.setDlog (c : Chip) (slot : Nat) (x : DlogSlot) : Chip := { c with fn := { c.fn with dlog := c.fn.dlog.set slot x } }

theorem Chip.updDlog_eq (c : Chip) (slot : Nat) (g : DlogSlot → DlogSlot) : c.updDlog slot g = c.setDlog slot (g (c.dlogSlot slot)) := by
  rw [Chip.updDlog, updateAt_eq_set _ _ _ DlogSlot.idle]
  rfl

theorem Chip.setDlog_self {c : Chip} {slot : Nat} (h : slot < c.fn.dlog.length) : c.setDlog slot (c.dlogSlot slot) = c := by
  have hset : c.fn.dlog.set slot (c.dlogSlot slot) = c.fn.dlog := by
    simp [Chip.dlogSlot, List.getElem?_eq_getElem h]
  rw [Chip.setDlog, hset]

/-- Another active slot follows the function. -/
def Chip.followed (c : Chip) (slot fn : Nat) : Prop := ∃ i < c.fn.dlog.length, i ≠ slot ∧ (c.dlogSlot i).active = true ∧ (c.dlogSlot i).fn = fn

theorem Chip.followed_iff (c : Chip) (slot fn : Nat) :
    c.fn.dlog.zipIdx.any (fun p => p.1.active && p.1.fn == fn && p.2 != slot) = true ↔ c.followed slot fn := by
  simp only [List.any_eq_true, Prod.exists, List.mem_zipIdx_iff_getElem?, Bool.and_eq_true, beq_iff_eq, bne_iff_ne]
  constructor
  · rintro ⟨x, i, hx, ⟨hactive, hfn⟩, hne⟩
    have hslot : c.dlogSlot i = x := by simp [Chip.dlogSlot, hx]
    exact ⟨i, (List.getElem?_eq_some_iff.mp hx).1, hne, hslot ▸ hactive, hslot ▸ hfn⟩
  · rintro ⟨i, hi, hne, hactive, hfn⟩
    exact ⟨c.dlogSlot i, i, by simp [Chip.dlogSlot, List.getElem?_eq_getElem hi], ⟨hactive, hfn⟩, hne⟩

theorem Chip.dlogStart_free {c : Chip} {slot fn : Nat} (hslot : slot < 8) (h : ¬ c.followed slot fn) :
    c.dlogStart slot fn = (c.setReg (Reg.fnDlogHead slot) 0).setDlog slot ⟨true, fn, false, 0, [], false, false, 0, 0x00⟩ := by
  have hlow : ¬ 8 ≤ slot := by omega
  rw [← Chip.followed_iff, Bool.not_eq_true] at h
  simp only [Chip.dlogStart, hlow, decide_false, h, Bool.or_self, Bool.false_eq_true, if_false, Chip.updDlog_eq]
  rfl

theorem Chip.dlogStart_followed {c : Chip} {slot fn : Nat} (hslot : slot < 8) (h : c.followed slot fn) :
    c.dlogStart slot fn = c.setDlog slot { c.dlogSlot slot with status := 0x03 } := by
  have hlow : ¬ 8 ≤ slot := by omega
  rw [← Chip.followed_iff] at h
  simp only [Chip.dlogStart, hlow, h, Bool.or_true, if_true, if_false, Chip.updDlog_eq]
  rfl

theorem Chip.dlogStop_eq (c : Chip) (slot : Nat) : c.dlogStop slot = c.setDlog slot { c.dlogSlot slot with active := false } := c.updDlog_eq slot _

theorem Chip.dlogCut_first {c : Chip} {slot : Nat} (h : (c.dlogSlot slot).cutPending = false) :
    c.dlogCut slot = c.setDlog slot { c.dlogSlot slot with cutPending := true, cutDone := false } := by
  simp [Chip.dlogCut, Chip.updDlog_eq, h]

theorem Chip.dlogCut_again {c : Chip} {slot : Nat} (hslot : slot < c.fn.dlog.length) (h : (c.dlogSlot slot).cutPending = true) :
    c.dlogCut slot = c := by
  rw [Chip.dlogCut, Chip.updDlog_eq, if_pos h, Chip.setDlog_self hslot]

theorem exec_dlogStart {slot : Nat} (h : slot < 8) (fn : Nat) (s : State) :
    exec (.dlogStart slot fn) s = .next { s with chip := (s.chip.setFld (Reg.fnDlogCtrl slot) 7 0 fn).dlogStart slot fn } := by
  rw [show exec (.dlogStart slot fn) s = .next { s with chip :=
    (if slot < 8 then s.chip.setFld (Reg.fnDlogCtrl slot) 7 0 fn else s.chip).dlogStart slot fn } from rfl, if_pos h]

/-- Settles O40: each failure and each dirty-page command leaves the controller that its rule gives. -/
theorem failuresAndDirtyPages : Obligations.FailuresAndDirtyPages := by
  refine ⟨fun s g l k b => ?_, fun s slot fn page pages pasid hslot hfn hlen => ?_⟩
  · intro c bound event down
    refine ⟨fun hl hf => ?_, fun hl hf => ?_, fun hk => ?_, fun hp hb => ?_, fun hp hb => ?_, fun hp hb => ?_, fun hp hb => ?_, fun hr hb => ?_,
      fun hr => ?_⟩
    · exact exec_unitSelfCheckFail (c := c) (congrArg (fun d => { s with chip := d }) (Chip.tfLaneFail_fenced hf))
    · exact exec_unitSelfCheckFail (congrArg (fun d => { s with chip := d }) (Chip.tfLaneFail_served hl hf))
    · exact exec_unitSelfCheckFail (unitFail_kerfCore hk)
    · rw [exec_lockstepMismatch hp]
      rcases hb with rfl | rfl <;> rfl
    · subst hb
      exact exec_lockstepMismatch hp .coll
    · subst hb
      exact exec_lockstepMismatch hp .bpm
    · subst hb
      exact exec_lockstepMismatch hp .cal
    · rw [exec_lockstepRestartDone, if_pos hr]
      rcases hb with rfl | rfl <;> rfl
    · rw [exec_lockstepRestartDone, if_neg (Bool.eq_false_iff.mp hr)]
  · intro c named put x hit
    have hslot' : slot < c.fn.dlog.length := hslot.trans_eq hlen.symm
    refine ⟨fun hfree => ?_, fun hother => ?_, ?_, fun hcut => ?_, fun hcut => ?_, rfl⟩
    · rw [exec_dlogStart hslot, Chip.dlogStart_free hslot]
      · rfl
      · rintro ⟨i, hi, hne, hactive, hfollows⟩
        exact hfree i (hi.trans_eq hlen) hne hactive hfollows
    · rw [exec_dlogStart hslot, Chip.dlogStart_followed hslot]
      · rfl
      · obtain ⟨i, hi, hne, hactive, hfollows⟩ := hother
        exact ⟨i, hi.trans_eq hlen.symm, hne, hactive, hfollows⟩
    · exact congrArg (fun d => Host.Outcome.next { s with chip := d }) (c.dlogStop_eq slot)
    · exact congrArg (fun d => Host.Outcome.next { s with chip := d }) (Chip.dlogCut_first hcut)
    · exact congrArg (fun d => Host.Outcome.next { s with chip := d }) (Chip.dlogCut_again hslot' hcut)

end Sys2Proof.Machine
end

section
/-! SUPPORT. Admission of latency contracts: the tests in the order of R39, and the four ends of an operation (R39, R72, R86). -/

namespace Sys2Proof.Machine

theorem satTo_eq_min (m v : Nat) : satTo m v = Nat.min m v := by
  rw [satTo, show Nat.min m v = min m v from rfl, min_comm, Nat.min_def]

/-! The order of R39. -/

/-- The first check decides where it fails. -/
theorem firstFail_fails {bad : Bool} (h : bad = true) (st : Nat) (l : List (Bool × Nat)) : firstFail ((bad, st) :: l) = st := by
  rw [firstFail, if_pos h]

/-- A check that holds leaves the decision to the checks behind it. -/
theorem firstFail_passes {bad : Bool} (h : bad = false) (st : Nat) (l : List (Bool × Nat)) : firstFail ((bad, st) :: l) = firstFail l := by
  rw [firstFail, if_neg (Bool.eq_false_iff.mp h)]

/-! The tests of an admission. -/

/-- The contracts that an admission tests: those that stand for other namespaces, and the new one. -/
def Chip.admitBounds (c : Chip) (b : Bound) : List Bound := c.bounds.filter (fun x => x.nsx != b.nsx) ++ [b]

/-- The class or a mode of the new contract is one that no contract can have. -/
def Chip.admitBadDesc (c : Chip) (b : Bound) : Bool := decide (5 ≤ b.cls) || (modesOf b.modes).any (fun m => !(c.fig m).inuse)

/-- The bounds of R72 fail, or the package is in a state in which no contract can be bound. -/
def Chip.admitRefuses (c : Chip) (e : Env) (b : Bound) : Bool :=
  decide (14 < termN (c.admitBounds b)) || !floorAdmits (c.fld Reg.calFloor 1 0) ||
    failing c.fig (kOf (c.fld Reg.calFloor 1 0)) (c.admitBounds b) != [] || c.slowChannel e ||
    decide (c.fld Reg.calFloor 1 0 < psCeiling c.pmu.ps)

theorem Chip.admitCheck_status (c : Chip) (e : Env) (b : Bound) : (c.admitCheck e b).2.2 =
    firstFail [(c.admitBadDesc b, cstBad), (b.q == 0 || b.modes == 0, cstZero), (decide (15 ≤ b.q), cstLimit), (c.admitRefuses e b, cstContract)] := by
  unfold Chip.admitCheck
  dsimp only
  split <;> rfl

theorem failing_eq_nil_iff (fig : Nat → ModeFig) (k : Nat) (bs : List Bound) :
    failing fig k bs = [] ↔ ∀ x ∈ bs, termT fig k bs x ≤ classTicks x.cls := by
  simp [failing, List.filter_eq_nil_iff]

theorem Chip.admitBadDesc_of_class {c : Chip} {b : Bound} (h : 5 ≤ b.cls) : c.admitBadDesc b = true := by simp [Chip.admitBadDesc, h]

theorem Chip.admitBadDesc_eq_false {c : Chip} {b : Bound} (hcls : b.cls < 5) (hmodes : ∀ m ∈ modesOf b.modes, (c.fig m).inuse = true) :
    c.admitBadDesc b = false := by
  simpa [Chip.admitBadDesc, hcls] using hmodes

/-- Too much depth, or a contract that is late, refuses an admission (R72). -/
theorem Chip.admitRefuses_of_terms {c : Chip} {b : Bound} (e : Env)
    (h : 14 < termN (c.admitBounds b) ∨ failing c.fig (kOf (c.fld Reg.calFloor 1 0)) (c.admitBounds b) ≠ []) : c.admitRefuses e b = true := by
  rcases h with h | h <;> simp [Chip.admitRefuses, h]

theorem Chip.terms_of_not_admitRefuses {c : Chip} {e : Env} {b : Bound} (h : c.admitRefuses e b = false) :
    termN (c.admitBounds b) ≤ 14 ∧ failing c.fig (kOf (c.fld Reg.calFloor 1 0)) (c.admitBounds b) = [] := by
  by_contra hn
  refine Bool.eq_false_iff.mp h (Chip.admitRefuses_of_terms e ?_)
  rwa [not_and_or, not_le] at hn

/-! The operations. -/

@[simp] theorem Chip.contract_setReg (c : Chip) (a v n : Nat) : (c.setReg a v).contract n = c.contract n := rfl

theorem Chip.admitResult_eq (c : Chip) (n t st : Nat) : c.admitResult n t st =
    (c.setReg Reg.calAdmitRes (2 ^ 31 + n % 1024 * 65536 + Nat.min 255 t * 256 + st)).setBit Reg.calAdmitReq 31 false := by
  rw [Chip.admitResult, satTo_eq_min]

/-- Operands within their fields stand in the request's word as they are. -/
theorem Chip.admitReq_eq {nsid q cls modes : Nat} (hn : nsid < 1024) (hq : q < 16) (hc : cls < 8) (hm : modes < 8) (c : Chip) (e : Env) (op : Nat)
    (nowait : Bool) : c.admitReq e op nsid q nowait modes cls =
      ((c.setReg Reg.calAdmitReq (nsid * 2 ^ 16 + op * 2 ^ 12 + q * 2 ^ 8 + (if nowait then 128 else 0) + modes * 2 ^ 4 + cls)).admissionOp e op
        ⟨nsid, cls, q, nowait, modes⟩).2 := by
  have hbit : b2n nowait * 2 ^ 7 = if nowait then 128 else 0 := by cases nowait <;> rfl
  simp only [Chip.admitReq, Nat.mod_eq_of_lt hn, Nat.mod_eq_of_lt hq, Nat.mod_eq_of_lt hc, Nat.mod_eq_of_lt hm, hbit]

theorem Chip.admissionOp_test (c : Chip) (e : Env) (b : Bound) :
    (c.admissionOp e 0 b).2 = c.admitResult (c.admitCheck e b).1 (c.admitCheck e b).2.1 (c.admitCheck e b).2.2 := rfl

theorem Chip.admissionOp_bind_refused {c : Chip} {e : Env} {b : Bound} (h : (c.admitCheck e b).2.2 ≠ cstOk) :
    (c.admissionOp e 1 b).2 = c.admitResult (c.admitCheck e b).1 (c.admitCheck e b).2.1 (c.admitCheck e b).2.2 := by
  simp [Chip.admissionOp, h]

theorem Chip.admissionOp_bind_passes {c : Chip} {e : Env} {b : Bound} (h : (c.admitCheck e b).2.2 = cstOk) :
    (c.admissionOp e 1 b).2 = (c.setContract b.nsx (some ⟨b.cls, b.q, b.nowait, b.modes, (c.admitCheck e b).2.1, c.stamp, 0, 0, 0⟩)).admitResult
      (c.admitCheck e b).1 (c.admitCheck e b).2.1 cstOk := by
  simp [Chip.admissionOp, h]

theorem Chip.admissionOp_release_unbound {c : Chip} {b : Bound} (h : c.contract b.nsx = none) (e : Env) :
    (c.admissionOp e 2 b).2 = c.admitResult b.nsx 0 cstBad := by
  simp [Chip.admissionOp, h]

theorem Chip.admissionOp_release_bound {c : Chip} {b : Bound} (h : c.contract b.nsx ≠ none) (e : Env) :
    (c.admissionOp e 2 b).2 = (c.setContract b.nsx none).admitResult b.nsx 0 cstOk := by
  simp [Chip.admissionOp, h]

theorem exec_calAdmitTest (nsid q : Nat) (nowait : Bool) (modes cls : Nat) (s : State) :
    exec (.calAdmitTest nsid q nowait modes cls) s = .next { s with chip := s.chip.admitReq s.env 0 nsid q nowait modes cls } := rfl

theorem exec_calAdmitBind (nsid q : Nat) (nowait : Bool) (modes cls : Nat) (s : State) :
    exec (.calAdmitBind nsid q nowait modes cls) s = .next { s with chip := s.chip.admitReq s.env 1 nsid q nowait modes cls } := rfl

theorem exec_calAdmitRelease (nsid : Nat) (s : State) :
    exec (.calAdmitRelease nsid) s = .next { s with chip := s.chip.admitReq s.env 2 nsid 0 false 0 0 } := rfl

/-- Settles O31: the request's word is put, each operation ends as its own equation says, and the tests decide in the order of R39. -/
theorem admission : Obligations.Admission := by
  refine ⟨fun s nsid q cls modes nowait hn hq hc hm => ?_, fun c e b => ?_⟩
  · intro c asked answers tested binding bound
    have htest : exec (.calAdmitTest nsid q nowait modes cls) s =
        .next { s with chip := ((asked 0 q cls modes nowait).admissionOp s.env 0 ⟨nsid, cls, q, nowait, modes⟩).2 } := by
      rw [exec_calAdmitTest, Chip.admitReq_eq hn hq hc hm]
    have hbind : exec (.calAdmitBind nsid q nowait modes cls) s =
        .next { s with chip := (binding.admissionOp s.env 1 ⟨nsid, cls, q, nowait, modes⟩).2 } := by
      rw [exec_calAdmitBind, Chip.admitReq_eq hn hq hc hm]
    have hrelease : exec (.calAdmitRelease nsid) s =
        .next { s with chip := ((asked 2 0 0 0 false).admissionOp s.env 2 ⟨nsid, 0, 0, false, 0⟩).2 } := by
      rw [exec_calAdmitRelease, Chip.admitReq_eq hn (by decide) (by decide) (by decide)]
    refine ⟨?_, fun h => ?_, fun h => ?_, fun h => ?_, fun h => ?_⟩
    · rw [htest, Chip.admissionOp_test, Chip.admitResult_eq]
    · rw [hbind, Chip.admissionOp_bind_refused h, Chip.admitResult_eq]
    · rw [hbind, Chip.admissionOp_bind_passes h, Chip.admitResult_eq]
      rfl
    · rw [hrelease, Chip.admissionOp_release_unbound, Chip.admitResult_eq]
      · rfl
      · exact (Chip.contract_setReg ..).trans h
    · rw [hrelease, Chip.admissionOp_release_bound, Chip.admitResult_eq]
      · rfl
      · exact (Chip.contract_setReg ..).trans_ne h
  · intro all k late st
    have hst : st = _ := c.admitCheck_status e b
    refine ⟨fun hcls => ?_, fun hcls hmodes => ?_⟩
    · rw [hst, firstFail_fails (Chip.admitBadDesc_of_class hcls)]
      rfl
    rw [firstFail_passes (Chip.admitBadDesc_eq_false hcls hmodes)] at hst
    refine ⟨fun hzero => ?_, fun hq hm hlimit => ?_, fun hq hm hlimit hterms => ?_, fun hok => ?_⟩
    · rw [hst, firstFail_fails (by simpa using hzero)]
      rfl
    · rw [hst, firstFail_passes (by simp [hq, hm]), firstFail_fails (by simpa using hlimit)]
      rfl
    · have hfail : 14 < termN all ∨ failing c.fig k all ≠ [] := by simpa [failing_eq_nil_iff, late] using hterms
      rw [hst, firstFail_passes (by simp [hq, hm]), firstFail_passes (by simpa using hlimit), firstFail_fails (Chip.admitRefuses_of_terms e hfail)]
      rfl
    · have hall := firstFail_eq_ok (by simp [cstZero, cstLimit, cstContract, cstOk]) (hst.symm.trans hok)
      obtain ⟨hdepth, hlate⟩ := Chip.terms_of_not_admitRefuses (hall (c.admitRefuses e b, cstContract) (by simp))
      exact ⟨hdepth, (failing_eq_nil_iff ..).mp hlate⟩

end Sys2Proof.Machine
end

section
/-! SUPPORT. The calendar's standing rules with checks at the write, its debug view, and requests through CAL_MAINT (R54, R85, R109, R504, R505). -/

namespace Sys2Proof.Machine

/-! CAL_FLOOR and CAL_NRG_BUDGET (R85, R109). -/

theorem exec_calFloorWrite {acc : Access} (hw : acc.who < 8) (v : Word) (s : State) :
    exec (.calFloorWrite acc v) s = .next { s with chip := s.chip.writeFloor v.toNat } := by
  rw [show exec (.calFloorWrite acc v) s = onChip (fun c => if 8 ≤ acc.who then c else c.writeFloor v.toNat) s from rfl, onChip_eq, if_neg (by omega)]

theorem exec_calNrgBudgetWrite {acc : Access} (hw : acc.who < 8) (v : Word) (s : State) :
    exec (.calNrgBudgetWrite acc v) s = .next { s with chip := s.chip.writeBudget v.toNat } := by
  rw [show exec (.calNrgBudgetWrite acc v) s = onChip (fun c => if 8 ≤ acc.who then c else c.writeBudget v.toNat) s from rfl, onChip_eq,
    if_neg (by omega)]

theorem bitsOf_low (v hi : Nat) : bitsOf v hi 0 = v % 2 ^ (hi + 1) := by simp [bitsOf]

theorem Chip.writeFloor_passes {c : Chip} {v : Nat} (hclear : bitOf v 8 = false) (h : c.floorOk c.fig (v % 4) = true) :
    c.writeFloor v = c.setStg Reg.calFloor (putBits (c.stgReg Reg.calFloor) 1 0 (v % 4)) := by
  simp [Chip.writeFloor, hclear, bitsOf_low, h]

theorem Chip.writeFloor_refused {c : Chip} {v : Nat} (hclear : bitOf v 8 = false) (h : c.floorOk c.fig (v % 4) = false) :
    c.writeFloor v = c.setBit Reg.calFloor 8 true := by
  simp [Chip.writeFloor, hclear, bitsOf_low, h]

theorem Chip.writeBudget_passes {c : Chip} {v : Nat} (hclear : bitOf v 31 = false) (h : budgetFloor c.stgFig c.stgNrg ≤ v % 2 ^ 24) :
    c.writeBudget v = c.setStg Reg.calNrgBudget (putBits (c.stgReg Reg.calNrgBudget) 23 0 (v % 2 ^ 24)) := by
  have hfloor : budgetFloor c.stgFig c.stgNrg ≤ bitsOf v 23 0 := by rwa [bitsOf_low]
  simp only [Chip.writeBudget, hclear, Bool.false_eq_true, if_false]
  rw [if_pos hfloor, bitsOf_low]

theorem Chip.writeBudget_refused {c : Chip} {v : Nat} (hclear : bitOf v 31 = false) (h : v % 2 ^ 24 < budgetFloor c.stgFig c.stgNrg) :
    c.writeBudget v = c.setBit Reg.calNrgBudget 31 true := by
  have hfloor : ¬ budgetFloor c.stgFig c.stgNrg ≤ bitsOf v 23 0 := by rwa [bitsOf_low, not_le]
  simp only [Chip.writeBudget, hclear, Bool.false_eq_true, if_false]
  rw [if_neg hfloor]

/-! The debug view (R54). -/

theorem exec_calDbgSelWrite {acc : Access} (hw : acc.who < 8) (v : Word) (s : State) :
    exec (.calDbgSelWrite acc v) s = .next { s with chip := s.chip.dbgSel v.toNat } := by
  rw [show exec (.calDbgSelWrite acc v) s = onChip (fun c => if 8 ≤ acc.who then c else c.dbgSel v.toNat) s from rfl, onChip_eq, if_neg (by omega)]

/-- The four words of the chosen entry. -/
theorem Chip.dbgSel_entry {c : Chip} {v : Nat} {x : CalEntry} (h : (c.die (v % 4096)).entryAt (v / 4096 % 32) = some x) :
    c.dbgSel v = ((((c.setReg Reg.calDbgSel (v % 2 ^ 17)).setReg (Reg.calDbgE 0) ((x.words (v % 4096)).getD 0 0)).setReg (Reg.calDbgE 1)
      ((x.words (v % 4096)).getD 1 0)).setReg (Reg.calDbgE 2) ((x.words (v % 4096)).getD 2 0)).setReg (Reg.calDbgE 3)
      ((x.words (v % 4096)).getD 3 0) := by
  have hdie : bitsOf v 11 0 = v % 4096 := bitsOf_low v 11
  have hpick : bitsOf v 16 12 = v / 4096 % 32 := rfl
  simp only [Chip.dbgSel, hdie, hpick, h]
  rfl

/-! Requests through CAL_MAINT (R504, R505). -/

/-- The three registers of a request, as the operation that writes it leaves them. -/
def Chip.maintAsked (c : Chip) (die kind planes ahead : Nat) (exact : Bool) (buf : Nat) : Chip :=
  ((c.setReg Reg.calMaintCtrl (b2n exact * 2 ^ 22 + planes % 64 * 2 ^ 16 + kind * 2 ^ 12 + die % 4096)).setReg Reg.calMaintTick
    (ahead % 4096)).setReg Reg.calMaintBuf buf

/-- The request's own tests, in the order of R39. -/
def maintCheck (e : Env) (die kind planes ahead : Nat) : Nat :=
  firstFail [(!e.chanPresent (die / 32), cstAbsent), (decide (ahead < 2) || !(kind == 1 || kind == 3 || kind == 6), cstBad),
    (planes % 64 == 0, cstZero)]

/-- How long a request occupies its die: the longest TR of the modes in use, or TBERS of the one that erases longest. -/
def Chip.maintDur (c : Chip) (kind : Nat) : Nat := if kind = 3 then (c.fig c.maintMode).tbers else c.maintFigures.1

/-- What it draws in its first tick: the largest of a read, or of an erase. -/
def Chip.maintIssue (c : Chip) (kind : Nat) : Nat :=
  if kind = 3 then maxNat ((inUseModes c.fig).map (fun m => (c.nrg m 2).1)) else c.maintFigures.2.1

/-- What it draws in every tick. -/
def Chip.maintRun (c : Chip) (kind : Nat) : Nat :=
  if kind = 3 then maxNat ((inUseModes c.fig).map (fun m => (c.nrg m 2).2)) else c.maintFigures.2.2

/-- The calendar entry of a request. -/
def Chip.maintEntry (c : Chip) (kind planes buf t : Nat) : CalEntry :=
  ⟨t, if kind = 1 then .read else if kind = 3 then .erase else .maint, 7, false, false, 0, 0, c.maintDur kind, 0, buf, c.cal.nextJob,
    if kind = 3 then .maintErase else .maint, planes % 64, if kind = 3 then c.maintMode else 0,
    if kind = 3 then none else some c.maintFigures⟩

/-- The search for the request's tick: the one asked for, or, without EXACT, any up to the horizon. -/
def Chip.maintFound (c : Chip) (die kind ahead : Nat) (exact : Bool) : Option Nat :=
  let t := Nat.max (c.tick + ahead) c.reach
  c.maintSlot die (c.maintDur kind) (c.maintIssue kind) (c.maintRun kind) (if kind = 1 then 4 else 0) (kind == 3)
    (if exact then 1 else c.tick + horizon - t) t (c.dieAt die t)

/-- A controller that has booked a request at tick `t` and runs it. -/
def Chip.maintBooked (c : Chip) (die kind planes ahead : Nat) (exact : Bool) (buf t : Nat) : Chip :=
  let c0 := c.maintAsked die kind planes ahead exact buf
  let d := ((c0.setDie die ((c0.die die).addEntry (c.maintEntry kind planes buf t))).bookEnergy t (c.maintDur kind) (c.maintIssue kind)
    (c.maintRun kind)).setReg Reg.calMaintStat 256
  { d with cal := { d.cal with
    nextJob := (c.cal.nextJob + 1) % 2 ^ 24
    maint := some (c.cal.nextJob, die, exact) } }

section
variable {c : Chip} {e : Env} {die kind planes ahead : Nat} {exact : Bool} {buf : Nat}

theorem maintCheck_absent (h : e.chanPresent (die / 32) = false) : maintCheck e die kind planes ahead = cstAbsent := by
  rw [maintCheck, firstFail_fails (by simp [h])]

theorem maintCheck_near (hchan : e.chanPresent (die / 32) = true) (h : ahead < 2) : maintCheck e die kind planes ahead = cstBad := by
  rw [maintCheck, firstFail_passes (by simp [hchan]), firstFail_fails (by simp [h])]

/-- A channel that is there and a tick that is not too near leave the test of the planes. -/
theorem maintCheck_of_present (hkind : kind = 1 ∨ kind = 3 ∨ kind = 6) (hchan : e.chanPresent (die / 32) = true) (hahead : 2 ≤ ahead) :
    maintCheck e die kind planes ahead = if planes % 64 = 0 then cstZero else cstOk := by
  have hnear : ¬ ahead < 2 := by omega
  have hcode : (kind == 1 || kind == 3 || kind == 6) = true := by simpa [or_assoc] using hkind
  rw [maintCheck, firstFail_passes (by simp [hchan]), firstFail_passes (by simp [hnear, hcode])]
  simp [firstFail]

/-- CAL_MAINT_STAT.BUSY: a request that runs is left alone (R505). -/
theorem Chip.maintGo_running (h : c.bit Reg.calMaintStat 8 = true) : c.maintGo e die kind planes ahead exact buf = c := if_pos h

theorem Chip.maintAsked_eq (hkind : kind = 1 ∨ kind = 3 ∨ kind = 6) : ((c.setReg Reg.calMaintCtrl
      (b2n exact * 2 ^ 22 + planes % 64 * 2 ^ 16 + kind % 16 * 2 ^ 12 + die % 4096)).setReg Reg.calMaintTick (ahead % 4096)).setReg Reg.calMaintBuf buf =
    c.maintAsked die kind planes ahead exact buf := by
  rw [Chip.maintAsked, Nat.mod_eq_of_lt (show kind < 16 by omega)]

theorem Chip.maintGo_checked (hkind : kind = 1 ∨ kind = 3 ∨ kind = 6) (hidle : c.bit Reg.calMaintStat 8 = false) {st : Nat}
    (h : maintCheck e die kind planes ahead = st) (hst : st ≠ cstOk) :
    c.maintGo e die kind planes ahead exact buf = (c.maintAsked die kind planes ahead exact buf).setReg Reg.calMaintStat st := by
  subst h
  rw [← Chip.maintAsked_eq hkind]
  exact (if_neg (Bool.eq_false_iff.mp hidle)).trans (if_pos hst)

theorem Chip.maintGo_fenced (hkind : kind = 1 ∨ kind = 3 ∨ kind = 6) (hidle : c.bit Reg.calMaintStat 8 = false)
    (hok : maintCheck e die kind planes ahead = cstOk) (h : c.dieFenced die = true) : c.maintGo e die kind planes ahead exact buf =
      (c.maintAsked die kind planes ahead exact buf).setReg Reg.calMaintStat 0x87 := by
  rw [← Chip.maintAsked_eq hkind]
  exact (if_neg (Bool.eq_false_iff.mp hidle)).trans ((if_neg (not_not.mpr hok)).trans (if_pos h))

/-- An EXACT request for a tick that no plan reaches any more (R77). -/
theorem Chip.maintGo_late (hkind : kind = 1 ∨ kind = 3 ∨ kind = 6) (hidle : c.bit Reg.calMaintStat 8 = false)
    (hok : maintCheck e die kind planes ahead = cstOk) (hf : c.dieFenced die = false) (hexact : exact = true) (h : c.tick + ahead < c.reach) :
    c.maintGo e die kind planes ahead exact buf = (c.maintAsked die kind planes ahead exact buf).setReg Reg.calMaintStat cstBusy := by
  have hlate : (exact && decide (c.tick + ahead < c.reach) || !(c.die die).hasEntry false) = true := by simp [hexact, h]
  rw [← Chip.maintAsked_eq hkind]
  refine (if_neg (Bool.eq_false_iff.mp hidle)).trans ((if_neg (not_not.mpr hok)).trans ((if_neg (Bool.eq_false_iff.mp hf)).trans ?_))
  rcases hkind with rfl | rfl | rfl
  all_goals exact if_pos hlate

theorem Chip.maintGo_booked (hkind : kind = 1 ∨ kind = 3 ∨ kind = 6) (hidle : c.bit Reg.calMaintStat 8 = false)
    (hok : maintCheck e die kind planes ahead = cstOk) (hf : c.dieFenced die = false) (hreach : exact = true → c.reach ≤ c.tick + ahead)
    (hentry : (c.die die).hasEntry false = true) {t : Nat} (h : c.maintFound die kind ahead exact = some t) :
    c.maintGo e die kind planes ahead exact buf = c.maintBooked die kind planes ahead exact buf t := by
  have hfree : ¬ (exact && decide (c.tick + ahead < c.reach) || !(c.die die).hasEntry false) = true := by simpa [hentry] using hreach
  rw [Chip.maintBooked, ← Chip.maintAsked_eq hkind]
  refine (if_neg (Bool.eq_false_iff.mp hidle)).trans ((if_neg (not_not.mpr hok)).trans ((if_neg (Bool.eq_false_iff.mp hf)).trans ?_))
  rcases hkind with rfl | rfl | rfl
  all_goals
    refine (if_neg hfree).trans ?_
    extract_lets
    generalize hslot : c.maintSlot die _ _ _ _ _ _ _ _ = found
    obtain rfl : found = some t := hslot.symm.trans h
    rfl

end

theorem Chip.maintDur_eq (c : Chip) (kind : Nat) :
    (if kind = 3 then (c.fig (if kind = 3 then c.maintMode else 0)).tbers else maxNat ((inUseModes c.fig).map (fun m => (c.fig m).tr))) =
      c.maintDur kind := by
  by_cases h : kind = 3
  · simp only [Chip.maintDur, if_pos h]
  · simp only [Chip.maintDur, if_neg h]
    rfl

theorem Chip.maintIssue_eq (c : Chip) (kind : Nat) :
    maxNat ((inUseModes c.fig).map (fun m => (c.nrg m (if kind = 3 then 2 else 0)).1)) = c.maintIssue kind := by
  by_cases h : kind = 3
  · simp only [Chip.maintIssue, if_pos h]
  · simp only [Chip.maintIssue, if_neg h]
    rfl

theorem Chip.maintRun_eq (c : Chip) (kind : Nat) :
    maxNat ((inUseModes c.fig).map (fun m => (c.nrg m (if kind = 3 then 2 else 0)).2)) = c.maintRun kind := by
  by_cases h : kind = 3
  · simp only [Chip.maintRun, if_pos h]
  · simp only [Chip.maintRun, if_neg h]
    rfl

/-- The three commands of a request; an erase keeps the buffer word. -/
theorem exec_calMaint {die planes ahead kind : Nat} {exact : Bool} {buf : Word} {i : Instr}
    (h : (kind, i) ∈ [(1, Instr.calMaintRead die planes ahead exact buf), (3, .calMaintErase die planes ahead exact),
      (6, .calMaintMaintenance die planes ahead exact buf)]) (s : State) :
    (kind = 1 ∨ kind = 3 ∨ kind = 6) ∧ exec i s = .next { s with
      chip := s.chip.maintGo s.env die kind planes ahead exact (if kind = 3 then s.chip.reg Reg.calMaintBuf else buf.toNat) } := by
  simp only [List.mem_cons, Prod.mk.injEq, List.not_mem_nil, or_false] at h
  rcases h with ⟨rfl, rfl⟩ | ⟨rfl, rfl⟩ | ⟨rfl, rfl⟩
  · exact ⟨.inl rfl, rfl⟩
  · exact ⟨.inr (.inl rfl), rfl⟩
  · exact ⟨.inr (.inr rfl), rfl⟩

/-- Settles O32: a write is tested before it is staged, the view shows the entry's words, and a request ends at its first failed test or is booked. -/
theorem calendarRegisters : Obligations.CalendarRegisters := by
  refine ⟨fun s acc v x hw => ?_, fun s die planes ahead kind exact buf i hi => ?_⟩
  · intro c pt budget
    refine ⟨fun hclear hok => ?_, fun hclear hbad => ?_, fun hclear hok => ?_, fun hclear hlow => ?_, fun hentry => ?_⟩
    · rw [exec_calFloorWrite hw, Chip.writeFloor_passes hclear hok]
    · rw [exec_calFloorWrite hw, Chip.writeFloor_refused hclear hbad]
    · rw [exec_calNrgBudgetWrite hw, Chip.writeBudget_passes hclear hok]
    · rw [exec_calNrgBudgetWrite hw, Chip.writeBudget_refused hclear hlow]
    · rw [exec_calDbgSelWrite hw, Chip.dbgSel_entry hentry]
      simp only [CalEntry.words, List.getD_cons_zero, List.getD_cons_succ, satTo_eq_min]
  · obtain ⟨hkind, hexec⟩ := exec_calMaint hi s
    intro c word c0 stops tr m dur ei er t
    have hstops : ∀ st, c.maintGo s.env die kind planes ahead exact word = c0.setReg Reg.calMaintStat st → stops st :=
      fun st h => hexec.trans (congrArg (fun d : Chip => Host.Outcome.next { s with chip := d }) h)
    refine ⟨fun hrun => ?_, fun hidle => ⟨fun habsent => ?_, fun hchan hnear => ?_, fun hchan hfar hplanes => ?_, fun hchan hfar hplanes hfenced => ?_,
      fun hchan hfar hplanes hserved => ⟨fun hexact hlate => ?_, fun n hreach hfree hslot => ?_⟩⟩⟩
    · rw [hexec, Chip.maintGo_running hrun]
    · exact hstops _ (Chip.maintGo_checked hkind hidle (maintCheck_absent habsent) (by decide))
    · exact hstops _ (Chip.maintGo_checked hkind hidle (maintCheck_near hchan hnear) (by decide))
    · exact hstops _ (Chip.maintGo_checked hkind hidle ((maintCheck_of_present hkind hchan hfar).trans (if_pos hplanes)) (by decide))
    · exact hstops _ (Chip.maintGo_fenced hkind hidle ((maintCheck_of_present hkind hchan hfar).trans (if_neg hplanes)) hfenced)
    · exact hstops _ (Chip.maintGo_late hkind hidle ((maintCheck_of_present hkind hchan hfar).trans (if_neg hplanes)) hserved hexact hlate)
    · have hcheck : maintCheck s.env die kind planes ahead = cstOk := (maintCheck_of_present hkind hchan hfar).trans (if_neg hplanes)
      have hdur : dur = c.maintDur kind := c.maintDur_eq kind
      have hei : ei = c.maintIssue kind := c.maintIssue_eq kind
      have her : er = c.maintRun kind := c.maintRun_eq kind
      rw [hdur, hei, her] at hslot
      rw [hdur, hei, her]
      exact ⟨_, c.maintEntry kind planes word n, hexec.trans (congrArg (fun d : Chip => Host.Outcome.next { s with chip := d })
        (Chip.maintGo_booked hkind hidle hcheck hserved hreach hfree hslot)), rfl, rfl, rfl, rfl, rfl, rfl, rfl⟩

end Sys2Proof.Machine
end

section
/-! SUPPORT. Reads: acceptance, Die Busy, the first HARD decode, reconstruct, the rewrite queue and scans (R65, R71, R133, R138, R142-R144, R148). -/

namespace Sys2Proof.Machine

/-! Acceptance and Die Busy (R65, R71). -/

theorem exec_readAccept (id : Nat) (s : State) : exec (.readAccept id) s = .next (goesOn s (s.chip.acceptRead s.env id)) := rfl

/-- A waiting read of a zoned namespace that nothing but its contract's depth and the free buffers can hold back. -/
def Chip.ReadReady (c : Chip) (x : Item) (n : Ns) : Prop :=
  x.write = false ∧ x.stage = .waiting ∧ c.ftuWaits x.cmd = false ∧ c.cal.restarting = false ∧ c.restartRuns .map = false ∧
    c.bit Reg.calCtrl 0 = true ∧ c.noNewWork = false ∧ n.zoned = true ∧ (n.zone (c.itemZone x).1).firstBusy = false

section
variable {c : Chip} {i : Nat} {x : Item} {n : Ns}

theorem Chip.ReadReady.not_held (h : c.ReadReady x n) : (x.write || x.stage != .waiting || c.ftuWaits x.cmd || c.cal.restarting ||
    c.restartRuns .map || !c.bit Reg.calCtrl 0 || (!n.zoned && !c.bit Reg.mapCtrl 0) || c.noNewWork) ≠ true := by
  obtain ⟨hwrite, hstage, hftu, hrestart, hmap, hcal, hnew, hzoned, -⟩ := h
  simp [hwrite, hstage, hftu, hrestart, hmap, hcal, hnew, hzoned]

theorem Chip.ReadReady.not_first (h : c.ReadReady x n) : (n.zoned && (n.zone (c.itemZone x).1).firstBusy) ≠ true := by
  obtain ⟨-, -, -, -, -, -, -, -, hfirst⟩ := h
  simp [hfirst]

theorem Chip.ReadReady.not_fetched (h : c.ReadReady x n) (page : Nat) : (!n.zoned && !c.resident page) ≠ true := by
  obtain ⟨-, -, -, -, -, -, -, hzoned, -⟩ := h
  simp [hzoned]

/-- The depth of a contract is used up (R71). -/
theorem Chip.acceptRead_depthUsed (hx : c.item i = some x) (hn : c.ns x.nsx = some n) (hready : c.ReadReady x n) (hcontracted : x.contracted = true)
    {b : Contract} (hb : c.contract x.nsx = some b) (hdepth : b.q ≤ c.depthUsed x.nsx) (e : Env) : c.acceptRead e i = c := by
  have hfull : (x.contracted && (c.contract x.nsx).any (fun k => decide (k.q ≤ c.depthUsed x.nsx))) = true := by simp [hcontracted, hb, hdepth]
  simp only [Chip.acceptRead, hx, hn]
  rw [if_neg hready.not_held, if_neg hready.not_first, if_neg (hready.not_fetched _), if_pos hfull]

theorem Chip.missq_filter_of_nil (h : c.map.missq = []) (id : Nat) :
    { c with map := { c.map with missq := c.map.missq.filter (fun q => q.1 != id) } } = c := by
  rw [h, List.filter_nil, ← h]

theorem Chip.splitRead_whole {k : Nat} (h : x.nsect ≤ k) : c.splitRead x k = c := if_pos h

theorem Chip.acceptRead_resolved (hx : c.item i = some x) (hn : c.ns x.nsx = some n) (hready : c.ReadReady x n) (hcontracted : x.contracted = false)
    (hmiss : c.map.missq = []) {e : Env} (hrun : c.firstRun e x.nsx x.ltag x.nsect n false = x.nsect) (hsize : c.readSize e x n = 0)
    (hrebuild : (c.itemSrcs e x n (c.packAt x.nsx x.ltag n)).contains .rebuild = false) :
    c.acceptRead e i = (c.updItem i (fun y => { y with buffers := [] })).resolveRead e i n := by
  have hbest : ∀ p, (x.contracted && p) = false := fun p => by simp [hcontracted]
  simp only [Chip.acceptRead, hx, hn]
  rw [if_neg hready.not_held, if_neg hready.not_first, if_neg (hready.not_fetched _), if_neg (Bool.eq_false_iff.mp (hbest _)),
    Chip.missq_filter_of_nil hmiss, hbest, hrun, Chip.splitRead_whole le_rfl, show ({ x with nsect := x.nsect } : Item) = x from rfl,
    if_neg (Bool.eq_false_iff.mp hrebuild), hsize]
  rfl

end

theorem exec_dieBusyPost {s : State} {i : Nat} {x : Item} (hx : s.chip.item i = some x) (hstage : x.stage = .flash) (hstatus : x.status = itBusy)
    (hdue : x.accept + 1 ≤ s.chip.tick) : exec (.dieBusyPost i) s =
      .next (goesOn s ((s.chip.updItem i (fun y => { y with hint := y.hint - s.chip.tick })).endItem s.env i itBusy 0 0)) := by
  have hpost : (x.stage = .flash && x.status = itBusy && decide (x.accept + 1 ≤ s.chip.tick)) = true := by simp [hstage, hstatus, hdue]
  rw [show exec (.dieBusyPost i) s = execDieBusyPost i s from rfl]
  simp only [execDieBusyPost, onItems, onHost, hx]
  rw [if_pos hpost]
  rfl

/-! The first HARD decode (R133, R142, R143). -/

theorem exec_codewordDecode (job sect : Nat) (out : DecodeOutcome) (s : State) :
    exec (.codewordDecode job sect out) s = .next (goesOn s (s.chip.decode s.env job sect out)) := rfl

section
variable {c : Chip} {id sect : Nat} {j : CalJob} {q : SectJob}

theorem Chip.takeSoft_hard (hstep : q.step = 0) (hsoft : q.soft = false) (k : Nat) : c.takeSoft k q = c := by
  simp [Chip.takeSoft, hstep, hsoft]

/-- A codeword that HARD corrects, with few enough bits (R143), is counted and its sector ends. -/
theorem Chip.decode_hard_corrected (hj : c.job id = some j) (hq : j.sects.find? (fun y => y.sect == sect) = some q) (hcan : c.canDecode j q = true)
    (hstep : q.step = 0) (hsoft : q.soft = false) {bits : Nat} (hbits : bits ≤ c.fld (Reg.decThr (dieCluster j.die)) 7 0)
    (hthr : 0 < c.fld (Reg.decThr (dieCluster j.die)) 9 8) (e : Env) :
    c.decode e id sect (.corrected bits) = (c.countCodeword (dieCluster j.die) 0 0 bits).sectDone e j.id q.sect cstOk bits := by
  have hnot : ¬ c.fld (Reg.decThr (dieCluster j.die)) 9 8 ≤ 0 := by omega
  simp only [Chip.decode, hj, hq, hcan, Chip.takeSoft_hard hstep hsoft]
  simp [Chip.stepOk, hstep, not_lt.mpr hbits, hnot]

/-- One that HARD does not correct goes on to the soft lane (R133). -/
theorem Chip.decode_hard_failed (hj : c.job id = some j) (hq : j.sects.find? (fun y => y.sect == sect) = some q) (hcan : c.canDecode j q = true)
    (hstep : q.step = 0) (hsoft : q.soft = false) (hlane : c.softFenced (dieCluster j.die) = false) (e : Env) :
    c.decode e id sect .failed = c.updJob j.id (fun y => { y with
      sects := updateWhere (fun z => z.sect == q.sect) (fun z => { z with step := 1, soft := true, hardTick := c.tick }) y.sects }) := by
  simp only [Chip.decode, hj, hq, hcan, Chip.takeSoft_hard hstep hsoft]
  simp [Chip.stepFail, hstep, hlane]

/-- A tag mismatch is queued for rewrite and logged, and ends its sector with code 0x81 (R133). -/
theorem Chip.decode_hard_tagMismatch (hj : c.job id = some j) (hq : j.sects.find? (fun y => y.sect == sect) = some q) (hcan : c.canDecode j q = true)
    (hstep : q.step = 0) (hsoft : q.soft = false) (hparity : j.parityMember = false) (hparent : j.parent = none) (e : Env) :
    c.decode e id sect .tagMismatch = ((((c.countCodeword (dieCluster j.die) 0 0 0).rewriteJob j 4 0 0).raise 320 0x81 j.fn
      (j.die + c.jobBlock j * 4096) 0).sectDone e id sect 0x81 0) := by
  simp only [Chip.decode, hj, hq, hcan, Chip.takeSoft_hard hstep hsoft]
  simp [hstep, hparity, hparent]

end

/-! Reconstruct (R63, R138). -/

theorem exec_reconstructXor {s : State} {id : Nat} {j : CalJob} {q : SectJob} (hj : s.chip.job id = some j) (hready : s.chip.peersReady j = true)
    (hsects : j.sects = [q]) (hopen : q.done = none) (ok : Bool) : exec (.reconstructXor id ok) s =
      .next (goesOn s (((s.chip.endRecon id).updJob id (fun y => { y with waiting := false, read := true })).sectDone s.env id q.sect
        (if ok then cstOk else 0x80) 0)) := by
  rw [show exec (.reconstructXor id ok) s = execReconstructXor id ok s from rfl]
  simp only [execReconstructXor, onItems, onHost, hj, hready, hsects, List.foldl_cons, List.foldl_nil, hopen]
  rfl

/-! The rewrite queue and lane fences (R132, R144). -/

theorem exec_rewriteQueuePop {s : State} {acc : Access} {k : Nat} (hw : acc.who < 9) (hk : k < 8 * s.env.part.regions) :
    exec (.rewriteQueuePop acc k) s = .next { s with chip := s.chip.rwqPop acc k } := by
  have hserved : (decide (9 ≤ acc.who) || decide (8 * s.env.part.regions ≤ k)) ≠ true := by simp [hw, hk]
  rw [show exec (.rewriteQueuePop acc k) s =
    onChip (fun x => if 9 ≤ acc.who || 8 * s.env.part.regions ≤ k then x else x.rwqPop acc k) s from rfl, onChip_eq, if_neg hserved]

/-- A pop answers the oldest entry, keeps its high word for the accessor, and plans what it asks for. -/
theorem Chip.rwqPop_cons {c : Chip} {k : Nat} {r : Rewrite} {rest : List Rewrite} (h : (c.dec k).queue = r :: rest) (acc : Access) :
    let d := (c.setDec k { c.dec k with queue := rest }).planRewrite r
    c.rwqPop acc k = { d with
      resp := ⟨BitVec.ofNat 32 (r.word % 2 ^ 32), cstOk⟩
      regs := { d.regs with rdHold := Tab.insert d.regs.rdHold (acc.who * 2 ^ 32 + Reg.decRwqLo k) (some (BitVec.ofNat 32 (r.word / 2 ^ 32))) } } := by
  simp only [Chip.rwqPop, h, List.drop_succ_cons, List.drop_zero]

/-- A fence of HARD lanes alone fails no codeword. -/
theorem Chip.decFence_hard {mask : Nat} (h : mask < 16) (c : Chip) (e : Env) (k : Nat) : c.decFence e k mask = c.orReg (Reg.decCtrl k) (mask * 2) := by
  have hsoft : bitOf mask 4 = false := Nat.testBit_lt_two_pow h
  simp [Chip.decFence, hsoft, Nat.mod_eq_of_lt (show mask < 32 by omega)]

theorem exec_decLaneFence {s : State} {k : Nat} (hk : k < 8 * s.env.part.regions) (mask : Nat) :
    exec (.decLaneFence k mask) s = .next (goesOn s (s.chip.decFence s.env k mask)) := by
  rw [show exec (.decLaneFence k mask) s = .next (goesOn s
    (if 8 * s.env.part.regions ≤ k then s.chip else s.chip.decFence s.env k mask)) from rfl, if_neg (by omega)]

/-! Scans (R148). -/

theorem exec_firstSampleScan {s : State} {cord cblk : Nat} {b : CordBlk} (hb : s.chip.cblk cord cblk = some b) (hnew : s.chip.noNewWork = false)
    (hquiet : s.chip.cblkQuiet cord cblk = true) (hgroups : 0 < b.groups) (hstamp : Tab.get (fun _ => 0) s.chip.map.sampled (cord * 65536 + cblk) = 0) :
    let d := (List.range 16).foldl (fun c k => (b.scanRows ++ [b.groups * rpwOf b.mode - 1]).foldl (fun c r => c.scanRead b k r) c) s.chip
    exec (.firstSampleScan cord cblk) s = .next { s with chip := { d with map := { d.map with
      sampled := Tab.set (fun _ => 0) d.map.sampled (cord * 65536 + cblk) (s.chip.tick + 1) } } } := by
  have hfirst : (s.chip.noNewWork || !s.chip.cblkQuiet cord cblk || b.groups = 0 ||
      Tab.get (fun _ => 0) s.chip.map.sampled (cord * 65536 + cblk) ≠ 0) ≠ true := by
    simp [hnew, hquiet, hstamp, hgroups.ne']
  rw [show exec (.firstSampleScan cord cblk) s = execFirstSampleScan cord cblk s from rfl]
  simp only [execFirstSampleScan, onChip_eq, hb]
  rw [if_neg hfirst]

theorem exec_patrolRead {s : State} {cord cblk m : Nat} {b : CordBlk} (hb : s.chip.cblk cord cblk = some b) (hnew : s.chip.noNewWork = false)
    (hquiet : s.chip.cblkQuiet cord cblk = true) (hm : m < 16) (hstamp : Tab.get (fun _ => 0) s.chip.map.sampled (cord * 65536 + cblk) ≠ 0) :
    exec (.patrolRead cord cblk m) s = .next { s with chip := b.scanRows.foldl (fun c r => c.scanRead b m r) s.chip } := by
  have hsampled : (s.chip.noNewWork || !s.chip.cblkQuiet cord cblk || 16 ≤ m ||
      Tab.get (fun _ => 0) s.chip.map.sampled (cord * 65536 + cblk) = 0) ≠ true := by
    simp [hnew, hquiet, hstamp, hm]
  rw [show exec (.patrolRead cord cblk m) s = execPatrolRead cord cblk m s from rfl]
  simp only [execPatrolRead, onChip_eq, hb]
  rw [if_neg hsampled]

/-- A maintenance read of one codeword is booked behind all others. -/
theorem Chip.scanRead_jobs (c : Chip) (b : CordBlk) (m row : Nat) : ∃ j, (c.scanRead b m row).cal.jobs = c.cal.jobs ++ [j] ∧ j.owner = .maint ∧
    j.die = (b.members.getD m (0, 0)).1 ∧ j.row = row ∧ j.contracted = false ∧ j.sects.length = 1 := ⟨_, rfl, rfl, rfl, rfl, rfl, rfl⟩

/-- Settles O33: each command is one equation under its conditions, and a scan's reads are counted off its rows. -/
theorem readsDecodesAndScans : Obligations.ReadsDecodesAndScans := by
  refine ⟨fun s id sect bits k x n j q acc r rest => ?_, fun s cord cblk m b hb hnew hquiet => ?_⟩
  · intro c ready j0
    refine ⟨fun hx hn hready hcontracted hdepth => ?_, fun hx hn hready hcontracted hmiss _ hsize hrebuild hrun => ?_,
      exec_dieBusyPost, fun hj hq hcan hstep hsoft => ⟨fun hbits hthr => ?_, fun hlane => ?_, fun hparity hparent => ?_⟩,
      fun ok hj hready hsects hopen => exec_reconstructXor hj hready hsects hopen ok, fun hw hk hqueue => ?_, fun hk hbits => ?_⟩
    · obtain ⟨b, hb, hfull⟩ := hdepth
      rw [exec_readAccept, Chip.acceptRead_depthUsed hx hn hready hcontracted hb hfull]
    · rw [exec_readAccept, Chip.acceptRead_resolved hx hn hready hcontracted hmiss hrun hsize hrebuild]
    · rw [exec_codewordDecode, Chip.decode_hard_corrected hj hq hcan hstep hsoft hbits hthr]
      rfl
    · rw [exec_codewordDecode, Chip.decode_hard_failed hj hq hcan hstep hsoft hlane]
    · rw [exec_codewordDecode, Chip.decode_hard_tagMismatch hj hq hcan hstep hsoft hparity hparent]
    · rw [exec_rewriteQueuePop hw hk, Chip.rwqPop_cons hqueue]
      rfl
    · rw [exec_decLaneFence hk, Chip.decFence_hard hbits]
  · intro c stamp firsts
    exact ⟨fun hgroups hstamp => exec_firstSampleScan hb hnew hquiet hgroups hstamp, fun hm hstamp => exec_patrolRead hb hnew hquiet hm hstamp,
      Chip.scanRead_jobs c b m⟩

end Sys2Proof.Machine
end

section
/-! SUPPORT. Channel engines, and the losses of open rows (R88, R91-R93, R121, R159, R162-R164). -/

namespace Sys2Proof.Machine

/-! Channel engines (R88, R91-R93, R121). -/

section
variable {c : Chip} {n : Nat}

theorem Chip.grownFence_of_grown_nil (h : c.map.grown = []) (cause die : Nat) : c.grownFence cause die = false := by
  rw [Chip.grownFence, h, List.any_nil]

/-- The checks of START hold, and the grown table fences neither the channel nor a chip enable of it. -/
theorem Chip.chStart_begins {e : Env} (hheld : c.held = false) (hpresent : e.chanPresent n = true) (hoff : (c.chan n).phase = .off)
    (hlun : 1 ≤ c.fld (Reg.chCfg n) 15 12) (hluns : c.fld (Reg.chCfg n) 15 12 ≤ 8) (hces : c.declaredCe n ≠ []) (hgrown : c.map.grown = []) :
    c.chStart e n = c.updChan n (fun x => { x with
      phase := .bringup
      started := c.tick }) := by
  have hstarts : (c.held || !e.chanPresent n || (c.chan n).phase != .off) ≠ true := by simp [hheld, hpresent, hoff]
  have hdeclared : firstFail [(decide (c.fld (Reg.chCfg n) 15 12 = 0) || decide (8 < c.fld (Reg.chCfg n) 15 12), cstBad),
      (c.declaredCe n == [], cstZero)] = cstOk := by
    rw [firstFail_passes (by simp [hluns, Nat.one_le_iff_ne_zero.mp hlun]), firstFail_passes (by simpa using hces)]
    rfl
  have hskip : (c.declaredCe n).filter (fun ce => c.grownFence 6 (n * 32 + ce * 8)) = [] := by
    simp [Chip.grownFence_of_grown_nil hgrown]
  simp only [Chip.chStart]
  rw [if_neg hstarts, if_neg (not_not.mpr hdeclared), if_neg (Bool.eq_false_iff.mp (Chip.grownFence_of_grown_nil hgrown 7 _)), hskip]
  rfl

/-- One chip enable that passes at the declared rate leaves nothing to step down or to fence (R92). -/
theorem trainRounds_passes {rate : Nat} (hlow : 3 ≤ rate) (hrate : rate < 7) (k ce : Nat) :
    trainRounds rate (k + 1) [(ce, rate + 1)] = (some rate, [], 0) := by
  have hnot : ¬ rate < 3 := by omega
  have hbest : Nat.min 8 (rate + 1) = rate + 1 := Nat.min_eq_right (by omega)
  simp [trainRounds, hnot, hbest, hlow]

theorem Chip.bringEnd_running (hphase : (c.chan n).phase = .bringup) (hfenced : (c.chan n).ceFenced = 0) (hces : c.declaredCe n = [0])
    (hrate : c.fld (Reg.chCfg n) 22 20 < 7) (hlow : 3 ≤ c.fld (Reg.chCfg n) 22 20) (e : Env) :
    c.bringEnd e n [c.fld (Reg.chCfg n) 22 20 + 1] = ((c.updChan n (fun x => { x with
      phase := .running
      rateNow := c.fld (Reg.chCfg n) 22 20
      extNow := c.bit (Reg.chCfg n) 19 })).bringDies e n).setEyes n 0 := by
  have halive : (([0].zipIdx.map (fun p => (p.1, [c.fld (Reg.chCfg n) 22 20 + 1].getD p.2 0))).filter
      (fun p => !bitOf (c.chan n).ceFenced p.1)) = [(0, c.fld (Reg.chCfg n) 22 20 + 1)] := by
    simp [hfenced, bitOf]
  simp only [Chip.bringEnd]
  rw [if_neg (not_not.mpr hphase), hces, halive, trainRounds_passes hlow hrate]
  simp

end

theorem exec_chStart (n : Nat) (s : State) : exec (.chStart n) s = .next { s with chip := s.chip.chStart s.env n } := rfl

theorem exec_bringupEnd (n : Nat) (best : List Nat) (s : State) :
    exec (.bringupEnd n best) s = .next (goesOn s (s.chip.bringEnd s.env n best)) := rfl

theorem exec_bringupTimeout {s : State} {n : Nat} (hphase : (s.chip.chan n).phase = .bringup) (hlate : (s.chip.chan n).started + 25000 ≤ s.chip.tick) :
    exec (.bringupTimeout n) s = .next (goesOn s ((s.chip.fenceChan s.env n true).updChan n (fun x => { x with detail := 0x85 }))) := by
  rw [show exec (.bringupTimeout n) s = .next (goesOn s (if (s.chip.chan n).phase = .bringup ∧ (s.chip.chan n).started + 25000 ≤ s.chip.tick
    then s.chip.bringFail s.env n 0x85 true else s.chip)) from rfl, if_pos ⟨hphase, hlate⟩]
  rfl

/-- FENCE marks a channel that is there in its control register; only a running engine has dies to fence (R88, R121). -/
theorem exec_chFence {s : State} {n : Nat} (hpresent : s.env.chanPresent n = true) :
    exec (.chFence n) s = .next (goesOn s (if (s.chip.chan n).phase = .running then (s.chip.setBit (Reg.chCtrl n) 1 true).fenceChan s.env n false
      else s.chip.setBit (Reg.chCtrl n) 1 true)) := by
  have hthere : (!s.env.chanPresent n) ≠ true := by simp [hpresent]
  rw [show exec (.chFence n) s = .next (goesOn s (s.chip.chFence s.env n)) from rfl, Chip.chFence, if_neg hthere]

/-! Pads, lost pages and rebuilds (R159, R162-R164). -/

theorem exec_groupPad {s : State} {id : Nat} {g : Group} (hg : s.chip.group id = some g) (hdue : s.chip.padDue g = true) :
    exec (.groupPad id) s = .next (goesOn s (s.chip.padNow s.env id true).2) := by
  rw [show exec (.groupPad id) s = execGroupPad id s from rfl]
  simp only [execGroupPad, onItems, onHost, hg]
  rw [if_pos hdue]
  rfl

theorem exec_pageLoss (id row : Nat) (slot : Option Nat) (plane : Nat) (s : State) :
    exec (.pageLoss id row slot plane) s = .next (goesOn s (s.chip.losePageOf s.env id row slot plane)) := rfl

theorem exec_pageRebuildDone (id row : Nat) (s : State) :
    exec (.pageRebuildDone id row) s = .next (goesOn s (s.chip.updGroup id (fun g => { g with lost := g.lost.filter (fun l => l.1 != row) }))) := rfl

/-- A page of a group whose program has not passed, not lost before, in a row that has not taken PARITY_LOST: the loss is noted, and the row is lost
where it had lost a page already (R162, R163). -/
theorem Chip.losePageOf_noted {c : Chip} {id row slot plane : Nat} {g : Group} (hg : c.group id = some g)
    (hpage : (g.pages.any (fun p => p.row == row && p.slot == slot && p.plane == plane && !p.passed)) = true)
    (hfirst : g.pageLost row (some slot) plane = false) (hrow : g.plRows.contains row = false) (e : Env) :
    c.losePageOf e id row (some slot) plane =
      let lost := c.updGroup id (fun y => { y with lost := y.lost ++ [(row, some slot, plane)] })
      if g.lost.any (fun l => l.1 == row) then lost.parityLost e id row else lost := by
  have htaken : (!g.pages.any (fun p => p.row == row && p.slot == slot && p.plane == plane && !p.passed) ||
      g.pageLost row (some slot) plane || g.plRows.contains row) ≠ true := by rw [hpage, hfirst, hrow]; decide
  simp only [Chip.losePageOf, hg]
  rw [if_neg htaken]

/-- Settles O34: each command of a channel engine is one equation under its conditions, and the losses of a row are told apart by what it had lost before. -/
theorem channelsRowsAndPages : Obligations.ChannelsRowsAndPages := by
  refine ⟨fun s n best => ?_, fun s id row plane slot g hg => ?_⟩
  · intro c luns rate
    refine ⟨fun hheld hpresent hoff hlun hluns hces hgrown => ?_, fun hphase hfenced hces hrate hlow hbest => ?_, exec_bringupTimeout,
      fun hpresent hrunning => ?_, fun hpresent hoff => ?_⟩
    · rw [exec_chStart, Chip.chStart_begins hheld hpresent hoff hlun hluns hces hgrown]
    · rw [exec_bringupEnd, hbest, Chip.bringEnd_running hphase hfenced hces hrate hlow]
    · rw [exec_chFence hpresent, if_pos hrunning]
    · have hidle : (s.chip.chan n).phase ≠ .running := by rw [hoff]; decide
      rw [exec_chFence hpresent, if_neg hidle]
  · intro c
    refine ⟨exec_groupPad hg, fun hpage hfirst hrow => ⟨fun hnone => ?_, fun hsome => ?_⟩, exec_pageRebuildDone id row s⟩
    · have hwhole : g.lost.any (fun l => l.1 == row) ≠ true := by
        rw [Ne, List.any_eq_true]
        exact fun ⟨l, hl, h⟩ => hnone l hl (eq_of_beq h)
      rw [exec_pageLoss, Chip.losePageOf_noted hg hpage hfirst hrow, if_neg hwhole]
    · have hlost : g.lost.any (fun l => l.1 == row) = true := by
        obtain ⟨l, hl, h⟩ := hsome
        exact List.any_eq_true.mpr ⟨l, hl, beq_iff_eq.mpr h⟩
      rw [exec_pageLoss, Chip.losePageOf_noted hg hpage hfirst hrow, if_pos hlost]

end Sys2Proof.Machine
end

section
/-! SUPPORT. The map: pins, ended fetches, moves of collection and refresh, and the service of the bad block table (R175-R187). -/

namespace Sys2Proof.Machine

/-! Pins (R177). -/

section
variable {c : Chip} {nsx : Nat} {n : Ns}

theorem Chip.pinCheck_none (hn : c.ns nsx = none) : c.pinCheck nsx = cstBad := by simp only [Chip.pinCheck, hn]

theorem Chip.pinCheck_zoned (hn : c.ns nsx = some n) (hzoned : n.zoned = true) : c.pinCheck nsx = cstBad := by
  simp only [Chip.pinCheck, hn]
  rw [if_pos hzoned]

/-- A namespace that is not pinned yet and would take the pins beyond PIN_MAX. -/
theorem Chip.pinCheck_limit (hn : c.ns nsx = some n) (hzoned : n.zoned = false) (hfree : nsx ∉ c.map.pinned)
    (hmax : c.pinLimit < c.pinnedSlots (fun _ => true) + pagesIn n.size) : c.pinCheck nsx = cstLimit := by
  have hnew : c.map.pinned.contains nsx ≠ true := by simpa using hfree
  simp only [Chip.pinCheck, hn]
  rw [if_neg (Bool.eq_false_iff.mp hzoned), if_neg hnew, firstFail_fails (decide_eq_true hmax)]

/-- MAP_PIN_CTRL as GO leaves it: the operation runs, on namespace `nsx`, an unpin where `un` is 1. -/
def Chip.pinAsked (c : Chip) (nsx un : Nat) : Chip := c.setReg Reg.mapPinCtrl (2 ^ 31 + un * 2 ^ 30 + nsx * 2 ^ 16)

/-- The end of an operation of MAP_PIN_CTRL with its status. -/
def Chip.pinEnd (c : Chip) (st : Nat) : Chip := (c.setFld Reg.mapPinCtrl 15 8 st).setBit Reg.mapPinCtrl 31 false

/-- A pin ends at once where its check fails, and else pins the pages. -/
theorem Chip.pinGo_pin (hlt : nsx < 1024) (hidle : c.bit Reg.mapPinCtrl 31 = false) : c.pinGo false nsx =
    if c.pinCheck nsx ≠ cstOk then (c.pinAsked nsx 0).pinEnd (c.pinCheck nsx) else ((c.pinAsked nsx 0).pinNs nsx).pinSettle := by
  simp only [Chip.pinGo, if_neg (Bool.eq_false_iff.mp hidle), Nat.mod_eq_of_lt hlt, Chip.pinAsked, Chip.pinEnd, b2n, Bool.false_eq_true, if_false]

/-- An unpin ends the pin of a conventional namespace that has one; there is nothing else for it to end. -/
theorem Chip.pinGo_unpin (hlt : nsx < 1024) (hidle : c.bit Reg.mapPinCtrl 31 = false) : c.pinGo true nsx =
    if c.map.pinned.contains nsx && ((c.ns nsx).any (fun n => !n.zoned)) then ((c.pinAsked nsx 1).unpinNs nsx).pinEnd cstOk
    else (c.pinAsked nsx 1).pinEnd cstBad := by
  simp only [Chip.pinGo, if_neg (Bool.eq_false_iff.mp hidle), Nat.mod_eq_of_lt hlt, Chip.pinAsked, Chip.pinEnd, b2n, if_true]

end

section
variable {s : State} {nsx : Nat} {n : Ns}

theorem exec_mapPin_refused (hlt : nsx < 1024) (hidle : s.chip.bit Reg.mapPinCtrl 31 = false) {st : Nat} (hcheck : s.chip.pinCheck nsx = st)
    (hst : st ≠ cstOk) : exec (.mapPin nsx) s = .next { s with chip := (s.chip.pinAsked nsx 0).pinEnd st } := by
  rw [show exec (.mapPin nsx) s = .next { s with chip := s.chip.pinGo false nsx } from rfl, Chip.pinGo_pin hlt hidle, hcheck, if_pos hst]

theorem exec_mapPin_accepted (hlt : nsx < 1024) (hidle : s.chip.bit Reg.mapPinCtrl 31 = false) (hcheck : s.chip.pinCheck nsx = cstOk) :
    exec (.mapPin nsx) s = .next { s with chip := ((s.chip.pinAsked nsx 0).pinNs nsx).pinSettle } := by
  rw [show exec (.mapPin nsx) s = .next { s with chip := s.chip.pinGo false nsx } from rfl, Chip.pinGo_pin hlt hidle, if_neg (not_not.mpr hcheck)]

theorem exec_mapUnpin_pinned (hlt : nsx < 1024) (hidle : s.chip.bit Reg.mapPinCtrl 31 = false) (hn : s.chip.ns nsx = some n)
    (hzoned : n.zoned = false) (hpin : nsx ∈ s.chip.map.pinned) :
    exec (.mapUnpin nsx) s = .next { s with chip := ((s.chip.pinAsked nsx 1).unpinNs nsx).pinEnd cstOk } := by
  have hends : (s.chip.map.pinned.contains nsx && ((s.chip.ns nsx).any (fun n => !n.zoned))) = true := by simp [hpin, hn, hzoned]
  rw [show exec (.mapUnpin nsx) s = .next { s with chip := s.chip.pinGo true nsx } from rfl, Chip.pinGo_unpin hlt hidle, if_pos hends]

theorem exec_mapUnpin_free (hlt : nsx < 1024) (hidle : s.chip.bit Reg.mapPinCtrl 31 = false) (hfree : nsx ∉ s.chip.map.pinned) :
    exec (.mapUnpin nsx) s = .next { s with chip := (s.chip.pinAsked nsx 1).pinEnd cstBad } := by
  have hnone : (s.chip.map.pinned.contains nsx && ((s.chip.ns nsx).any (fun n => !n.zoned))) ≠ true := by simp [hfree]
  rw [show exec (.mapUnpin nsx) s = .next { s with chip := s.chip.pinGo true nsx } from rfl, Chip.pinGo_unpin hlt hidle, if_neg hnone]

end

/-! Fetches (R175). -/

/-- A page that has been read takes the entries that waited for it: it is dirty where there were any. -/
theorem Chip.mapFetched_read {c : Chip} {page : Nat} (hstate : (c.mslot page).state = .fetching) (hread : (c.mslot page).read = true)
    (hjobs : ∀ j ∈ c.cal.jobs, j.owner ≠ .mapFetch page) : c.mapFetched page =
      (((c.mslot page).held.foldl (fun c h => c.applyEntry h.1 h.2) c).setMslot page { c.mslot page with
        state := if (c.mslot page).held = [] then .clean else .dirty
        held := []
        read := false }).pinSettle := by
  have hdone : ((c.mslot page).state = .fetching && ((c.mslot page).read || !bitOf (Tab.get (fun _ => 0) c.map.dir page) 63 ||
      bitOf (Tab.get (fun _ => 0) c.map.dir page) 62) && !c.cal.jobs.any (fun j => j.owner == .mapFetch page)) = true := by
    simpa [hstate, hread] using hjobs
  simp only [Chip.mapFetched]
  rw [if_pos hdone, Chip.fetchDone, if_neg (not_not.mpr hstate)]

theorem exec_mapFetchDone (page : Nat) (s : State) : exec (.mapFetchDone page) s = .next (goesOn s (s.chip.mapFetched page)) := rfl

/-! The bad block table (R187). -/

section
variable {c : Chip} {e : Env} {lc : Lifecycle}

/-- MAP_BBT_CMD as GO leaves it: operation `op` runs. -/
def Chip.bbtAsked (c : Chip) (op : Nat) : Chip := (c.setFld Reg.mapBbtCmd 30 28 op).setBit Reg.mapBbtCmd 31 true

theorem Chip.bbtGo_idle (hidle : c.map.bbtWait = none) (op : Nat) : c.bbtGo e lc op = (c.bbtAsked op).bbtRun e lc := by
  rw [Chip.bbtGo, hidle, Option.isSome_none, if_neg Bool.false_ne_true, Chip.bbtAsked]

@[simp] theorem Chip.bbtAsked_map (c : Chip) (op : Nat) : (c.bbtAsked op).map = c.map := by
  rw [Chip.bbtAsked, Chip.setBit_map, Chip.setFld_map]

/-- The entry that the registers MAP_BBT_E spell. -/
def Chip.bbtEntry (c : Chip) : Grown :=
  grownOf (c.reg (Reg.mapBbtE 0)) (c.reg (Reg.mapBbtE 1)) (c.reg (Reg.mapBbtE 2)) (c.reg (Reg.mapBbtE 3))

/-- READ shows the entry's four words in MAP_BBT_E. -/
theorem Chip.bbtRun_read {g : Grown} {idx : Nat} (hop : c.fld Reg.mapBbtCmd 30 28 = 0) (hidx : c.fld Reg.mapBbtIdx 22 0 = idx)
    (hg : c.map.grown[idx]? = some g) :
    c.bbtRun e lc = ((((c.setReg (Reg.mapBbtE 0) (g.die + g.planes * 2 ^ 12 + g.cause * 2 ^ 18)).setReg (Reg.mapBbtE 1) g.block).setReg
      (Reg.mapBbtE 2) (g.time % 2 ^ 32)).setReg (Reg.mapBbtE 3) (g.time / 2 ^ 32 % 2 ^ 32)).bbtEnd cstOk := by
  simp only [Chip.bbtRun, hop, hidx, hg]
  rfl

theorem Chip.bbtRun_add_badCause (hop : c.fld Reg.mapBbtCmd 30 28 = 1) (hcause : c.bbtEntry.cause ≠ 4) : c.bbtRun e lc = c.bbtEnd cstBad := by
  simp only [Chip.bbtRun, hop]
  exact if_pos hcause

/-- An entry of a block that no cord block holds is in the table at once. -/
theorem Chip.bbtRun_add_unused (hop : c.fld Reg.mapBbtCmd 30 28 = 1) (hcause : c.bbtEntry.cause = 4)
    (hunused : ∀ b ∈ c.map.cblks, (c.bbtEntry.die, c.bbtEntry.block) ∉ b.members) :
    c.bbtRun e lc = (({ c with map := { c.map with
      grown := c.map.grown ++ [c.bbtEntry]
      bbtWait := none } } : Chip).bbtEnd cstOk).retireCheck e c.bbtEntry.die := by
  have hlive : c.map.cblks.filter (fun b => b.members.contains (c.bbtEntry.die, c.bbtEntry.block)) = [] := by
    simpa [List.filter_eq_nil_iff] using hunused
  have hfree : c.map.cblks.any (fun b => b.members.contains (c.bbtEntry.die, c.bbtEntry.block)) ≠ true := by simpa using hunused
  simp only [Chip.bbtRun, hop]
  rw [← Chip.bbtEntry, if_neg (not_not.mpr hcause), hlive, List.foldl_nil]
  exact if_neg hfree

theorem Chip.bbtRun_remove_lifecycle (hop : c.fld Reg.mapBbtCmd 30 28 = 2) (hlc : lc ≠ .provisioned) : c.bbtRun e lc = c.bbtEnd cstLife := by
  simp only [Chip.bbtRun, hop]
  exact if_pos hlc

/-- An entry of a fenced chip enable or channel leaves the table, and no die is put back. -/
theorem Chip.bbtRun_remove_unit {g : Grown} {idx : Nat} (hop : c.fld Reg.mapBbtCmd 30 28 = 2) (hlc : lc = .provisioned)
    (hidx : c.fld Reg.mapBbtIdx 22 0 = idx) (hg : c.map.grown[idx]? = some g) (hcause : 5 < g.cause) :
    c.bbtRun e lc = ({ c with map := { c.map with grown := c.map.grown.eraseIdx idx } } : Chip).bbtEnd cstOk := by
  simp only [Chip.bbtRun, hop, hidx, hg]
  rw [if_neg (not_not.mpr hlc), if_neg (by omega), if_neg (by omega)]

end

/-- The four words of an entry in MAP_BBT_E. -/
def Chip.putEntry (c : Chip) (w0 w1 w2 w3 : Word) : Chip :=
  (((c.setReg (Reg.mapBbtE 0) w0.toNat).setReg (Reg.mapBbtE 1) w1.toNat).setReg (Reg.mapBbtE 2) w2.toNat).setReg (Reg.mapBbtE 3) w3.toNat

@[simp] theorem Chip.putEntry_map (c : Chip) (w0 w1 w2 w3 : Word) : (c.putEntry w0 w1 w2 w3).map = c.map := rfl

section
variable {s : State} {idx : Nat} {d : Chip}

theorem exec_bbtRead (hidle : s.chip.map.bbtWait = none)
    (hrun : ((s.chip.setFld Reg.mapBbtIdx 22 0 idx).bbtAsked 0).bbtRun s.env s.fuse.lifecycle = d) :
    exec (.bbtRead idx) s = .next { s with chip := d } := by
  rw [show exec (.bbtRead idx) s = .next { s with chip := (s.chip.setFld Reg.mapBbtIdx 22 0 idx).bbtGo s.env s.fuse.lifecycle 0 } from rfl,
    Chip.bbtGo_idle (c := s.chip.setFld Reg.mapBbtIdx 22 0 idx) hidle, hrun]

theorem exec_bbtRemove (hidle : s.chip.map.bbtWait = none)
    (hrun : ((s.chip.setFld Reg.mapBbtIdx 22 0 idx).bbtAsked 2).bbtRun s.env s.fuse.lifecycle = d) :
    exec (.bbtRemove idx) s = .next { s with chip := d } := by
  rw [show exec (.bbtRemove idx) s = .next { s with chip := (s.chip.setFld Reg.mapBbtIdx 22 0 idx).bbtGo s.env s.fuse.lifecycle 2 } from rfl,
    Chip.bbtGo_idle (c := s.chip.setFld Reg.mapBbtIdx 22 0 idx) hidle, hrun]

theorem exec_bbtAdd {w0 w1 w2 w3 : Word} (hidle : s.chip.map.bbtWait = none)
    (hrun : ((s.chip.putEntry w0 w1 w2 w3).bbtAsked 1).bbtRun s.env s.fuse.lifecycle = d) :
    exec (.bbtAdd w0 w1 w2 w3) s = .next (goesOn s d) := by
  rw [show exec (.bbtAdd w0 w1 w2 w3) s = .next (goesOn s ((s.chip.putEntry w0 w1 w2 w3).bbtGo s.env s.fuse.lifecycle 1)) from rfl,
    Chip.bbtGo_idle (c := s.chip.putEntry w0 w1 w2 w3) hidle, hrun]

end

/-! Collection (R180-R182). -/

section
variable {c : Chip} {e : Env} {l : Loc} {x : Cord} {b : CordBlk}

theorem exec_gcMoveCommit (nsx ltag : Nat) (l : Loc) (s : State) :
    exec (.gcMoveCommit nsx ltag l) s = .next (goesOn s (s.chip.gcMove s.env nsx ltag l)) := rfl

theorem Chip.gcMove_notVictim (hx : c.cord l.cord = some x) (hb : c.victim e l.cord = some b) (hnot : b.idx ≠ l.cblk ∨ c.gcLevel e x = 0)
    (nsx ltag : Nat) : c.gcMove e nsx ltag l = c := by
  simp only [Chip.gcMove, hx, hb]
  exact if_pos (.inr (hnot.imp_right .inl))

/-- A sector of the victim of a cord under pressure moves, and the victim is erased with its last valid sector (R181). -/
theorem Chip.gcMove_victim {d : Chip} (hx : c.cord l.cord = some x) (hb : c.victim e l.cord = some b) (hidx : b.idx = l.cblk)
    (hlevel : c.gcLevel e x ≠ 0) (hnew : c.noNewWork = false) (hthere : c.flashAt l ≠ Stored.none) (hreadable : ¬ bitOf (c.flashAt l).flags 0 = true)
    (hmove : c.moveSector e b l = some d) : c.gcMove e (c.flashAt l).nsx (c.flashAt l).ltag l = d.eraseVictim e b := by
  simp only [Chip.gcMove, hx, hb, hmove]
  exact if_neg (by simp [hnew, hidx, hlevel, hthere, hreadable])

end

/-! Refresh (R184-R186). -/

section
variable {c : Chip} {e : Env} {cord idx : Nat} {b : CordBlk} {r : Refresh}

theorem exec_refreshMove (cord cblk : Nat) (bad : List Loc) (s : State) :
    exec (.refreshMove cord cblk bad) s = .next (goesOn s (s.chip.refreshMove s.env cord cblk bad)) := rfl

theorem Chip.refreshMove_notDue (hb : c.cblk cord idx = some b) (hdue : c.refreshOf e b = none) (bad : List Loc) :
    c.refreshMove e cord idx bad = c := by
  simp only [Chip.refreshMove, hb, hdue]

/-- A cord block that is due, with neither open rows nor another one to wait for (R184, R186). -/
def Chip.RefreshReady (c : Chip) (e : Env) (b : CordBlk) (r : Refresh) : Prop :=
  c.refreshOf e b = some r ∧ c.noNewWork = false ∧ c.refreshWaits r = false ∧ c.refreshFirst r = true

theorem Chip.RefreshReady.due (h : c.RefreshReady e b r) : c.refreshOf e b = some r := h.1

theorem Chip.RefreshReady.not_held (h : c.RefreshReady e b r) : (c.noNewWork || c.refreshWaits r || !c.refreshFirst r) ≠ true := by
  obtain ⟨-, hnew, hwaits, hfirst⟩ := h
  simp [hnew, hwaits, hfirst]

theorem Chip.refreshMove_conventional (hb : c.cblk cord idx = some b) (hready : c.RefreshReady e b r) (hconv : b.conventional = true) :
    c.refreshMove e cord idx [] = c.refreshConv e b r := by
  simp only [Chip.refreshMove, hb, hready.due]
  rw [if_neg hready.not_held, if_pos hconv]
  rfl

theorem Chip.refreshMove_zone (hb : c.cblk cord idx = some b) (hready : c.RefreshReady e b r) (hconv : b.conventional = false)
    (hcls : b.cls = .host) : c.refreshMove e cord idx [] = c.refreshZone e b r := by
  simp only [Chip.refreshMove, hb, hready.due]
  rw [if_neg hready.not_held, if_neg (Bool.eq_false_iff.mp hconv), hcls]
  rfl

end

/-- Settles O35: each command is one equation under its conditions, read off the checks of its operation in their order. -/
theorem mappingEngine : Obligations.MappingEngine := by
  intro s nsx page idx nsx' ltag cord cblk n g w0 w1 w2 w3 l b r x c asked pinEnd bbtEnd bbt
  have hmap (op : Nat) : (bbt op).map = c.map := (Chip.bbtAsked_map ..).trans (Chip.setFld_map ..)
  refine ⟨fun hlt hidle => ⟨fun hn => ?_, fun hn hzoned => ?_, fun hn hzoned hfree hmax => ?_, fun _ hcheck => ?_,
    fun hn hzoned hpin => ?_, fun hfree => ?_⟩, fun hstate hread hjobs => ?_, fun hidle => ⟨fun hidx hop hg => ?_, fun hidx hop => ⟨fun hlc => ?_,
    fun hlc hg hcause => ?_⟩, ?_⟩, fun hx hb hnot => ?_, fun d hx hb hidx hlevel hnew hnsx hltag hthere hreadable hmove => ?_,
    fun hb hdue => ?_, fun hb hdue hnew hwaits hfirst => ⟨fun hconv => ?_, fun hconv hcls => ?_⟩⟩
  · exact exec_mapPin_refused hlt hidle (Chip.pinCheck_none hn) (by decide)
  · exact exec_mapPin_refused hlt hidle (Chip.pinCheck_zoned hn hzoned) (by decide)
  · exact exec_mapPin_refused hlt hidle (Chip.pinCheck_limit hn hzoned hfree hmax) (by decide)
  · exact exec_mapPin_accepted hlt hidle hcheck
  · exact exec_mapUnpin_pinned hlt hidle hn hzoned hpin
  · exact exec_mapUnpin_free hlt hidle hfree
  · rw [exec_mapFetchDone, Chip.mapFetched_read hstate hread hjobs]
  · rw [← hmap 0] at hg
    exact exec_bbtRead hidle (Chip.bbtRun_read hop hidx hg)
  · exact exec_bbtRemove hidle (Chip.bbtRun_remove_lifecycle hop hlc)
  · rw [← hmap 2] at hg ⊢
    exact exec_bbtRemove hidle (Chip.bbtRun_remove_unit hop hlc hidx hg hcause)
  · intro d y hop
    refine ⟨fun hcause => ?_, fun hcause hunused => ?_⟩
    · exact exec_bbtAdd hidle (Chip.bbtRun_add_badCause hop hcause)
    · have hadd : d.map = c.map := (Chip.bbtAsked_map ..).trans (Chip.putEntry_map ..)
      rw [← hadd] at hunused ⊢
      exact exec_bbtAdd hidle (Chip.bbtRun_add_unused hop hcause hunused)
  · rw [exec_gcMoveCommit, Chip.gcMove_notVictim hx hb hnot]
  · subst hnsx hltag
    rw [exec_gcMoveCommit, Chip.gcMove_victim hx hb hidx hlevel hnew hthere hreadable hmove]
  · rw [exec_refreshMove, Chip.refreshMove_notDue hb hdue]
  · rw [exec_refreshMove, Chip.refreshMove_conventional hb ⟨hdue, hnew, hwaits, hfirst⟩ hconv]
  · rw [exec_refreshMove, Chip.refreshMove_zone hb ⟨hdue, hnew, hwaits, hfirst⟩ hconv hcls]

end Sys2Proof.Machine
end

section
/-! SUPPORT. The registers of a Kerf core, and what an instruction of either profile comes to on a core that is ready (R189-R202, R220-R226). -/

namespace Sys2Proof.Machine

/-! Registers, predicates and V (R189, R190). -/

@[simp] theorem KCore.reg_zero (c : KCore) : c.reg 0 = 0 := if_pos rfl

@[simp] theorem KCore.pred_zero (c : KCore) : c.pred 0 = true := if_pos rfl

@[simp] theorem KCore.setReg_zero (c : KCore) (v : Dword) : c.setReg 0 v = c := if_pos rfl

@[simp] theorem KCore.setPred_zero (c : KCore) (b : Bool) : c.setPred 0 b = c := if_pos rfl

theorem KCore.k_setReg {r : BitVec 4} (hr : r ≠ 0) (c : KCore) (v : Dword) : (c.setReg r v).k = c.k.set r.toNat v := by
  rw [KCore.setReg, if_neg hr]

theorem KCore.p_setPred {i : BitVec 2} (hi : i ≠ 0) (c : KCore) (b : Bool) : (c.setPred i b).p = c.p.set i.toNat b := by
  rw [KCore.setPred, if_neg hi]

@[simp] theorem KCore.length_k_setReg (c : KCore) (r : BitVec 4) (v : Dword) : (c.setReg r v).k.length = c.k.length := by
  by_cases hr : r = 0
  · rw [hr, KCore.setReg_zero]
  · rw [KCore.k_setReg hr, List.length_set]

@[simp] theorem KCore.length_p_setPred (c : KCore) (i : BitVec 2) (b : Bool) : (c.setPred i b).p.length = c.p.length := by
  by_cases hi : i = 0
  · rw [hi, KCore.setPred_zero]
  · rw [KCore.p_setPred hi, List.length_set]

theorem KCore.reg_setReg_ne {q r : BitVec 4} (h : q ≠ r) (c : KCore) (v : Dword) : (c.setReg r v).reg q = c.reg q := by
  by_cases hr : r = 0
  · rw [hr, KCore.setReg_zero]
  · have hne : r.toNat ≠ q.toNat := fun he => h (BitVec.eq_of_toNat_eq he.symm)
    simp only [KCore.reg, KCore.k_setReg hr, List.getD_eq_getElem?_getD, List.getElem?_set_ne hne]

theorem KCore.reg_setReg_self {c : KCore} {r : BitVec 4} (hr : r ≠ 0) (hlen : r.toNat < c.k.length) (v : Dword) : (c.setReg r v).reg r = v := by
  rw [KCore.reg, if_neg hr, KCore.k_setReg hr]
  simp [hlen]

theorem KCore.pred_setPred_self {c : KCore} {i : BitVec 2} (hi : i ≠ 0) (hlen : i.toNat < c.p.length) (b : Bool) : (c.setPred i b).pred i = b := by
  rw [KCore.pred, if_neg hi, KCore.p_setPred hi]
  simp [hlen]

/-- Settles O6: each clause is a law of the registers or of the predicates. -/
theorem kerfFixedRegisters : Obligations.KerfFixedRegisters := by
  intro c r q i v b
  exact ⟨KCore.reg_zero _, KCore.setReg_zero c v, KCore.pred_zero _, KCore.setPred_zero c b, fun h => KCore.reg_setReg_ne h c v,
    fun hr hlen => KCore.reg_setReg_self hr (hlen ▸ r.isLt) v, fun hi hlen => KCore.pred_setPred_self hi (hlen ▸ i.isLt) b,
    KCore.length_k_setReg c r v, KCore.length_p_setPred c i b, rfl, rfl⟩

/-- An instruction that never sets V leaves it as it is. -/
@[simp] theorem KCore.orV_false (c : KCore) : c.orV false = c := by simp [KCore.orV]

/-! Fields of registers (R200). -/

theorem getLsbD_lowMask {i : Nat} (hi : i < 64) (n : Nat) : (lowMask n).getLsbD i = decide (i < n) := by
  rw [lowMask, BitVec.getLsbD_ofNat, Nat.testBit_two_pow_sub_one, decide_eq_true hi, Bool.true_and]

theorem getLsbD_bextOf (a : Dword) (pos lenm1 : Nat) {i : Nat} (hi : i < 64) :
    (bextOf a pos lenm1).getLsbD i = (decide (i ≤ lenm1) && a.getLsbD (i + pos)) := by
  rw [bextOf, BitVec.getLsbD_and, BitVec.getLsbD_ushiftRight, getLsbD_lowMask hi, Bool.and_comm, Nat.add_comm pos i]
  simp only [Nat.lt_succ_iff]

/-- BINS replaces the field's bits, and every bit outside stands. -/
theorem getLsbD_binsOf (d a : Dword) (pos lenm1 : Nat) {i : Nat} (hi : i < 64) :
    (binsOf d a pos lenm1).getLsbD i = if pos ≤ i ∧ i ≤ pos + lenm1 then a.getLsbD (i - pos) else d.getLsbD i := by
  have hmask : (lowMask (lenm1 + 1)).getLsbD (i - pos) = decide (i - pos < lenm1 + 1) := getLsbD_lowMask (by omega) _
  simp only [binsOf, BitVec.getLsbD_or, BitVec.getLsbD_and, BitVec.getLsbD_not, BitVec.getLsbD_shiftLeft, hmask, hi]
  by_cases hlo : i < pos
  · have hout : ¬ (pos ≤ i ∧ i ≤ pos + lenm1) := by omega
    simp [hlo, hout]
  · by_cases hhi : i ≤ pos + lenm1
    · have hin : pos ≤ i ∧ i ≤ pos + lenm1 := by omega
      have hlt : i - pos < lenm1 + 1 := by omega
      simp [hlo, hin, hlt]
    · have hout : ¬ (pos ≤ i ∧ i ≤ pos + lenm1) := by omega
      have hge : ¬ i - pos < lenm1 + 1 := by omega
      simp [hlo, hout, hge]

theorem getLsbD_movkOf (d : Dword) (hw : BitVec 2) (h : BitVec 16) {i : Nat} (hi : i < 64) : (movkOf d hw h).getLsbD i =
    if 16 * hw.toNat ≤ i ∧ i < 16 * hw.toNat + 16 then h.getLsbD (i - 16 * hw.toNat) else d.getLsbD i := by
  rw [movkOf, getLsbD_binsOf d _ _ _ hi, BitVec.getLsbD_setWidth, decide_eq_true (by omega : i - 16 * hw.toNat < 64), Bool.true_and]
  simp only [show i ≤ 16 * hw.toNat + 15 ↔ i < 16 * hw.toNat + 16 by omega]

/-- A shift distance of an immediate stands as it is. -/
theorem shiftOf_zeroExtend (sh : BitVec 6) : shiftOf (sh.zeroExtend 64) = sh.toNat := by
  have hlt := sh.isLt
  rw [shiftOf, BitVec.toNat_setWidth]
  omega

/-- The signed value of an immediate is its own after the extension. -/
theorem addiSetsV_sx15 (a : Dword) (imm : BitVec 15) :
    addiSetsV a (sx15 imm) = decide ((a.toNat : Int) + imm.toInt < 0 ∨ 2 ^ 64 ≤ (a.toNat : Int) + imm.toInt) := by
  rw [addiSetsV, sx15, BitVec.toInt_signExtend_of_le (by omega), Bool.decide_or]

/-! What an instruction comes to on a core that is ready. -/

/-- An instruction's meaning is a next state: equal states, equal outcomes. -/
theorem next_congr {s t : State} (h : s = t) : (Host.Outcome.next s : Host.Outcome State Fault Refusal) = .next t := congrArg _ h

/-- The state after an instruction of `cost` cycles of invocation `v` on data-profile core `k`, by what the instruction comes to. -/
def afterOut (s : State) (k cost : Nat) : KOut → State
  | .next x y => afterData s k cost x y
  | .jump x y => { s with chip := s.chip.kput k cost x y }
  | .trap code => afterTrap s k code
  | .exit => goesOn s (s.chip.commitInv s.env k)

section
variable {s : State} {k : Nat} {g : Guard} {v : Invocation}

theorem coreOf_data (hk : k < 40) (s : State) : coreOf s k = (s.chip.kcore k).core := if_pos hk

theorem Chip.kruns_ready (h : DataReady s k v) : s.chip.kruns k = some v := by
  obtain ⟨-, hfree, hinv, hbudget⟩ := h
  simp [Chip.kruns, hfree, hinv, hbudget]

theorem dataRun_holds (h : DataReady s k v) (hg : (coreOf s k).guard g = true) (cost : Nat) (f : KCore → Invocation → KOut) :
    dataRun k cost g f s = afterOut s k cost (f (coreOf s k) v) := by
  rw [coreOf_data h.1] at hg ⊢
  simp only [dataRun, Chip.kruns_ready h, hg, if_true]
  cases f (s.chip.kcore k).core v <;> rfl

/-- An instruction whose guard does not hold costs the same and does nothing else (R194, R199). -/
theorem dataRun_fails (h : DataReady s k v) (hg : (coreOf s k).guard g = false) (cost : Nat) (f : KCore → Invocation → KOut) :
    dataRun k cost g f s = afterData s k cost (coreOf s k) v := by
  rw [coreOf_data h.1] at hg ⊢
  simp only [dataRun, Chip.kruns_ready h, hg]
  rfl

theorem afterCore_data (h : DataReady s k v) (cost : Nat) (x : KCore) : afterCore s k cost x = afterData s k cost x v := by
  obtain ⟨hk, -, hinv, -⟩ := h
  simp only [afterCore, if_pos hk, hinv, afterData]

theorem KerfReady.guard_holds (h : KerfReady s k g) : (coreOf s k).guard g = true := by
  obtain ⟨-, -, hg⟩ := h
  exact hg

/-- A ready data-profile core runs the instructions of the data profile. -/
theorem dataRun_ready (h : DataReady s k v) (hr : KerfReady s k g) (cost : Nat) (f : KCore → Invocation → KOut) :
    dataRun k cost g f s = afterOut s k cost (f (coreOf s k) v) := dataRun_holds h hr.guard_holds cost f

theorem dataOnly_ready (h : DataReady s k v) (hr : KerfReady s k g) (cost : Nat) (f : KCore → Invocation → KOut) :
    dataOnly k cost g f s = afterOut s k cost (f (coreOf s k) v) := (if_pos h.1).trans (dataRun_ready h hr cost f)

end

section
variable {s : State} {w : Nat} {g : Guard}

theorem Chip.wruns_ready (h : WardenReady s w) : s.chip.wruns w = true := by
  obtain ⟨hw, hfree, hrun, hwait, hirq, -⟩ := h
  rcases hwait with hwait | hwait <;> simp [Chip.wruns, hw, hfree, hrun, hirq, hwait]

/-- A ready warden core runs an instruction that its level and world may run, once the guard holds. -/
theorem wardenRun_ready (h : WardenReady s w) (hnever : Guard.never g = false) (hg : ((s.awake w).chip.warden w).core.guard g = true)
    {priv : WardenCore → Bool} (hpriv : priv ((s.awake w).chip.warden w) = false) (f : State → State) :
    wardenRun w g false priv f s = f (s.awake w) := by
  have hruns := Chip.wruns_ready h
  obtain ⟨-, -, -, -, -, hfetch⟩ := h
  simp [wardenRun, hruns, hfetch, hnever, hg, hpriv]

end

section
variable {s : State} {k : Nat} {g : Guard}

/-- A register instruction on a ready core of either profile changes the registers as it says, and goes on. -/
theorem kerfRegs_ready (h : KerfReady s k g) (cost : Nat) (f : KCore → KCore) :
    kerfRegs k cost g false f s = afterCore s k cost (f (coreOf s k)) := by
  obtain ⟨⟨v, hdata⟩ | ⟨hk, hwarden⟩, hnever, hg⟩ := h
  · rw [kerfRegs, if_pos hdata.1, dataRun_holds hdata hg, afterCore_data hdata]
    rfl
  · have hk' : ¬ k < 40 := not_lt.mpr hk
    have hcore : coreOf s k = ((s.awake (k - 40)).chip.warden (k - 40)).core := if_neg hk'
    rw [hcore] at hg ⊢
    rw [kerfRegs, if_neg hk', wardenRegs, wardenRun_ready hwarden hnever hg rfl, afterCore, if_neg hk']

theorem kerfRR_ready (h : KerfReady s k g) (cost : Nat) (f : Dword → Dword → Dword) (vf : Dword → Dword → Bool) (rd ra rb : BitVec 4) :
    kerfRR k cost g f vf rd ra rb s = afterCore s k cost
      (((coreOf s k).setReg rd (f ((coreOf s k).reg ra) ((coreOf s k).reg rb))).orV (vf ((coreOf s k).reg ra) ((coreOf s k).reg rb))) :=
  kerfRegs_ready h cost _

theorem kerfRR_noV (h : KerfReady s k g) (cost : Nat) (f : Dword → Dword → Dword) (rd ra rb : BitVec 4) :
    kerfRR k cost g f noV rd ra rb s = afterCore s k cost ((coreOf s k).setReg rd (f ((coreOf s k).reg ra) ((coreOf s k).reg rb))) :=
  (kerfRR_ready h cost f noV rd ra rb).trans (congrArg _ (KCore.orV_false _))

theorem kerfRI_ready (h : KerfReady s k g) (f : Dword → Dword → Dword) (vf : Dword → Dword → Bool) (rd ra : BitVec 4) (imm : Dword) :
    kerfRI k g f vf rd ra imm s =
      afterCore s k 1 (((coreOf s k).setReg rd (f ((coreOf s k).reg ra) imm)).orV (vf ((coreOf s k).reg ra) imm)) :=
  kerfRegs_ready h 1 _

theorem kerfRI_noV (h : KerfReady s k g) (f : Dword → Dword → Dword) (rd ra : BitVec 4) (imm : Dword) :
    kerfRI k g f noV rd ra imm s = afterCore s k 1 ((coreOf s k).setReg rd (f ((coreOf s k).reg ra) imm)) :=
  (kerfRI_ready h f noV rd ra imm).trans (congrArg _ (KCore.orV_false _))

/-- An instruction on a predicate other than p0. -/
theorem kerfPred_ready (h : KerfReady s k g) {pd : BitVec 2} (hpd : pd ≠ 0) (f : KCore → Bool) :
    kerfPred k g pd f s = afterCore s k 1 ((coreOf s k).setPred pd (f (coreOf s k))) := by
  rw [kerfPred, decide_eq_false hpd, kerfRegs_ready h]

end

/-! Register instructions (R190, R199, R200, R221). -/

/-- A shift by an immediate goes by the immediate's own value. -/
theorem kerfRI_shift {s : State} {k : Nat} {g : Guard} (h : KerfReady s k g) (f : Dword → Nat → Dword) (rd ra : BitVec 4) (sh : BitVec 6) :
    kerfRI k g (fun a i => f a (shiftOf i)) noV rd ra (sh.zeroExtend 64) s =
      afterCore s k 1 ((coreOf s k).setReg rd (f ((coreOf s k).reg ra) sh.toNat)) := by
  rw [kerfRI_noV h, shiftOf_zeroExtend]

/-- Settles O7: a register instruction acts alike on a ready core of either profile, and its result is its operation on the operands. -/
theorem kerfArithmetic : Obligations.KerfArithmetic := by
  refine ⟨fun s k g rd ra rb h => ?_, fun s k g rd ra imm sh pos lenm1 hw half h => ?_⟩
  · exact ⟨next_congr (kerfRR_ready h ..), next_congr (kerfRR_ready h ..), next_congr (kerfRR_ready h ..),
      next_congr (kerfRR_noV h ..), next_congr (kerfRR_noV h ..), next_congr (kerfRR_noV h ..), next_congr (kerfRR_noV h ..),
      next_congr (kerfRR_noV h ..), next_congr (kerfRR_noV h ..), next_congr (kerfRR_noV h ..), next_congr (kerfRR_noV h ..),
      next_congr (kerfRI_noV h ..), next_congr (kerfRI_noV h ..)⟩
  · intro x a d
    have haddi : kerfRI k g (fun a i => a + i) addiSetsV rd ra (sx15 imm) s = afterCore s k 1 ((x.setReg rd (a + sx15 imm)).orV
        (decide ((a.toNat : Int) + imm.toInt < 0 ∨ 2 ^ 64 ≤ (a.toNat : Int) + imm.toInt))) := by
      rw [kerfRI_ready h, addiSetsV_sx15]
    exact ⟨next_congr haddi, next_congr (kerfRI_noV h ..), next_congr (kerfRI_noV h ..), next_congr (kerfRI_noV h ..),
      next_congr (kerfRI_shift h (fun a n => a <<< n) ..), next_congr (kerfRI_shift h (fun a n => a >>> n) ..),
      next_congr (kerfRI_shift h (fun a n => a.sshiftRight n) ..), next_congr (kerfRI_noV h ..),
      ⟨movkOf d hw half, fun _ => getLsbD_movkOf d hw half, next_congr (kerfRI_noV h ..)⟩,
      ⟨bextOf a pos.toNat lenm1.toNat, fun _ => getLsbD_bextOf a _ _, next_congr (kerfRI_noV h ..)⟩,
      ⟨binsOf d a pos.toNat lenm1.toNat, fun _ => getLsbD_binsOf d a _ _, next_congr (kerfRR_noV h ..)⟩⟩

end Sys2Proof.Machine
end

section
/-! SUPPORT. Predicates and special values, where a core goes on, and what an instruction leaves alone (R190, R193-R201, R221). -/

namespace Sys2Proof.Machine

/-! Conditions (R199). -/

theorem Cond.holds_geu (a b : Dword) : Cond.holds .geu a b = decide (b.toNat ≤ a.toNat) := by
  simp [Cond.holds, BitVec.ult, ← decide_not]

theorem Cond.holds_ge (a b : Dword) : Cond.holds .ge a b = decide (b.toInt ≤ a.toInt) := by
  simp [Cond.holds, BitVec.slt, ← decide_not]

theorem exec_cmp {s : State} {k : Nat} {g : Guard} (h : KerfReady s k g) {pd : BitVec 2} (hpd : pd ≠ 0) {ra rb : BitVec 4} {cond : Cond} {b : Bool}
    (hb : Cond.holds cond ((coreOf s k).reg ra) ((coreOf s k).reg rb) = b) :
    exec (.cmp k g pd ra rb cond) s = .next (afterCore s k 1 ((coreOf s k).setPred pd b)) :=
  hb ▸ next_congr (kerfPred_ready h hpd _)

theorem exec_pset {s : State} {k : Nat} {g : Guard} (h : KerfReady s k g) {pd : BitVec 2} (hpd : pd ≠ 0) (pa pb : BitVec 2) (fn : PsetFn) :
    exec (.pset k g pd pa pb fn) s =
      .next (afterCore s k 1 ((coreOf s k).setPred pd (PsetFn.apply fn ((coreOf s k).pred pa) ((coreOf s k).pred pb)))) :=
  next_congr (kerfPred_ready h hpd _)

/-! Special values (R200, R221). -/

theorem exec_mfs_data {s : State} {k : Nat} {g : Guard} {v : Invocation} (h : DataReady s k v) (hr : KerfReady s k g) (rd : BitVec 4)
    (sel : BitVec 3) : exec (.mfs k g rd sel) s =
      .next (afterCore s k 1 ((coreOf s k).setReg rd (BitVec.ofNat 64 (dataSpecial (coreOf s k) v k sel.toNat)))) := by
  rw [afterCore_data h]
  exact next_congr ((if_pos h.1).trans (dataRun_ready h hr ..))

/-- The index of the innermost loop. -/
theorem loopIndex_inner (x : KCore) : loopIndex x false = match x.loops with | l :: _ => l.index | [] => 0 := by
  unfold loopIndex
  cases x.loops <;> rfl

/-- The index of the loop around the innermost one. -/
theorem loopIndex_outer (x : KCore) : loopIndex x true = match x.loops with | _ :: l :: _ => l.index | _ => 0 := by
  unfold loopIndex
  rcases x.loops with _ | ⟨_, _ | _⟩ <;> rfl

/-- A warden core's special values by the selector's operand. -/
theorem wardenSpecial_sel (c : Chip) (w : Nat) (sel : BitVec 3) : wardenSpecial c w sel.toNat =
    if sel = 3 then c.stamp else if sel = 4 then (if (c.warden w).core.v then 1 else 0) else if sel = 7 then 40 + w else 0 := by
  by_cases h3 : sel = 3
  · rw [h3, if_pos rfl]
    rfl
  by_cases h4 : sel = 4
  · rw [h4, if_neg (by decide), if_pos rfl]
    rfl
  by_cases h7 : sel = 7
  · rw [h7, if_neg (by decide), if_neg (by decide), if_pos rfl]
    rfl
  rw [if_neg h3, if_neg h4, if_neg h7]
  have hne : ∀ n : BitVec 3, sel ≠ n → sel.toNat ≠ n.toNat := fun n h he => h (BitVec.eq_of_toNat_eq he)
  unfold wardenSpecial
  split
  case h_1 he => exact absurd he (hne 3 h3)
  case h_2 he => exact absurd he (hne 4 h4)
  case h_3 he => exact absurd he (hne 7 h7)
  case h_4 => rfl

theorem exec_mfs_warden {s : State} {w : Nat} {g : Guard} (h : KerfReady s (40 + w) g) (rd : BitVec 4) (sel : BitVec 3) :
    exec (.mfs (40 + w) g rd sel) s =
      .next (afterCore s (40 + w) 1 ((coreOf s (40 + w)).setReg rd (BitVec.ofNat 64 (wardenSpecial s.chip w sel.toNat)))) := by
  have hk : ¬ 40 + w < 40 := by omega
  have hw : 40 + w - 40 = w := by omega
  have hregs := kerfRegs_ready h 1 (fun x => x.setReg rd (BitVec.ofNat 64 (wardenSpecial s.chip w sel.toNat)))
  rw [kerfRegs, if_neg hk, hw] at hregs
  refine next_congr ((if_neg hk).trans ?_)
  rw [hw]
  exact hregs

/-- Settles O8: the conditions, functions and special values by cases, each put by one rule for predicates or registers. -/
theorem kerfPredicatesAndSpecialValues : Obligations.KerfPredicatesAndSpecialValues := by
  refine ⟨fun s k g pd pa pb ra rb imm h hpd => ?_, fun s k g rd v h hr => ?_, fun s w g rd sel h => ?_⟩
  · exact ⟨next_congr (kerfRegs_ready h ..), next_congr (kerfRegs_ready h ..), exec_cmp h hpd rfl, exec_cmp h hpd (decide_not ..).symm,
      exec_cmp h hpd rfl, exec_cmp h hpd (Cond.holds_geu ..), exec_cmp h hpd rfl, exec_cmp h hpd (Cond.holds_ge ..),
      exec_cmp h hpd (decide_not ..).symm, exec_cmp h hpd rfl, fun _ => next_congr (kerfPred_ready h hpd _),
      exec_pset h hpd .., exec_pset h hpd .., exec_pset h hpd .., exec_pset h hpd ..⟩
  · intro x put
    have hmfs : ∀ (sel : BitVec 3) (n : Nat), dataSpecial x v k sel.toNat = n → exec (.mfs k g rd sel) s = put n :=
      fun sel n hn => hn ▸ exec_mfs_data h hr rd sel
    exact ⟨hmfs 0 _ rfl, hmfs 1 _ (loopIndex_inner x), hmfs 2 _ (loopIndex_outer x), hmfs 3 _ rfl, hmfs 4 _ rfl, hmfs 5 _ rfl, hmfs 6 _ rfl,
      hmfs 7 _ rfl⟩
  · rw [exec_mfs_warden h, wardenSpecial_sel]

/-! Where a core goes on (R201). -/

section
variable {c : KCore} {l : KLoop} {rest : List KLoop} {u : Nat}

theorem KCore.goTo_outside (h : c.loops = []) (u target : Nat) : c.goTo u target = { c with pc := target } := by
  simp only [KCore.goTo, h, settle]

theorem KCore.advance_inside (h : c.loops = l :: rest) (hpc : c.pc ≠ l.last) : c.advance u = { c with pc := c.pc + u } := by
  have hmid : ¬ c.pc + u = l.last + u := by omega
  simp only [KCore.advance, KCore.goTo, h, settle, if_neg hmid]

/-- The last instruction of a body goes back to its start while iterations remain. -/
theorem KCore.advance_again (h : c.loops = l :: rest) (hpc : c.pc = l.last) (hmore : l.index + 1 < l.count) :
    c.advance u = { c with pc := l.first, loops := ⟨l.first, l.last, l.count, l.index + 1⟩ :: rest } := by
  simp only [KCore.advance, KCore.goTo, h, settle, if_pos (congrArg (· + u) hpc), if_pos hmore]

/-- The last iteration of an outermost loop goes on past the body. -/
theorem KCore.advance_ends (h : c.loops = l :: []) (hpc : c.pc = l.last) (hlast : l.count ≤ l.index + 1) :
    c.advance u = { c with pc := c.pc + u, loops := [] } := by
  simp only [KCore.advance, KCore.goTo, h, settle, if_pos (congrArg (· + u) hpc), if_neg (not_lt.mpr hlast)]

end

/-- A count of 0 skips the body. -/
theorem KCore.enterLoop_skips {c : KCore} {rc : BitVec 4} {maxm1 : BitVec 9} (hn : loopCount c rc maxm1 = 0) (hl : c.loops = []) (len : BitVec 10) :
    c.enterLoop 1 rc maxm1 len = { c with pc := c.pc + len.toNat + 1 } := by
  rw [KCore.enterLoop, if_pos (.inl hn), KCore.goTo_outside hl, Nat.one_mul, Nat.add_assoc]

theorem KCore.enterLoop_enters {c : KCore} {rc : BitVec 4} {maxm1 : BitVec 9} {len : BitVec 10} (hn : 0 < loopCount c rc maxm1)
    (hlen : 0 < len.toNat) : c.enterLoop 1 rc maxm1 len =
      { c with pc := c.pc + 1, loops := ⟨c.pc + 1, c.pc + len.toNat, loopCount c rc maxm1, 0⟩ :: c.loops } := by
  have hne : len ≠ 0 := fun h => by simp [h] at hlen
  rw [KCore.enterLoop, if_neg (not_or.mpr ⟨hn.ne', hne⟩), Nat.one_mul]

section
variable {s : State} {k : Nat} {v : Invocation} {rc : BitVec 4} {maxm1 : BitVec 9} {len : BitVec 10}

/-- LOOP has no guard: it runs on every ready core. -/
theorem exec_loop_data (h : DataReady s k v) (rc : BitVec 4) (maxm1 : BitVec 9) (len : BitVec 10) :
    exec (.loop k rc maxm1 len) s = .next (afterOut s k 2 (.jump ((coreOf s k).enterLoop 1 rc maxm1 len)
      { v with cycles := v.cycles + (if loopCount (coreOf s k) rc maxm1 = 0 then 0 else 1) })) :=
  next_congr ((if_pos h.1).trans (dataRun_holds h rfl ..))

theorem exec_loop_skips (h : DataReady s k v) (hn : loopCount (coreOf s k) rc maxm1 = 0) (hl : (coreOf s k).loops = []) :
    exec (.loop k rc maxm1 len) s =
      .next (afterOut s k 2 (.jump { coreOf s k with pc := (coreOf s k).pc + len.toNat + 1 } v)) := by
  rw [exec_loop_data h, KCore.enterLoop_skips hn hl, if_pos hn]
  rfl

/-- The first iteration costs its cycle as the loop is entered. -/
theorem exec_loop_enters (h : DataReady s k v) (hn : 0 < loopCount (coreOf s k) rc maxm1) (hlen : 0 < len.toNat) :
    exec (.loop k rc maxm1 len) s = .next (afterOut s k 2 (.jump { coreOf s k with
      pc := (coreOf s k).pc + 1
      loops := ⟨(coreOf s k).pc + 1, (coreOf s k).pc + len.toNat, loopCount (coreOf s k) rc maxm1, 0⟩ :: (coreOf s k).loops }
      { v with cycles := v.cycles + 1 })) := by
  rw [exec_loop_data h, KCore.enterLoop_enters hn hlen, if_neg hn.ne']

end

theorem exec_br_data {s : State} {k : Nat} {g : Guard} {v : Invocation} (h : DataReady s k v) (hr : KerfReady s k g) (off : BitVec 10) :
    exec (.br k g off) s = .next (afterOut s k 1 (.jump ((coreOf s k).goTo 1 ((coreOf s k).pc + off.toNat)) v)) :=
  next_congr ((if_pos h.1).trans (dataRun_ready h hr ..))

/-- Settles O9: the four places where a core goes on, and BR and LOOP through them. -/
theorem kerfLoopsAndBranches : Obligations.KerfLoopsAndBranches := by
  refine ⟨fun u c l rest => ⟨fun h => KCore.goTo_outside h .., KCore.advance_inside, KCore.advance_again, ?_⟩,
    fun s k g v off len rc maxm1 h => ?_⟩
  · rintro h hpc hlast rfl
    exact KCore.advance_ends h hpc hlast
  · intro x n inside
    refine ⟨fun hr hl => ?_, fun hn hl => exec_loop_skips h hn hl, fun hn hlen => exec_loop_enters h hn hlen⟩
    rw [exec_br_data h hr, KCore.goTo_outside hl]
    rfl

/-! What an instruction leaves alone (R193-R200). -/

section
variable {s : State} {k : Nat} {g : Guard} {v : Invocation}

theorem Chip.kcore_kput_self (c : Chip) (k cost : Nat) (x : KCore) (v : Invocation) : (c.kput k cost x v).kcore k = { c.kcore k with
    core := x
    inv := some { v with cycles := v.cycles + cost + (if x.pc ≤ (c.kcore k).core.pc then 1 else 0) } } := by
  rw [Chip.kput, Chip.kcore_setKcore, if_pos rfl]

theorem Chip.kcore_kput_ne {j : Nat} (hj : j ≠ k) (c : Chip) (cost : Nat) (x : KCore) (v : Invocation) : (c.kput k cost x v).kcore j = c.kcore j := by
  rw [Chip.kput, Chip.kcore_setKcore, if_neg hj]

/-- Where the guard fails, the core goes on with its registers as they are (R194, R199). -/
theorem dataRun_unguarded (h : DataReady s k v) (hg : (coreOf s k).guard g = false) (cost : Nat) (f : KCore → Invocation → KOut) :
    dataRun k cost g f s = afterCore s k cost (coreOf s k) := (dataRun_fails h hg cost f).trans (afterCore_data h ..).symm

theorem dataOnly_unguarded (h : DataReady s k v) (hg : (coreOf s k).guard g = false) (cost : Nat) (f : KCore → Invocation → KOut) :
    dataOnly k cost g f s = afterCore s k cost (coreOf s k) := (if_pos h.1).trans (dataRun_unguarded h hg cost f)

theorem kerfRR_unguarded (h : DataReady s k v) (hg : (coreOf s k).guard g = false) (cost : Nat) (f : Dword → Dword → Dword)
    (vf : Dword → Dword → Bool) (rd ra rb : BitVec 4) : kerfRR k cost g f vf rd ra rb s = afterCore s k cost (coreOf s k) :=
  (if_pos h.1).trans (dataRun_unguarded h hg cost _)

end

/-- Settles O10: a register instruction puts its own core alone, and so does an instruction whose guard fails. -/
theorem kerfFrames : Obligations.KerfFrames := by
  refine ⟨fun s k j cost x v h => ?_, fun s k g v rd ra rb ri imm reason h hg => ?_⟩
  · rw [afterCore_data h]
    obtain ⟨-, hfree, -, -⟩ := h
    have hself : (afterData s k cost x v).chip.kcore k = _ := Chip.kcore_kput_self s.chip k cost (x.advance 1) v
    refine ⟨rfl, rfl, rfl, rfl, rfl, fun hj => Chip.kcore_kput_ne hj .., congrArg DataCore.core hself, (congrArg DataCore.fenced hself).trans hfree,
      ⟨_, congrArg DataCore.inv hself, ?_, ?_⟩, rfl, rfl, rfl⟩
    · exact Nat.le_add_right _ _
    · split <;> omega
  · exact ⟨next_congr (kerfRR_unguarded h hg ..), next_congr (kerfRR_unguarded h hg ..),
      next_congr ((if_pos h.1).trans (dataRun_unguarded h hg ..)), next_congr ((if_pos h.1).trans (dataRun_unguarded h hg ..)),
      next_congr (dataOnly_unguarded h hg ..), next_congr (dataOnly_unguarded h hg ..), next_congr (dataOnly_unguarded h hg ..),
      next_congr (dataOnly_unguarded h hg ..), next_congr (dataOnly_unguarded h hg ..), next_congr (dataOnly_unguarded h hg ..)⟩

end Sys2Proof.Machine
end

section
/-! SUPPORT. Loads, stores and effects of the data profile, and how an invocation ends (R195, R196, R203, R206-R210). -/

namespace Sys2Proof.Machine

/-! The data areas (R195, R196). -/

/-- An access lies wholly within the area. -/
def Area.holds (x : Area) (a width : Nat) : Prop := x.range.1 ≤ a ∧ a + width ≤ x.range.2

section
variable {a width : Nat} {x y : Area}

/-- The areas do not overlap. -/
theorem Area.holds_unique (hwidth : 0 < width) (hx : x.holds a width) (hy : y.holds a width) : x = y := by
  obtain ⟨hx1, hx2⟩ := hx
  obtain ⟨hy1, hy2⟩ := hy
  cases x <;> cases y <;> simp only [Area.range, reduceCtorEq] at hx1 hx2 hy1 hy2 ⊢ <;> omega

theorem areaOf_holds (h : areaOf a width = some x) : a % width = 0 ∧ x.holds a width := by
  unfold areaOf at h
  split at h
  case isTrue => cases h
  case isFalse hal => exact ⟨not_not.mp hal, by simpa [Area.holds] using List.find?_some h⟩

theorem areaOf_eq_some (hwidth : 0 < width) (hal : a % width = 0) (h : x.holds a width) : areaOf a width = some x := by
  have hlisted : ∃ y, areaOf a width = some y := by
    rw [← Option.isSome_iff_exists, areaOf, if_neg (not_not.mpr hal), List.find?_isSome]
    exact ⟨x, by cases x <;> decide, by simpa [Area.holds] using h⟩
  obtain ⟨y, hy⟩ := hlisted
  rw [hy, Area.holds_unique hwidth (areaOf_holds hy).2 h]

/-- An access that is misaligned, runs past the last area or crosses from one area into the next lies in none. -/
theorem areaOf_eq_none (h : a % width ≠ 0 ∨ 0x2500 < a + width ∨ (a < 0x1000 ∧ 0x1000 < a + width) ∨ (a < 0x2000 ∧ 0x2000 < a + width) ∨
    (a < 0x2400 ∧ 0x2400 < a + width)) : areaOf a width = none := by
  rw [Option.eq_none_iff_forall_ne_some]
  intro x hx
  obtain ⟨hal, hlo, hhi⟩ := areaOf_holds hx
  cases x <;> simp only [Area.range] at hlo hhi <;> omega

end

/-! Loads and stores (R196). -/

/-- The loads of the four widths. -/
def loadsOf (k : Nat) (g : Guard) (rd ra : BitVec 4) (imm : BitVec 15) : List (Nat × Instr) :=
  [(1, .ldb k g rd ra imm), (2, .ldh k g rd ra imm), (4, .ldw k g rd ra imm), (8, .ldd k g rd ra imm)]

/-- The stores of the four widths. -/
def storesOf (k : Nat) (g : Guard) (rd ra : BitVec 4) (imm : BitVec 15) : List (Nat × Instr) :=
  [(1, .stb k g rd ra imm), (2, .sth k g rd ra imm), (4, .stw k g rd ra imm), (8, .std k g rd ra imm)]

section
variable {s : State} {k n : Nat} {g : Guard} {v : Invocation} {rd ra : BitVec 4} {imm : BitVec 15} {i : Instr}

theorem exec_load (hi : (n, i) ∈ loadsOf k g rd ra imm) (s : State) : 0 < n ∧ exec i s = .next (kerfLoad k g rd ra imm n s) := by
  simp only [loadsOf, List.mem_cons, Prod.mk.injEq, List.not_mem_nil, or_false] at hi
  rcases hi with ⟨rfl, rfl⟩ | ⟨rfl, rfl⟩ | ⟨rfl, rfl⟩ | ⟨rfl, rfl⟩ <;> exact ⟨by decide, rfl⟩

theorem exec_store (hi : (n, i) ∈ storesOf k g rd ra imm) (s : State) : 0 < n ∧ exec i s = .next (kerfStore k g rd ra imm n s) := by
  simp only [storesOf, List.mem_cons, Prod.mk.injEq, List.not_mem_nil, or_false] at hi
  rcases hi with ⟨rfl, rfl⟩ | ⟨rfl, rfl⟩ | ⟨rfl, rfl⟩ | ⟨rfl, rfl⟩ <;> exact ⟨by decide, rfl⟩

theorem exec_load_data (h : DataReady s k v) (hr : KerfReady s k g) (hi : (n, i) ∈ loadsOf k g rd ra imm) :
    exec i s = .next (afterOut s k 2 (dataLoad s.chip rd ra imm n (coreOf s k) v)) :=
  (exec_load hi s).2.trans (next_congr ((if_pos h.1).trans (dataRun_ready h hr ..)))

theorem exec_store_data (h : DataReady s k v) (hr : KerfReady s k g) (hi : (n, i) ∈ storesOf k g rd ra imm) :
    exec i s = .next (afterOut s k 1 (dataStore rd ra imm n (coreOf s k) v)) :=
  (exec_store hi s).2.trans (next_congr ((if_pos h.1).trans (dataRun_ready h hr ..)))

theorem exec_load_area (h : DataReady s k v) (hr : KerfReady s k g) (hi : (n, i) ∈ loadsOf k g rd ra imm)
    (hal : (coreOf s k).ea ra imm % n = 0) {x : Area} (hx : x.holds ((coreOf s k).ea ra imm) n) : exec i s = .next (afterCore s k 2
      ((coreOf s k).setReg rd (BitVec.ofNat 64 (s.chip.areaLoad v x ((coreOf s k).ea ra imm) n)))) := by
  rw [exec_load_data h hr hi, dataLoad, areaOf_eq_some (exec_load hi s).1 hal hx, afterCore_data h]
  rfl

theorem exec_load_none (h : DataReady s k v) (hr : KerfReady s k g) (hi : (n, i) ∈ loadsOf k g rd ra imm)
    (hx : areaOf ((coreOf s k).ea ra imm) n = none) : exec i s = .next (afterTrap s k 0x80) := by
  rw [exec_load_data h hr hi, dataLoad, hx]
  rfl

theorem exec_store_scratch (h : DataReady s k v) (hr : KerfReady s k g) (hi : (n, i) ∈ storesOf k g rd ra imm)
    (hal : (coreOf s k).ea ra imm % n = 0) (hx : Area.scratch.holds ((coreOf s k).ea ra imm) n) : exec i s = .next (afterData s k 1 (coreOf s k)
      { v with scratch := Mem.writeLe v.scratch ((coreOf s k).ea ra imm) n ((coreOf s k).reg rd).toNat }) := by
  rw [exec_store_data h hr hi, dataStore, areaOf_eq_some (exec_store hi s).1 hal hx]
  rfl

/-- The areas beside scratch are read-only. -/
theorem exec_store_readOnly (h : DataReady s k v) (hr : KerfReady s k g) (hi : (n, i) ∈ storesOf k g rd ra imm)
    (hal : (coreOf s k).ea ra imm % n = 0) {x : Area} (hro : x ≠ .scratch) (hx : x.holds ((coreOf s k).ea ra imm) n) :
    exec i s = .next (afterTrap s k 0x81) := by
  rw [exec_store_data h hr hi, dataStore, areaOf_eq_some (exec_store hi s).1 hal hx]
  cases x
  case scratch => exact absurd rfl hro
  all_goals rfl

theorem exec_store_none (h : DataReady s k v) (hr : KerfReady s k g) (hi : (n, i) ∈ storesOf k g rd ra imm)
    (hx : areaOf ((coreOf s k).ea ra imm) n = none) : exec i s = .next (afterTrap s k 0x80) := by
  rw [exec_store_data h hr hi, dataStore, hx]
  rfl

end

/-- Settles O11: an access goes to the one area that holds it, and traps where none does or the area is read-only. -/
theorem kerfDataAccesses : Obligations.KerfDataAccesses := by
  refine ⟨fun s k g v rd ra imm n i h hr hi => ?_, fun s k g v rd ra imm n i h hr hi => ?_, fun s k g v rd ra imm n i j h hr hij => ?_⟩
  · intro x a got hal
    exact ⟨fun hhi => exec_load_area (x := .scratch) h hr hi hal ⟨Nat.zero_le _, hhi⟩,
      fun hlo hhi => exec_load_area (x := .consts) h hr hi hal ⟨hlo, hhi⟩, fun hlo hhi => exec_load_area (x := .items) h hr hi hal ⟨hlo, hhi⟩,
      fun hlo hhi => exec_load_area (x := .state) h hr hi hal ⟨hlo, hhi⟩⟩
  · exact fun hal hhi => exec_store_scratch h hr hi hal ⟨Nat.zero_le _, hhi⟩
  · have hi : (n, i) ∈ loadsOf k g rd ra imm := List.mem_map_of_mem (f := fun q => (q.1, q.2.1)) hij
    have hj : (n, j) ∈ storesOf k g rd ra imm := List.mem_map_of_mem (f := fun q => (q.1, q.2.2)) hij
    refine ⟨fun hout => ⟨exec_load_none h hr hi (areaOf_eq_none hout), exec_store_none h hr hj (areaOf_eq_none hout)⟩, fun hal hin => ?_⟩
    rcases hin with hin | hin | hin
    · exact exec_store_readOnly (x := .consts) h hr hj hal nofun hin
    · exact exec_store_readOnly (x := .items) h hr hj hal nofun hin
    · exact exec_store_readOnly (x := .state) h hr hj hal nofun hin

/-! Effects and ends (R203, R206-R210). -/

section
variable {s : State} {k cost : Nat} {g : Guard} {v : Invocation} {x : KCore} {ri : BitVec 4}

theorem effectRun_item (hn : (x.reg ri).toNat < v.items.length) (f : ItemFx → ItemFx) :
    effectRun ri f x v = .next x { v with fx := updateAt v.fx (x.reg ri).toNat f } := by
  rw [effectRun, itemAt, if_pos hn]

theorem effectRun_outOfRange (hn : v.items.length ≤ (x.reg ri).toNat) (f : ItemFx → ItemFx) : effectRun ri f x v = .trap 0x82 := by
  rw [effectRun, itemAt, if_neg (not_lt.mpr hn)]

theorem saddRun_state {rd ra : BitVec 4} {imm : BitVec 15} (hx : areaOf (x.ea ra imm) 8 = some .state) :
    saddRun rd ra imm x v = .next x { v with adds := v.adds ++ [(x.ea ra imm - 0x2400, x.reg rd)] } := if_pos hx

/-- EMIT's item and address pass their checks: it captures the record if there is room for one more (R210). -/
theorem emitRun_item {ra : BitVec 4} (hn : (x.reg ri).toNat < v.items.length) (hal : (x.reg ra).toNat % 8 = 0) (hhi : (x.reg ra).toNat + 24 ≤ 0x1000) :
    emitRun ri ra x v = if 32 ≤ v.emits.length then .trap 0x83
      else .next x { v with emits := v.emits ++ [((x.reg ri).toNat, Mem.readBytes v.scratch (x.reg ra).toNat 24)] } := by
  have hplace : ¬ ((x.reg ra).toNat % 8 ≠ 0 ∨ 0x1000 < (x.reg ra).toNat + 24) := by omega
  simp only [emitRun, itemAt, if_pos hn, if_neg hplace]

theorem emitRun_outOfRange {ra : BitVec 4} (hn : v.items.length ≤ (x.reg ri).toNat) : emitRun ri ra x v = .trap 0x82 := by
  rw [emitRun, itemAt, if_neg (not_lt.mpr hn)]

/-- An instruction of the data profile, by what it comes to. -/
theorem dataOnly_comes (h : DataReady s k v) (hr : KerfReady s k g) {f : KCore → Invocation → KOut} {o : KOut} (ho : f (coreOf s k) v = o) :
    dataOnly k cost g f s = afterOut s k cost o := ho ▸ dataOnly_ready h hr cost f

end

/-- Settles O12: each effect is one record against its item, and the traps and EXIT are what the instruction comes to. -/
theorem kerfEffectsAndEnds : Obligations.KerfEffectsAndEnds := by
  refine ⟨fun s k g v rd ra ri key imm reason bits level evid h hr => ⟨fun hn => ?_, ?_, ?_⟩,
    fun s k g v ri ra reason h hr => ⟨?_, ?_, fun hn => ?_, ?_⟩⟩
  · exact ⟨next_congr (dataOnly_comes h hr (effectRun_item hn _)), next_congr (dataOnly_comes h hr (effectRun_item hn _)),
      next_congr (dataOnly_comes h hr (effectRun_item hn _)), next_congr (dataOnly_comes h hr (effectRun_item hn _)),
      next_congr (dataOnly_comes h hr (effectRun_item hn _)), next_congr (dataOnly_comes h hr (effectRun_item hn _)),
      next_congr (dataOnly_comes h hr (effectRun_item hn _)),
      next_congr ((dataOnly_ready h hr ..).trans (congrArg _ (effectRun_item hn _)))⟩
  · rintro a rfl hal hlo hhi
    exact next_congr (dataOnly_comes h hr (saddRun_state (areaOf_eq_some (by decide) hal ⟨hlo, hhi⟩)))
  · rintro a rfl hn hal hhi hroom
    exact next_congr (dataOnly_comes h hr ((emitRun_item hn hal hhi).trans (if_neg (not_le.mpr hroom))))
  · exact next_congr (dataOnly_comes h hr rfl)
  · exact next_congr (dataOnly_comes h hr rfl)
  · exact ⟨next_congr (dataOnly_comes h hr (effectRun_outOfRange hn _)), next_congr (dataOnly_comes h hr (effectRun_outOfRange hn _)),
      next_congr (dataOnly_comes h hr (effectRun_outOfRange hn _)), next_congr (dataOnly_comes h hr (emitRun_outOfRange hn))⟩
  · exact fun hn hal hhi hfull => next_congr (dataOnly_comes h hr ((emitRun_item hn hal hhi).trans (if_pos hfull)))

end Sys2Proof.Machine
end

section
/-! SUPPORT. Invocations, program slots and bindings (R189-R197, R211-R217). -/

namespace Sys2Proof.Machine

/-! How an invocation begins and is cut off (R23, R191-R195). -/

/-- The invocation that begins with a batch of items under binding `b`, which holds `g` (R192, R195). -/
def Chip.firstInv (c : Chip) (slot entry b : Nat) (ids : List Nat) (g : Binding) : Invocation :=
  ⟨slot, entry, ids, some b, c.stamp, 128, [], (ids.filterMap c.item).flatMap (c.itemRecord entry), g.state,
    (ids.filterMap c.item).map (fun _ => ItemFx.none), [], []⟩

/-- The items that wait for an entry under a binding, in order of acceptance (R192). -/
def Chip.waitingIds (c : Chip) (k entry b : Nat) : List Nat :=
  (sortBy (fun y => y.id) (c.host.items.filter (c.itemWaits k entry b))).map (fun y => y.id)

section
variable {c : Chip} {k slot entry b : Nat} {ids : List Nat} {p : Program} {x : Item} {g : Binding}

theorem Chip.dispatch_begins (hfree : (c.kcore k).fenced = false) (hruns : coreRuns k entry = true) (hidle : (c.kcore k).inv = none)
    (hp : c.slotProg slot = some p) (hentry : p.has entry = true) (hbatch : ids.length ≤ p.batch) (hx : (ids.head?).bind c.item = some x)
    (hb : c.bindFor x.nsx x.ph = some b) (hg : c.binding b = some g) (hslot : g.slot = slot)
    (hids : ids = (c.waitingIds k entry b).take ids.length) : c.dispatch k slot entry ids =
      (ids.foldl (fun c i => c.updItem i (fun y => { y with stage := .running k })) (c.setKcore k { c.kcore k with
        core := KCore.fresh (p.entries.getD entry 0)
        inv := some (c.firstInv slot entry b ids g) })).pass := by
  have hgo : ((c.kcore k).fenced || (c.kcore k).inv.isSome || !coreRuns k entry || decide (p.batch < ids.length) || !(p.has entry) ||
      (c.binding b).all (fun y => y.slot != slot) || ids != (c.waitingIds k entry b).take ids.length) = false := by
    rw [← hids]
    simp [hfree, hidle, hruns, hbatch, hentry, hg, hslot]
  simp only [Chip.dispatch, hp, hx, hb]
  refine (if_neg (Bool.eq_false_iff.mp hgo)).trans ?_
  rw [hg]
  rfl

/-- A command on a core of a region that the part has. -/
theorem exec_invocationDispatch {s : State} (hpart : 8 * s.env.part.regions ≤ k → 32 ≤ k) (slot entry : Nat) (ids : List Nat) :
    exec (.invocationDispatch k slot entry ids) s = .next (goesOn s (s.chip.dispatch k slot entry ids)) := by
  have hthere : (decide (8 * s.env.part.regions ≤ k) && decide (k < 32)) = false := by
    rw [Bool.and_eq_false_iff, decide_eq_false_iff_not, decide_eq_false_iff_not]
    omega
  rw [show exec (.invocationDispatch k slot entry ids) s = onItems (fun x =>
    if 8 * s.env.part.regions ≤ k && k < 32 then x else x.dispatch k slot entry ids) s from rfl, hthere]
  rfl

/-- A failed core of a cluster is fenced, and hub core 7 covers for it (R23, R45). -/
theorem Chip.kerfCoreFail_cluster (hfree : (c.kcore k).fenced = false) (hk : k < 32) : c.kerfCoreFail k =
    (let fenced := (c.abortInv k).setKcore k { (c.abortInv k).kcore k with fenced := true }
     ((fenced.setKcore 39 { fenced.kcore 39 with covers := insertNat k (fenced.kcore 39).covers }).raise (192 + k) 0 0xFFFF 0 0).excuseAll) := by
  have hserves : ((c.kcore k).fenced || decide (40 ≤ k)) = false := by
    rw [hfree, Bool.false_or, decide_eq_false_iff_not]
    omega
  simp only [Chip.kerfCoreFail, if_neg (Bool.eq_false_iff.mp hserves), if_pos hk]

/-- An invocation that has reached its budget is a failure of its core (R194). -/
theorem exec_invocationBudgetOverrun {s : State} {v : Invocation} (hinv : (s.chip.kcore k).inv = some v) (hover : 4096 ≤ v.cycles) :
    exec (.invocationBudgetOverrun k) s = .next (goesOn s (s.chip.kerfCoreFail k)) := by
  rw [show exec (.invocationBudgetOverrun k) s = execInvocationBudgetOverrun k s from rfl]
  simp only [execInvocationBudgetOverrun, onItems, onHost, hinv, if_neg (not_lt.mpr hover)]
  rfl

end

/-- Settles O36: a dispatch whose checks hold begins the invocation, and an overrun is the failure of its core. -/
theorem invocationsBeginAndAreCutOff : Obligations.InvocationsBeginAndAreCutOff := by
  intro s k slot entry b ids p x g v c inv started hpart hfree hruns
  refine ⟨fun hidle hp hentry hbatch hx hb hg hslot hids => ?_, fun hinv hover hk => ?_⟩
  · rw [exec_invocationDispatch hpart, Chip.dispatch_begins hfree hruns hidle hp hentry hbatch hx hb hg hslot hids]
    rfl
  · rw [exec_invocationBudgetOverrun hinv hover, Chip.kerfCoreFail_cluster hfree hk]

/-! Program slots (R211-R214). -/

/-! The slots and the bindings lie beside the register words. -/

@[simp] theorem Chip.slotProg_setReg (c : Chip) (a v i : Nat) : (c.setReg a v).slotProg i = c.slotProg i := rfl
@[simp] theorem Chip.freeSlot_setReg (c : Chip) (a v : Nat) : (c.setReg a v).freeSlot = c.freeSlot := rfl
@[simp] theorem Chip.bindsOf_setReg (c : Chip) (a v slot : Nat) : (c.setReg a v).bindsOf slot = c.bindsOf slot := rfl
@[simp] theorem Chip.binding_setReg (c : Chip) (a v i : Nat) : (c.setReg a v).binding i = c.binding i := rfl
@[simp] theorem Chip.bindIdx_setReg (c : Chip) (a v nsx ph : Nat) : (c.setReg a v).bindIdx nsx ph = c.bindIdx nsx ph := rfl
@[simp] theorem Chip.keyIndex_setReg (c : Chip) (a v nsx ph : Nat) : (c.setReg a v).keyIndex nsx ph = c.keyIndex nsx ph := rfl
@[simp] theorem Chip.bindUsed_setReg (c : Chip) (a v : Nat) : (c.setReg a v).bindUsed = c.bindUsed := rfl
@[simp] theorem Chip.bindCheck_setReg (c : Chip) (a v nsx ph slot : Nat) : (c.setReg a v).bindCheck nsx ph slot = c.bindCheck nsx ph slot := rfl

/-- KRF_LOAD_CTRL and KRF_LOAD_RES as GO leaves them: the operation runs, an unload where `un` is 1 (R214). -/
def Chip.loadAsked (c : Chip) (un slot : Nat) : Chip := (c.setReg Reg.krfLoadCtrl (2 ^ 31 + un * 2 ^ 30 + slot % 64)).setReg Reg.krfLoadRes 0

@[simp] theorem Chip.slotProg_loadAsked (c : Chip) (un slot i : Nat) : (c.loadAsked un slot).slotProg i = c.slotProg i := by
  rw [Chip.loadAsked, Chip.slotProg_setReg, Chip.slotProg_setReg]

@[simp] theorem Chip.freeSlot_loadAsked (c : Chip) (un slot : Nat) : (c.loadAsked un slot).freeSlot = c.freeSlot := by
  rw [Chip.loadAsked, Chip.freeSlot_setReg, Chip.freeSlot_setReg]

@[simp] theorem Chip.bindsOf_loadAsked (c : Chip) (un slot i : Nat) : (c.loadAsked un slot).bindsOf i = c.bindsOf i := by
  rw [Chip.loadAsked, Chip.bindsOf_setReg, Chip.bindsOf_setReg]

/-- GO leaves the address of the image as software wrote it. -/
theorem Chip.loadAddr_loadAsked (c : Chip) (un slot : Nat) : (c.loadAsked un slot).reg Reg.krfLoadAddr = c.reg Reg.krfLoadAddr :=
  (Chip.reg_setReg_ne _ (by decide) _).trans (Chip.reg_setReg_ne _ (by decide) _)

section
variable {c : Chip} {e : Env} {m : Mem} {p : Program} {i slot : Nat}

theorem Chip.freeSlot_none (h : ∀ j < 64, c.slotProg j ≠ none) : c.freeSlot = none := by
  simp only [Chip.freeSlot, List.find?_eq_none, List.mem_range, Option.isNone_iff_eq_none]
  exact h

theorem Chip.freeSlot_lowest (hi : i < 64) (hfree : c.slotProg i = none) (hlow : ∀ j < i, c.slotProg j ≠ none) : c.freeSlot = some i := by
  rw [Chip.freeSlot, List.find?_range_eq_some]
  exact ⟨by rw [hfree]; rfl, List.mem_range.mpr hi, fun j hj => by simpa [Option.isSome_iff_ne_none] using hlow j hj⟩

/-- The image at KRF_LOAD_ADDR, as the checks find it (R211, R212). -/
def Chip.loadedImage (c : Chip) (e : Env) (m : Mem) : LoadResult :=
  checkImage e.part.full (Mem.readBytes m (c.reg Reg.krfLoadAddr - 0x40000000) 8224)

theorem Chip.loadedImage_loadAsked (c : Chip) (un slot : Nat) (e : Env) (m : Mem) : (c.loadAsked un slot).loadedImage e m = c.loadedImage e m := by
  simp only [Chip.loadedImage, Chip.loadAddr_loadAsked]

/-- The image lies wholly in DRAM, at an aligned address (R211). -/
def Chip.ImageInDram (c : Chip) : Prop :=
  c.reg Reg.krfLoadAddr % 8 = 0 ∧ 0x40000000 ≤ c.reg Reg.krfLoadAddr ∧ c.reg Reg.krfLoadAddr + 8224 ≤ 0x80000000

theorem Chip.imageInDram_loadAsked {un : Nat} : (c.loadAsked un slot).ImageInDram ↔ c.ImageInDram := by
  simp only [Chip.ImageInDram, Chip.loadAddr_loadAsked]

theorem Chip.krfLoad_misaligned (hal : c.reg Reg.krfLoadAddr % 8 ≠ 0) : c.krfLoad e m = c.loadEnd cstBad 0 0 0 := by
  simp only [Chip.krfLoad]
  rw [if_pos (.inl hal)]

theorem Chip.ImageInDram.not_misplaced (h : c.ImageInDram) :
    ¬ (c.reg Reg.krfLoadAddr % 8 ≠ 0 ∨ c.reg Reg.krfLoadAddr < 0x40000000 ∨ 0x80000000 < c.reg Reg.krfLoadAddr + 8224) := by
  obtain ⟨hal, hlo, hhi⟩ := h
  omega

theorem Chip.krfLoad_refused (h : c.ImageInDram) (hprog : (c.loadedImage e m).prog = none) :
    c.krfLoad e m = c.loadEnd (c.loadedImage e m).status (c.loadedImage e m).reason (c.loadedImage e m).index 0 := by
  simp only [Chip.loadedImage] at hprog ⊢
  simp only [Chip.krfLoad, hprog]
  rw [if_neg h.not_misplaced]

theorem Chip.krfLoad_full (h : c.ImageInDram) (hprog : (c.loadedImage e m).prog = some p) (hfull : c.freeSlot = none) :
    c.krfLoad e m = c.loadEnd cstLimit 8 0 0 := by
  simp only [Chip.loadedImage] at hprog
  simp only [Chip.krfLoad, hprog, hfull]
  rw [if_neg h.not_misplaced]

theorem Chip.krfLoad_installs (h : c.ImageInDram) (hprog : (c.loadedImage e m).prog = some p) (hfree : c.freeSlot = some i) :
    c.krfLoad e m = (c.setProg i (some p)).loadEnd cstOk 0 0 i := by
  simp only [Chip.loadedImage] at hprog
  simp only [Chip.krfLoad, hprog, hfree]
  rw [if_neg h.not_misplaced]

theorem Chip.krfUnload_free (hp : c.slotProg slot = none) : c.krfUnload slot = c.loadEnd cstBad 0 0 0 := by simp only [Chip.krfUnload, hp]

theorem Chip.krfUnload_bound (hp : c.slotProg slot = some p) (hbound : 0 < c.bindsOf slot) : c.krfUnload slot = c.loadEnd cstBad 0 0 0 := by
  simp only [Chip.krfUnload, hp, if_pos hbound]

theorem Chip.krfUnload_drains (hp : c.slotProg slot = some p) (hbound : c.bindsOf slot = 0) : c.krfUnload slot =
    (let d := c.setProg slot (some { p with draining := true })
     { d with kerf := { d.kerf with unloading := some slot } }) := by
  simp only [Chip.krfUnload, hp, hbound, Nat.lt_irrefl, if_false]

/-- A drained slot whose invocations have all ended is free (R214). -/
theorem Chip.slotDrained_ended (hslot : c.kerf.unloading = some slot) (hend : ∀ q ∈ c.kerf.cores, ∀ v, q.2.inv = some v → v.slot ≠ slot) :
    c.slotDrained slot =
      (let d := c.setProg slot none
       { d with kerf := { d.kerf with unloading := none } }.loadEnd cstOk 0 0 0) := by
  have hdone : ¬ (c.kerf.unloading != some slot || c.kerf.cores.any (fun q => q.2.inv.any (fun v => v.slot == slot))) = true := by
    simpa [hslot, Option.any_eq_true] using hend
  exact if_neg hdone

end

section
variable {s : State} {slot i : Nat} {p : Program}

/-- GO starts an operation where none runs (R505). -/
theorem exec_krfLoad (hidle : s.chip.loadRuns = false) : exec .krfLoad s =
    .next { s with chip := (s.chip.loadAsked 0 (s.chip.fld Reg.krfLoadCtrl 5 0)).krfLoad s.env s.mem.dram } := by
  rw [show exec .krfLoad s = .next (krfLoadGo false (s.chip.fld Reg.krfLoadCtrl 5 0) s) from rfl, krfLoadGo,
    if_neg (Bool.eq_false_iff.mp hidle)]
  simp only [Bool.false_eq_true, if_false, Chip.loadAsked, b2n]

theorem exec_krfUnload (hidle : s.chip.loadRuns = false) (hslot : slot < 64) :
    exec (.krfUnload slot) s = .next { s with chip := (s.chip.loadAsked 1 slot).krfUnload slot } := by
  rw [show exec (.krfUnload slot) s = .next (krfLoadGo true slot s) from rfl, krfLoadGo, if_neg (Bool.eq_false_iff.mp hidle)]
  simp only [if_true, Nat.mod_eq_of_lt hslot, Chip.loadAsked, b2n]

theorem exec_krfLoad_misaligned (hidle : s.chip.loadRuns = false) (hal : s.chip.reg Reg.krfLoadAddr % 8 ≠ 0) : exec .krfLoad s =
    .next { s with chip := (s.chip.loadAsked 0 (s.chip.fld Reg.krfLoadCtrl 5 0)).loadEnd cstBad 0 0 0 } := by
  rw [exec_krfLoad hidle, Chip.krfLoad_misaligned]
  rwa [Chip.loadAddr_loadAsked]

theorem exec_krfLoad_refused (hidle : s.chip.loadRuns = false) (hat : s.chip.ImageInDram) {r : LoadResult}
    (hr : s.chip.loadedImage s.env s.mem.dram = r) (hprog : r.prog = none) : exec .krfLoad s =
    .next { s with chip := (s.chip.loadAsked 0 (s.chip.fld Reg.krfLoadCtrl 5 0)).loadEnd r.status r.reason r.index 0 } := by
  rw [exec_krfLoad hidle, Chip.krfLoad_refused (Chip.imageInDram_loadAsked.mpr hat)]
  · rw [Chip.loadedImage_loadAsked, hr]
  · exact (congrArg LoadResult.prog ((Chip.loadedImage_loadAsked ..).trans hr)).trans hprog

theorem exec_krfLoad_full (hidle : s.chip.loadRuns = false) (hat : s.chip.ImageInDram) (hprog : (s.chip.loadedImage s.env s.mem.dram).prog = some p)
    (hfull : ∀ j < 64, s.chip.slotProg j ≠ none) : exec .krfLoad s =
    .next { s with chip := (s.chip.loadAsked 0 (s.chip.fld Reg.krfLoadCtrl 5 0)).loadEnd cstLimit 8 0 0 } := by
  rw [exec_krfLoad hidle, Chip.krfLoad_full (p := p) (Chip.imageInDram_loadAsked.mpr hat)]
  · exact (congrArg LoadResult.prog (Chip.loadedImage_loadAsked ..)).trans hprog
  · rw [Chip.freeSlot_loadAsked, Chip.freeSlot_none hfull]

theorem exec_krfLoad_installs (hidle : s.chip.loadRuns = false) (hat : s.chip.ImageInDram)
    (hprog : (s.chip.loadedImage s.env s.mem.dram).prog = some p) (hi : i < 64) (hfree : s.chip.slotProg i = none)
    (hlow : ∀ j < i, s.chip.slotProg j ≠ none) : exec .krfLoad s =
    .next { s with chip := ((s.chip.loadAsked 0 (s.chip.fld Reg.krfLoadCtrl 5 0)).setProg i (some p)).loadEnd cstOk 0 0 i } := by
  rw [exec_krfLoad hidle, Chip.krfLoad_installs (p := p) (i := i) (Chip.imageInDram_loadAsked.mpr hat)]
  · exact (congrArg LoadResult.prog (Chip.loadedImage_loadAsked ..)).trans hprog
  · rw [Chip.freeSlot_loadAsked, Chip.freeSlot_lowest hi hfree hlow]

theorem exec_krfUnload_refused (hidle : s.chip.loadRuns = false) (hslot : slot < 64)
    (hno : s.chip.slotProg slot = none ∨ s.chip.slotProg slot = some p ∧ 0 < s.chip.bindsOf slot) :
    exec (.krfUnload slot) s = .next { s with chip := (s.chip.loadAsked 1 slot).loadEnd cstBad 0 0 0 } := by
  rw [exec_krfUnload hidle hslot]
  rcases hno with hfree | ⟨hprog, hbound⟩
  · rw [Chip.krfUnload_free ((Chip.slotProg_loadAsked ..).trans hfree)]
  · rw [Chip.krfUnload_bound ((Chip.slotProg_loadAsked ..).trans hprog) (hbound.trans_eq (Chip.bindsOf_loadAsked ..).symm)]

theorem exec_krfUnload_drains (hidle : s.chip.loadRuns = false) (hslot : slot < 64) (hprog : s.chip.slotProg slot = some p)
    (hbound : s.chip.bindsOf slot = 0) : exec (.krfUnload slot) s = .next { s with chip :=
      (let d := (s.chip.loadAsked 1 slot).setProg slot (some { p with draining := true })
       { d with kerf := { d.kerf with unloading := some slot } }) } := by
  rw [exec_krfUnload hidle hslot, Chip.krfUnload_drains ((Chip.slotProg_loadAsked ..).trans hprog) ((Chip.bindsOf_loadAsked ..).trans hbound)]

theorem exec_slotDrainDone (slot : Nat) (s : State) : exec (.slotDrainDone slot) s = .next { s with chip := s.chip.slotDrained slot } := rfl

end

/-! Bindings (R215-R217). -/

/-- KRF_BIND_CTRL, KRF_BIND_ARG and KRF_BIND_RES as GO leaves them. -/
def Chip.bindAsked (c : Chip) (op nsx ph slot : Nat) : Chip :=
  ((c.setReg Reg.krfBindCtrl (op * 2 ^ 29 + nsx * 2 ^ 16 + ph)).setReg Reg.krfBindArg slot).setReg Reg.krfBindRes 0

@[simp] theorem Chip.binding_bindAsked (c : Chip) (op nsx ph slot i : Nat) : (c.bindAsked op nsx ph slot).binding i = c.binding i := by
  rw [Chip.bindAsked, Chip.binding_setReg, Chip.binding_setReg, Chip.binding_setReg]

@[simp] theorem Chip.bindIdx_bindAsked (c : Chip) (op nsx ph slot nsx' ph' : Nat) :
    (c.bindAsked op nsx ph slot).bindIdx nsx' ph' = c.bindIdx nsx' ph' := by
  rw [Chip.bindAsked, Chip.bindIdx_setReg, Chip.bindIdx_setReg, Chip.bindIdx_setReg]

@[simp] theorem Chip.keyIndex_bindAsked (c : Chip) (op nsx ph slot nsx' ph' : Nat) :
    (c.bindAsked op nsx ph slot).keyIndex nsx' ph' = c.keyIndex nsx' ph' := by
  rw [Chip.bindAsked, Chip.keyIndex_setReg, Chip.keyIndex_setReg, Chip.keyIndex_setReg]

@[simp] theorem Chip.bindUsed_bindAsked (c : Chip) (op nsx ph slot : Nat) : (c.bindAsked op nsx ph slot).bindUsed = c.bindUsed := by
  rw [Chip.bindAsked, Chip.bindUsed_setReg, Chip.bindUsed_setReg, Chip.bindUsed_setReg]

@[simp] theorem Chip.bindCheck_bindAsked (c : Chip) (op nsx ph slot nsx' ph' slot' : Nat) :
    (c.bindAsked op nsx ph slot).bindCheck nsx' ph' slot' = c.bindCheck nsx' ph' slot' := by
  rw [Chip.bindAsked, Chip.bindCheck_setReg, Chip.bindCheck_setReg, Chip.bindCheck_setReg]

section
variable {c : Chip} {nsx ph slot : Nat}

/-- Operands within their fields stand in the registers as they are. -/
theorem Chip.bindGo_eq {op : Nat} (hop : op < 4) (hn : nsx < 1024) (hp : ph < 65536) (hs : slot < 64) :
    c.bindGo op nsx ph slot = (c.bindAsked op nsx ph slot).bindRun op nsx ph slot := by
  simp only [Chip.bindGo, Chip.bindAsked, Nat.mod_eq_of_lt hop, Nat.mod_eq_of_lt hn, Nat.mod_eq_of_lt hp, Nat.mod_eq_of_lt hs]

/-- A bind that a check refuses changes no binding; another takes the key's index, or the first free one. -/
theorem Chip.bindRun_bind (c : Chip) (nsx ph slot : Nat) : c.bindRun 0 nsx ph slot =
    if c.bindCheck nsx ph slot ≠ cstOk then c.bindEnd (c.bindCheck nsx ph slot) 0 0
    else (c.addChange ⟨nsx, ph, some slot, (c.keyIndex nsx ph).getD (kthFree c.bindUsed 0 0)⟩).bindEnd cstOk
      ((c.keyIndex nsx ph).getD (kthFree c.bindUsed 0 0)) 0 := rfl

theorem Chip.bindRun_unbind_none (h : c.keyIndex nsx ph = none) (slot : Nat) : c.bindRun 1 nsx ph slot = c.bindEnd cstBad 0 0 := by
  simp only [Chip.bindRun, h]

theorem Chip.bindRun_unbind_some {i : Nat} (h : c.keyIndex nsx ph = some i) (slot : Nat) :
    c.bindRun 1 nsx ph slot = (c.addChange ⟨nsx, ph, none, i⟩).bindEnd cstOk i 0 := by
  simp only [Chip.bindRun, h]

theorem Chip.bindRun_lookup_none (h : c.bindIdx nsx ph = none) (slot : Nat) : c.bindRun 2 nsx ph slot = c.bindEnd cstBad 0 0 := by
  simp only [Chip.bindRun, h]

theorem Chip.bindRun_lookup_some {i : Nat} (h : c.bindIdx nsx ph = some i) (slot : Nat) :
    c.bindRun 2 nsx ph slot = c.bindEnd cstOk i (((c.binding i).map (fun b => b.slot)).getD 0) := by
  simp only [Chip.bindRun, h]

end

section
variable {s : State} {nsx ph slot : Nat}

theorem exec_krfBind (hn : nsx < 1024) (hp : ph < 65536) (hs : slot < 64) :
    exec (.krfBind nsx ph slot) s = .next { s with chip := (s.chip.bindAsked 0 nsx ph slot).bindRun 0 nsx ph slot } := by
  rw [show exec (.krfBind nsx ph slot) s = .next { s with chip := s.chip.bindGo 0 nsx ph slot } from rfl, Chip.bindGo_eq (by decide) hn hp hs]

theorem exec_krfBind_refused (hn : nsx < 1024) (hp : ph < 65536) (hs : slot < 64) (hst : s.chip.bindCheck nsx ph slot ≠ cstOk) :
    exec (.krfBind nsx ph slot) s = .next { s with chip := (s.chip.bindAsked 0 nsx ph slot).bindEnd (s.chip.bindCheck nsx ph slot) 0 0 } := by
  rw [exec_krfBind hn hp hs, Chip.bindRun_bind, Chip.bindCheck_bindAsked, if_pos hst]

theorem exec_krfBind_passes (hn : nsx < 1024) (hp : ph < 65536) (hs : slot < 64) (hst : s.chip.bindCheck nsx ph slot = cstOk) :
    exec (.krfBind nsx ph slot) s = .next { s with chip := ((s.chip.bindAsked 0 nsx ph slot).addChange ⟨nsx, ph, some slot,
      (s.chip.keyIndex nsx ph).getD (kthFree s.chip.bindUsed 0 0)⟩).bindEnd cstOk ((s.chip.keyIndex nsx ph).getD (kthFree s.chip.bindUsed 0 0)) 0 } := by
  rw [exec_krfBind hn hp hs, Chip.bindRun_bind, Chip.bindCheck_bindAsked, if_neg (not_not.mpr hst), Chip.keyIndex_bindAsked,
    Chip.bindUsed_bindAsked]

end

section
variable {s : State} {nsx ph i : Nat}

/-- The slot that an unbind or a lookup leaves in KRF_BIND_ARG: what stood there. -/
def State.bindArg (s : State) : Nat := s.chip.fld Reg.krfBindArg 5 0

theorem exec_krfUnbind (hn : nsx < 1024) (hp : ph < 65536) :
    exec (.krfUnbind nsx ph) s = .next { s with chip := (s.chip.bindAsked 1 nsx ph s.bindArg).bindRun 1 nsx ph s.bindArg } := by
  rw [show exec (.krfUnbind nsx ph) s = .next { s with chip := s.chip.bindGo 1 nsx ph s.bindArg } from rfl,
    Chip.bindGo_eq (by decide) hn hp (bitsOf_lt ..)]

theorem exec_krfUnbind_none (hn : nsx < 1024) (hp : ph < 65536) (hi : s.chip.keyIndex nsx ph = none) :
    exec (.krfUnbind nsx ph) s = .next { s with chip := (s.chip.bindAsked 1 nsx ph s.bindArg).bindEnd cstBad 0 0 } := by
  rw [exec_krfUnbind hn hp, Chip.bindRun_unbind_none ((Chip.keyIndex_bindAsked ..).trans hi)]

theorem exec_krfUnbind_some (hn : nsx < 1024) (hp : ph < 65536) (hi : s.chip.keyIndex nsx ph = some i) : exec (.krfUnbind nsx ph) s =
    .next { s with chip := ((s.chip.bindAsked 1 nsx ph s.bindArg).addChange ⟨nsx, ph, none, i⟩).bindEnd cstOk i 0 } := by
  rw [exec_krfUnbind hn hp, Chip.bindRun_unbind_some ((Chip.keyIndex_bindAsked ..).trans hi)]

theorem exec_krfLookup (hn : nsx < 1024) (hp : ph < 65536) :
    exec (.krfLookup nsx ph) s = .next { s with chip := (s.chip.bindAsked 2 nsx ph s.bindArg).bindRun 2 nsx ph s.bindArg } := by
  rw [show exec (.krfLookup nsx ph) s = .next { s with chip := s.chip.bindGo 2 nsx ph s.bindArg } from rfl,
    Chip.bindGo_eq (by decide) hn hp (bitsOf_lt ..)]

theorem exec_krfLookup_none (hn : nsx < 1024) (hp : ph < 65536) (hi : s.chip.bindIdx nsx ph = none) :
    exec (.krfLookup nsx ph) s = .next { s with chip := (s.chip.bindAsked 2 nsx ph s.bindArg).bindEnd cstBad 0 0 } := by
  rw [exec_krfLookup hn hp, Chip.bindRun_lookup_none ((Chip.bindIdx_bindAsked ..).trans hi)]

theorem exec_krfLookup_some (hn : nsx < 1024) (hp : ph < 65536) (hi : s.chip.bindIdx nsx ph = some i) : exec (.krfLookup nsx ph) s =
    .next { s with chip := (s.chip.bindAsked 2 nsx ph s.bindArg).bindEnd cstOk i (((s.chip.binding i).map (fun b => b.slot)).getD 0) } := by
  rw [exec_krfLookup hn hp, Chip.bindRun_lookup_some ((Chip.bindIdx_bindAsked ..).trans hi), Chip.binding_bindAsked]

end

/-- Settles O37: each operation ends as its check or its lookup says, on the registers as GO leaves them. -/
theorem programSlotsAndBindings : Obligations.ProgramSlotsAndBindings := by
  refine ⟨fun s slot i p hslot hidle => ?_, fun s nsx ph slot i hn hp hs => ?_⟩
  · intro c a r asked ends c0
    exact ⟨exec_krfLoad_misaligned hidle, fun hal hlo hhi => ⟨exec_krfLoad_refused hidle ⟨hal, hlo, hhi⟩ rfl,
      exec_krfLoad_full hidle ⟨hal, hlo, hhi⟩, exec_krfLoad_installs hidle ⟨hal, hlo, hhi⟩⟩,
      fun hfree => exec_krfUnload_refused (p := p) hidle hslot (.inl hfree),
      fun hprog hbound => exec_krfUnload_refused hidle hslot (.inr ⟨hprog, hbound⟩), exec_krfUnload_drains hidle hslot⟩
  · intro c asked ends arg st index
    refine ⟨exec_krfBind_refused hn hp hs, exec_krfBind_passes hn hp hs, exec_krfUnbind_none hn hp, exec_krfUnbind_some hn hp,
      exec_krfLookup_none hn hp, exec_krfLookup_some hn hp, fun hslot hend => ?_⟩
    exact (exec_slotDrainDone slot s).trans (congrArg (fun d => Host.Outcome.next { s with chip := d }) (Chip.slotDrained_ended hslot hend))

end Sys2Proof.Machine
end

section
/-! SUPPORT. The control profile: jumps, calls, waits, and the way between the worlds (R220-R228). -/

namespace Sys2Proof.Machine

/-! What an instruction comes to on a warden core that is ready. -/

section
variable {s : State} {w : Nat} {g : Guard}

theorem coreOf_warden (s : State) (w : Nat) : coreOf s (40 + w) = ((s.awake w).chip.warden w).core := by
  rw [coreOf, if_neg (by omega), Nat.add_sub_cancel_left]

/-- A core from 40 on that is ready is a warden core whose guard can hold and holds. -/
theorem KerfReady.warden (h : KerfReady s (40 + w) g) :
    WardenReady s w ∧ Guard.never g = false ∧ ((s.awake w).chip.warden w).core.guard g = true := by
  obtain ⟨⟨v, hk, -⟩ | ⟨-, hready⟩, hnever, hg⟩ := h
  · omega
  · rw [coreOf_warden] at hg
    rw [Nat.add_sub_cancel_left] at hready
    exact ⟨hready, hnever, hg⟩

theorem wardenRun_runs (h : KerfReady s (40 + w) g) {priv : WardenCore → Bool} (hpriv : priv ((s.awake w).chip.warden w) = false)
    (f : State → State) : wardenRun w g false priv f s = f (s.awake w) := by
  obtain ⟨hready, hnever, hg⟩ := h.warden
  exact wardenRun_ready hready hnever hg hpriv f

/-- A level or world that the instruction refuses traps with PRIV (R226). -/
theorem wardenRun_refused (h : KerfReady s (40 + w) g) {priv : WardenCore → Bool} (hpriv : priv ((s.awake w).chip.warden w) = true)
    (f : State → State) : wardenRun w g false priv f s = (s.awake w).trap w 2 none false := by
  obtain ⟨hready, hnever, hg⟩ := h.warden
  have hruns := Chip.wruns_ready hready
  obtain ⟨-, -, -, -, -, hfetch⟩ := hready
  simp [wardenRun, hruns, hfetch, hnever, hg, hpriv]

/-- An instruction that the profile does not have traps with ILLEGAL, whatever its guard (R221, R226). -/
theorem wardenRun_illegal (h : WardenReady s w) (g : Guard) (priv : WardenCore → Bool) (f : State → State) :
    wardenRun w g true priv f s = (s.awake w).trap w 1 none false := by
  have hruns := Chip.wruns_ready h
  obtain ⟨-, -, -, -, -, hfetch⟩ := h
  simp [wardenRun, hruns, hfetch]

theorem controlOnly_warden (illegal : Bool) (priv : WardenCore → Bool) (f : Nat → State → State) (s : State) (g : Guard) (w : Nat) :
    controlOnly (40 + w) g illegal priv f s = wardenRun w g illegal priv (f w) s := by
  rw [controlOnly, if_neg (by omega), Nat.add_sub_cancel_left]

theorem controlOnly_runs (h : KerfReady s (40 + w) g) {priv : WardenCore → Bool} (hpriv : priv ((s.awake w).chip.warden w) = false)
    (f : Nat → State → State) : controlOnly (40 + w) g false priv f s = f w (s.awake w) := by
  rw [controlOnly_warden, wardenRun_runs h hpriv]

theorem controlOnly_refused (h : KerfReady s (40 + w) g) {priv : WardenCore → Bool} (hpriv : priv ((s.awake w).chip.warden w) = true)
    (f : Nat → State → State) : controlOnly (40 + w) g false priv f s = (s.awake w).trap w 2 none false := by
  rw [controlOnly_warden, wardenRun_refused h hpriv]

theorem dataOnly_warden (h : WardenReady s w) (cost : Nat) (g : Guard) (f : KCore → Invocation → KOut) :
    dataOnly (40 + w) cost g f s = (s.awake w).trap w 1 none false := by
  rw [dataOnly, if_neg (by omega), Nat.add_sub_cancel_left, wardenRun_illegal h]

end

/-! Where a warden core goes on (R222). -/

/-- Addresses of control space have 32 bits. -/
theorem WardenCore.goTo_mod (x : WardenCore) (n : Nat) : x.goTo (n % 2 ^ 32) = x.goTo n := by
  rw [WardenCore.goTo, Nat.mod_mod, WardenCore.goTo]

theorem WardenCore.goTo_outside {x : WardenCore} (h : x.core.loops = []) (n : Nat) :
    x.goTo n = { x with core := { x.core with pc := n % 2 ^ 32 } } := by
  rw [WardenCore.goTo, KCore.goTo_outside h]

/-- Settles O13: each instruction changes the running core alone, and a core outside loops goes on where it is told. -/
theorem wardenControlFlow : Obligations.WardenControlFlow := by
  refine ⟨fun s w g off ra h => ?_, fun x n hl => ⟨WardenCore.goTo_outside hl n, WardenCore.goTo_outside hl _⟩⟩
  intro t x dest
  refine ⟨next_congr (controlOnly_runs h rfl _), next_congr (controlOnly_runs h rfl _), ?_, next_congr (controlOnly_runs h rfl _),
    fun hthread => next_congr (controlOnly_runs h hthread _)⟩
  rw [WardenCore.goTo_mod]
  exact next_congr (controlOnly_runs h rfl _)

/-! Worlds (R227, R228). -/

section
variable {s : State} {w : Nat} {g : Guard}

/-- A trap's entry leaves the world, the registers, the predicates and V as they are. -/
theorem WardenCore.enter_frame (x : WardenCore) (estat epc cause vector : Nat) (addr : Option Nat) :
    (x.enter estat epc cause vector addr).secure = x.secure ∧ (x.enter estat epc cause vector addr).thread = false ∧
    (x.enter estat epc cause vector addr).core.k = x.core.k ∧ (x.enter estat epc cause vector addr).core.p = x.core.p ∧
    (x.enter estat epc cause vector addr).core.v = x.core.v := by
  cases addr <;> exact ⟨rfl, rfl, rfl, rfl, rfl⟩

theorem exec_wcall (h : KerfReady s (40 + w) g) (svc : BitVec 15) : exec (.wcall (40 + w) g svc) s =
    .next (if ((s.awake w).chip.warden w).secure then (s.awake w).trap w 1 none false
      else onWarden (fun x => x.wcall svc.toNat) w (s.awake w)) :=
  next_congr (controlOnly_runs h rfl _)

theorem exec_wcall_secure (h : KerfReady s (40 + w) g) (hsec : ((s.awake w).chip.warden w).secure = true) (svc : BitVec 15) :
    exec (.wcall (40 + w) g svc) s = .next ((s.awake w).trap w 1 none false) := by
  rw [exec_wcall h, if_pos hsec]

theorem exec_wcall_normal (h : KerfReady s (40 + w) g) (hsec : ((s.awake w).chip.warden w).secure = false) (svc : BitVec 15) :
    exec (.wcall (40 + w) g svc) s = .next ((s.awake w).putWarden w (((s.awake w).chip.warden w).wcall svc.toNat)) := by
  rw [exec_wcall h, hsec]
  rfl

theorem exec_eret_refused (h : KerfReady s (40 + w) g) (hpriv : ((s.awake w).chip.warden w).eretPriv = true) :
    exec (.eret (40 + w) g) s = .next ((s.awake w).trap w 2 none false) :=
  next_congr (controlOnly_refused h hpriv _)

theorem exec_eret_runs (h : KerfReady s (40 + w) g) (hpriv : ((s.awake w).chip.warden w).eretPriv = false) :
    exec (.eret (40 + w) g) s = .next ((s.awake w).putWarden w ((s.awake w).chip.warden w).eret) :=
  next_congr (controlOnly_runs h hpriv _)

end

section
variable {x : WardenCore}

/-- ERET takes world, level and pc from what the trap saved (R228). -/
theorem WardenCore.eret_goes (hl : x.core.loops = []) : x.eret.secure = (x.csrOf x.secure 4).testBit 0 ∧
    x.eret.thread = !(x.csrOf x.secure 4).testBit 1 ∧ x.eret.core.pc = x.csrOf x.secure 1 % 2 ^ 32 := by
  unfold WardenCore.eret
  rw [WardenCore.goTo_outside]
  · exact ⟨rfl, rfl, rfl⟩
  · cases bitOf (x.csrOf x.secure 4) 3 <;> exact hl

/-- With SHADOW the registers come back from the secure shadow. -/
theorem WardenCore.eret_shadow (h : (x.csrOf x.secure 4).testBit 3 = true) :
    x.eret.core.k = x.shadow.1 ∧ x.eret.core.p = x.shadow.2.1 ∧ x.eret.core.v = x.shadow.2.2 := by
  have hbit : bitOf (x.csrOf x.secure 4) 3 = true := h
  simp only [WardenCore.eret, hbit]
  exact ⟨rfl, rfl, rfl⟩

theorem WardenCore.eret_plain (h : (x.csrOf x.secure 4).testBit 3 = false) :
    x.eret.core.k = x.core.k ∧ x.eret.core.p = x.core.p ∧ x.eret.core.v = x.core.v := by
  have hbit : bitOf (x.csrOf x.secure 4) 3 = false := h
  simp only [WardenCore.eret, hbit]
  exact ⟨rfl, rfl, rfl⟩

end

/-- The instructions that only the data profile has (R221). -/
def dataProfileOnly (k : Nat) (g : Guard) (rd ra ri key : BitVec 4) (imm : BitVec 15) (reason : BitVec 6) (bits : BitVec 8) (level : BitVec 2)
    (evid : Bool) : List Instr :=
  [.sadd k g rd ra imm, .emit k g ri ra, .fail k g ri reason, .undo k g ri, .exit k g, .abort k g reason, .shuf k g ri bits, .sqz k g ri level,
    .xts k g ri key, .hash k g ri, .place k g ri evid, .tag k g ri ra]

theorem exec_dataProfileOnly {k : Nat} {g : Guard} {rd ra ri key : BitVec 4} {imm : BitVec 15} {reason : BitVec 6} {bits : BitVec 8}
    {level : BitVec 2} {evid : Bool} {i : Instr} (hi : i ∈ dataProfileOnly k g rd ra ri key imm reason bits level evid) (s : State) :
    ∃ cost f, exec i s = .next (dataOnly k cost g f s) := by
  simp only [dataProfileOnly, List.mem_cons, List.not_mem_nil, or_false] at hi
  rcases hi with rfl | rfl | rfl | rfl | rfl | rfl | rfl | rfl | rfl | rfl | rfl | rfl <;> exact ⟨_, _, rfl⟩

theorem exec_dataProfileOnly_warden {s : State} {w : Nat} (h : WardenReady s w) {g : Guard} {rd ra ri key : BitVec 4} {imm : BitVec 15}
    {reason : BitVec 6} {bits : BitVec 8} {level : BitVec 2} {evid : Bool} {i : Instr}
    (hi : i ∈ dataProfileOnly (40 + w) g rd ra ri key imm reason bits level evid) : exec i s = .next ((s.awake w).trap w 1 none false) := by
  obtain ⟨cost, f, he⟩ := exec_dataProfileOnly hi s
  rw [he, dataOnly_warden h]

/-- Settles O16: a call and a return between the worlds by the world that runs, and each instruction of the data profile alone is illegal. -/
theorem wardenWorlds : Obligations.WardenWorlds := by
  refine ⟨fun s w g svc h => ?_, fun s w g rd ra ri key imm reason bits level evid i h hi => exec_dataProfileOnly_warden h hi⟩
  intro t x
  refine ⟨fun hsec => exec_wcall_secure h hsec svc, fun hsec => ?_, fun hsec hbit => ?_, fun hsec hl => ?_⟩
  · have hleave : x.leave = x.setCsr false 0 x.wstat := by rw [WardenCore.leave, hsec]
    refine ⟨_, exec_wcall_normal h hsec svc, ?_, WardenCore.enter_frame ..⟩
    rw [WardenCore.wcall, hleave]
  · exact exec_eret_refused h (by rw [WardenCore.eretPriv, hsec, bitOf, hbit]; rfl)
  · have hpriv : x.eretPriv = false := by
      rcases hsec with hsec | hbit
      · rw [WardenCore.eretPriv, hsec]
        rfl
      · rw [WardenCore.eretPriv, bitOf, hbit, Bool.and_false]
    obtain ⟨hworld, hlevel, hpc⟩ := WardenCore.eret_goes hl
    exact ⟨_, exec_eret_runs h hpriv, hworld, hlevel, hpc, WardenCore.eret_shadow, WardenCore.eret_plain⟩

end Sys2Proof.Machine
end

section
/-! SUPPORT. Accesses of the warden cores to control space (R221, R222, R226). -/

namespace Sys2Proof.Machine

/-! The checks before an access leaves the core (R226). -/

/-- The address has 32 bits and is a multiple of the width, and register space is met with the width of a register. -/
def ControlAligned (a width : Nat) : Prop := a < 2 ^ 32 ∧ a % width = 0 ∧ (a < 0x20000000 → width = 4)

section
variable {x : WardenCore} {kinds : List Nat} {a width : Nat}

theorem not_controlAligned_iff : ¬ ControlAligned a width ↔ 2 ^ 32 ≤ a ∨ a % width ≠ 0 ∨ (a < 0x20000000 ∧ width ≠ 4) := by
  simp only [ControlAligned, not_and_or, not_lt, Classical.not_imp, ne_eq]

theorem dataTrap_misaligned (h : ¬ ControlAligned a width) : dataTrap x kinds a width = some 3 := if_pos (not_controlAligned_iff.mp h)

/-- Memory protection decides on an aligned access. -/
theorem dataTrap_aligned (h : ControlAligned a width) :
    dataTrap x kinds a width = if kinds.any (fun k => !x.grants k a) then some 4 else none :=
  if_neg (fun hbad => not_controlAligned_iff.mpr hbad h)

theorem dataTrap_refused (h : ControlAligned a width) {k : Nat} (hk : k ∈ kinds) (hno : x.grants k a = false) :
    dataTrap x kinds a width = some 4 := by
  rw [dataTrap_aligned h, if_pos (List.any_eq_true.mpr ⟨k, hk, by rw [hno]; rfl⟩)]

theorem dataTrap_passes (h : ControlAligned a width) (hall : ∀ k ∈ kinds, x.grants k a = true) : dataTrap x kinds a width = none := by
  rw [dataTrap_aligned h, if_neg]
  simpa using hall

end

/-! Loads, stores and compare-and-swap, by what the checks and control space answer. -/

section
variable {t u : State} {w width cause v : Nat} {rd ra rb : BitVec 4} {imm : BitVec 15}

theorem wardenLoad_traps (h : dataTrap (t.chip.warden w) [mpuR] ((t.chip.warden w).core.ea ra imm) width = some cause) :
    wardenLoad w rd ra imm width t = t.trap w cause (some ((t.chip.warden w).core.ea ra imm)) false := by
  simp only [wardenLoad, h]

theorem wardenLoad_bus (h : dataTrap (t.chip.warden w) [mpuR] ((t.chip.warden w).core.ea ra imm) width = none) {l : Bool}
    (hbus : busRead ⟨w, (t.chip.warden w).secure⟩ ((t.chip.warden w).core.ea ra imm) width t = .bus l) :
    wardenLoad w rd ra imm width t = t.trap w 5 (some ((t.chip.warden w).core.ea ra imm)) l := by
  simp only [wardenLoad, h, hbus]

theorem wardenLoad_acts (h : dataTrap (t.chip.warden w) [mpuR] ((t.chip.warden w).core.ea ra imm) width = none)
    (hbus : busRead ⟨w, (t.chip.warden w).secure⟩ ((t.chip.warden w).core.ea ra imm) width t = .ok v u) :
    wardenLoad w rd ra imm width t = u.putWarden w ((u.chip.warden w).setReg rd (BitVec.ofNat 64 v)).advance := by
  simp only [wardenLoad, h, hbus]

theorem wardenStore_traps (h : dataTrap (t.chip.warden w) [mpuW] ((t.chip.warden w).core.ea ra imm) width = some cause) :
    wardenStore w rd ra imm width t = t.trap w cause (some ((t.chip.warden w).core.ea ra imm)) false := by
  simp only [wardenStore, h]

theorem wardenStore_acts (h : dataTrap (t.chip.warden w) [mpuW] ((t.chip.warden w).core.ea ra imm) width = none)
    (hbus : busWrite ⟨w, (t.chip.warden w).secure⟩ ((t.chip.warden w).core.ea ra imm) width
      (((t.chip.warden w).core.reg rd).toNat % 2 ^ (8 * width)) (t.putWarden w (t.chip.warden w).advance) = .ok v u) :
    wardenStore w rd ra imm width t = u := by
  simp only [wardenStore, h, hbus]

/-- Other bytes than k[RD]: the register takes them, and nothing is stored. -/
theorem casRun_differs (h : dataTrap (t.chip.warden w) [mpuR, mpuW] ((t.chip.warden w).core.reg ra).toNat 8 = none)
    (hbus : busRead ⟨w, (t.chip.warden w).secure⟩ ((t.chip.warden w).core.reg ra).toNat 8 t = .ok v u)
    (hne : BitVec.ofNat 64 v ≠ (t.chip.warden w).core.reg rd) :
    casRun rd ra rb w t = u.putWarden w ((t.chip.warden w).setReg rd (BitVec.ofNat 64 v)).advance := by
  simp only [casRun, h, hbus, if_pos hne]

/-- The bytes that k[RD] holds: the store acts once the core has gone on. -/
theorem casRun_equals (h : dataTrap (t.chip.warden w) [mpuR, mpuW] ((t.chip.warden w).core.reg ra).toNat 8 = none)
    (hbus : busRead ⟨w, (t.chip.warden w).secure⟩ ((t.chip.warden w).core.reg ra).toNat 8 t = .ok v u)
    (heq : BitVec.ofNat 64 v = (t.chip.warden w).core.reg rd) {z : Nat} {r : State}
    (hst : busWrite ⟨w, (t.chip.warden w).secure⟩ ((t.chip.warden w).core.reg ra).toNat 8 ((t.chip.warden w).core.reg rb).toNat
      (u.putWarden w ((t.chip.warden w).setReg rd (BitVec.ofNat 64 v)).advance) = .ok z r) : casRun rd ra rb w t = r := by
  simp only [casRun, h, hbus, if_neg (not_not.mpr heq), hst]

end

/-! The instructions. -/

section
variable {s : State} {w n : Nat} {g : Guard} {rd ra : BitVec 4} {imm : BitVec 15} {i : Instr}

theorem exec_load_warden (h : KerfReady s (40 + w) g) (hi : (n, i) ∈ loadsOf (40 + w) g rd ra imm) :
    exec i s = .next (wardenLoad w rd ra imm n (s.awake w)) := by
  rw [(exec_load hi s).2, kerfLoad, if_neg (by omega), Nat.add_sub_cancel_left, wardenRun_runs h rfl]

theorem exec_store_warden (h : KerfReady s (40 + w) g) (hi : (n, i) ∈ storesOf (40 + w) g rd ra imm) :
    exec i s = .next (wardenStore w rd ra imm n (s.awake w)) := by
  rw [(exec_store hi s).2, kerfStore, if_neg (by omega), Nat.add_sub_cancel_left, wardenRun_runs h rfl]

theorem exec_cas (h : KerfReady s (40 + w) g) (rd ra rb : BitVec 4) :
    exec (.cas (40 + w) g rd ra rb) s = .next (casRun rd ra rb w (s.awake w)) :=
  next_congr (controlOnly_runs h rfl _)

end

/-- Settles O17: a load or store traps at the first check that fails and else acts, and CAS goes by what it has read. -/
theorem wardenMemoryAccesses : Obligations.WardenMemoryAccesses := by
  refine ⟨fun s u w g rd ra imm n v l i j h hij => ?_, fun s u r w g rd ra rb v z h => ?_⟩
  · have hi : (n, i) ∈ loadsOf (40 + w) g rd ra imm := List.mem_map_of_mem (f := fun q => (q.1, q.2.1)) hij
    have hj : (n, j) ∈ storesOf (40 + w) g rd ra imm := List.mem_map_of_mem (f := fun q => (q.1, q.2.2)) hij
    rw [exec_load_warden h hi, exec_store_warden h hj]
    intro t x a acc aligned
    have hread (hal : aligned) (hr : x.grants mpuR a = true) : dataTrap x [mpuR] a n = none := dataTrap_passes hal (by simpa using hr)
    have hwrite (hal : aligned) (hw : x.grants mpuW a = true) : dataTrap x [mpuW] a n = none := dataTrap_passes hal (by simpa using hw)
    exact ⟨fun hal => ⟨next_congr (wardenLoad_traps (dataTrap_misaligned hal)), next_congr (wardenStore_traps (dataTrap_misaligned hal))⟩,
      fun hal hr => next_congr (wardenLoad_traps (dataTrap_refused hal List.mem_cons_self hr)),
      fun hal hw => next_congr (wardenStore_traps (dataTrap_refused hal List.mem_cons_self hw)),
      fun hal hr hbus => next_congr (wardenLoad_bus (hread hal hr) hbus),
      fun hal hr hbus => next_congr (wardenLoad_acts (hread hal hr) hbus),
      fun hal hw hbus => next_congr (wardenStore_acts (hwrite hal hw) hbus)⟩
  · rw [exec_cas h]
    intro t x a acc done h32 h8 hlo hr hw hbus
    have hpass : dataTrap x [mpuR, mpuW] a 8 = none :=
      dataTrap_passes ⟨h32, h8, fun hlt => absurd hlt (not_lt.mpr hlo)⟩ (by simpa using ⟨hr, hw⟩)
    exact ⟨fun hne => next_congr (casRun_differs hpass hbus hne), fun heq hst => next_congr (casRun_equals hpass hbus heq hst)⟩

end Sys2Proof.Machine
end

section
/-! SUPPORT. The mirror and the mailboxes of a warden pair (R231, R232, R238-R241). -/

namespace Sys2Proof.Machine

/-! Pairs and their slots. -/

theorem Chip.pair_updPair_self {c : Chip} {p : Nat} (hp : p < c.kerf.pairs.length) (g : Pair → Pair) : (c.updPair p g).pair p = g (c.pair p) := by
  simp [Chip.pair, Chip.updPair, updateAt_eq_set _ _ _ Pair.fresh, hp]

theorem Chip.pair_updPair_ne {p q : Nat} (h : q ≠ p) (c : Chip) (g : Pair → Pair) : (c.updPair p g).pair q = c.pair q := by
  simp [Chip.pair, Chip.updPair, updateAt_eq_set _ _ _ Pair.fresh, h.symm]

theorem Pair.slot_setSlot_self (x : Pair) (i : Nat) (m : MbxSlot) : (x.setSlot i m).slot i = m := by
  have hlen : i < (x.mbx ++ List.replicate (i + 1 - x.mbx.length) MbxSlot.free).length := by
    rw [List.length_append, List.length_replicate]
    omega
  rw [Pair.slot, Pair.setSlot, updateAt_eq_set _ _ _ MbxSlot.free, List.getD_eq_getElem?_getD, List.getElem?_set_self hlen]
  rfl

/-! Commits (R232). -/

/-- The copy that a commit writes: the one that does not hold the committed generation. -/
def Pair.aim (x : Pair) : MirrorCopy := if x.copy0.valid = true ∧ x.copy0.gen = x.gen then x.copy1 else x.copy0

/-- Puts the copy that a commit writes. -/
def Pair.putAim (x : Pair) (k : MirrorCopy) : Pair :=
  if x.copy0.valid = true ∧ x.copy0.gen = x.gen then { x with copy1 := k } else { x with copy0 := k }

theorem Pair.target_eq (x : Pair) (g : MirrorCopy → MirrorCopy) : x.target g = x.putAim (g x.aim) := by
  by_cases h : x.copy0.valid = true ∧ x.copy0.gen = x.gen <;> simp [Pair.target, Pair.onCopy0, Pair.putAim, Pair.aim, h]

section
variable {c : Chip} {w p : Nat}

theorem Chip.wpCommit_standby (h : c.isActive w = false) : c.wpCommit w = c := by simp [Chip.wpCommit, h]

theorem Chip.wpCommit_runs (hact : c.isActive w = true) (hidle : (c.pair (w / 2)).committing = false) (hgen : (c.pair (w / 2)).gen + 1 < 2 ^ 64) :
    c.wpCommit w = (c.updPair (w / 2) (fun x => { x.putAim { x.aim with valid := false } with committing := true })).setBit
      (Reg.krfWpCommit (w / 2)) 31 true := by
  simp only [Chip.wpCommit, hact, hidle, Bool.not_true, Bool.or_self, Bool.false_eq_true, if_false, if_neg (not_le.mpr hgen), Pair.target_eq]

/-- What the end of a commit makes of its pair. -/
def Pair.committed (x : Pair) (image : Mem) : Pair :=
  { (x.putAim ⟨true, x.gen + 1, image⟩).freeTaken with
    gen := x.gen + 1
    committing := false }

theorem Chip.wpCommitted_ends (hrun : (c.pair p).committing = true) (sram : Mem) : c.wpCommitted sram p =
    ((({ c.updPair p (fun x => x.committed (workImage sram p)) with
      pmu := { c.pmu with commits := insertNat p c.pmu.commits } } : Chip)).setReg (Reg.krfWpCommit p) cstOk).releasePosts p := by
  simp only [Chip.wpCommitted, hrun, Bool.not_true, Bool.false_eq_true, if_false, Pair.target_eq]
  rfl

/-! Pops (R238). -/

theorem Chip.mbxPop_standby (h : c.isActive w = false) : c.mbxPop w = c := by simp [Chip.mbxPop, h]

/-- Core `w` has taken slot `i`, and `rest` is pending behind it. -/
def Pair.popped (x : Pair) (w i : Nat) (rest : List Nat) : Pair :=
  { x.setSlot i { x.slot i with state := 3, owner := w } with
    queue := rest
    taken := x.taken ++ [i] }

theorem Chip.mbxPop_takes {i : Nat} {rest : List Nat} (hact : c.isActive w = true) (hq : (c.pair (w / 2)).queue = i :: rest) :
    c.mbxPop w = c.updPair (w / 2) (fun x => x.popped w i rest) := by
  simp only [Chip.mbxPop, hact, hq, Bool.not_true, Bool.false_eq_true, if_false]
  rfl

end

/-! Posts of a warden core (R238-R241). -/

/-- A field of the message in a core's buffer. -/
def Chip.postField (c : Chip) (w o n : Nat) : Nat := leNat (sliceBytes (c.mbxBytes w) o n)

section
variable {c : Chip} {w dst len : Nat}

theorem Chip.postCheck_zero (h : len = 0) : c.postCheck w dst len = cstZero := firstFail_fails (by simp [h]) ..

/-- Past the test of LEN 0. -/
theorem Chip.postCheck_nonzero (h : 0 < len) : c.postCheck w dst len =
    firstFail [(decide (112 < len) || decide (5 < dst) || (decide (4 ≤ dst) && w / 2 != 1), cstBad),
      (decide (dst < 4) && ((c.pair dst).freeFor false).isNone, cstBusy),
      (decide (dst < 4) && (c.warden (2 * dst)).fenced && (c.warden (2 * dst + 1)).fenced, cstBus)] := firstFail_passes (by simp [h.ne']) ..

theorem Chip.postCheck_bad (h : 0 < len) (hbad : 112 < len ∨ 5 < dst ∨ (4 ≤ dst ∧ w / 2 ≠ 1)) : c.postCheck w dst len = cstBad := by
  rw [Chip.postCheck_nonzero h]
  exact firstFail_fails (by simpa [or_assoc] using hbad) ..

/-- A message of a good length to a pair: its share and its cores decide. -/
theorem Chip.postCheck_pair (h : 0 < len) (hlen : len ≤ 112) (hdst : dst < 4) : c.postCheck w dst len =
    firstFail [(((c.pair dst).freeFor false).isNone, cstBusy), ((c.warden (2 * dst)).fenced && (c.warden (2 * dst + 1)).fenced, cstBus)] := by
  have hgood : (decide (112 < len) || decide (5 < dst) || (decide (4 ≤ dst) && w / 2 != 1)) = false := by
    simp only [Bool.or_eq_false_iff, Bool.and_eq_false_iff, decide_eq_false_iff_not]
    omega
  rw [Chip.postCheck_nonzero h, firstFail_passes hgood]
  simp [hdst]

theorem Chip.postCheck_full (h : 0 < len) (hlen : len ≤ 112) (hdst : dst < 4) (hfull : (c.pair dst).freeFor false = none) :
    c.postCheck w dst len = cstBusy := by
  rw [Chip.postCheck_pair h hlen hdst]
  exact firstFail_fails (by rw [hfull]; rfl) ..

theorem Chip.postCheck_ok (h : 0 < len) (hlen : len ≤ 112) (hdst : dst < 4) {i : Nat} (hfree : (c.pair dst).freeFor false = some i)
    (halive : ((c.warden (2 * dst)).fenced && (c.warden (2 * dst + 1)).fenced) = false) : c.postCheck w dst len = cstOk := by
  rw [Chip.postCheck_pair h hlen hdst, firstFail_passes (by rw [hfree]; rfl), firstFail_passes halive]
  rfl

theorem Chip.mbxPost_refused (hw : (c.warden w).fenced = false) {st : Nat} (hst : c.postCheck w (c.postField w 1 1) (c.postField w 3 1) = st)
    (hne : st ≠ cstOk) : c.mbxPost w = c.setReg (Reg.krfMbxTx w) st := by
  subst hst
  simp only [Chip.mbxPost, hw, Bool.false_eq_true, if_false]
  exact if_pos hne

/-- The message that a post to a pair carries. -/
def Chip.postMessage (c : Chip) (w : Nat) : List Byte :=
  c.mbxMessage w (c.postField w 1 1) (c.postField w 2 1) (c.postField w 4 4) 0xFFFF (sliceBytes (c.mbxBytes w) 16 (c.postField w 3 1))

/-- The post is in slot `i` of its destination, held until the commit of its own pair. -/
def Chip.postHeld (c : Chip) (w i : Nat) : Chip :=
  let put := c.updPair (c.postField w 1 1) (fun x => x.setSlot i ⟨1, w, false, c.postMessage w⟩)
  { put with kerf := { put.kerf with held := put.kerf.held ++ [⟨w, c.postField w 1 1, some i, c.postMessage w⟩] } }

theorem Chip.mbxPost_held (hw : (c.warden w).fenced = false) (hst : c.postCheck w (c.postField w 1 1) (c.postField w 3 1) = cstOk)
    (hdst : c.postField w 1 1 < 4) {i : Nat} (hfree : (c.pair (c.postField w 1 1)).freeFor false = some i) :
    c.mbxPost w = ((c.postHeld w i).setReg (Reg.krfMbxTx w) (i % 128 * 256)).pass := by
  have hslot : (if c.postField w 1 1 < 4 then (c.pair (c.postField w 1 1)).freeFor false else none) = some i := (if_pos hdst).trans hfree
  have hfn : (if 4 ≤ c.postField w 1 1 then c.postField w 14 2 else 0xFFFF) = 0xFFFF := if_neg (not_le.mpr hdst)
  refine (if_neg (Bool.eq_false_iff.mp hw)).trans ((if_neg (not_not.mpr hst)).trans ?_)
  unfold Chip.postField at hslot hfn
  simp only [hslot, hfn, Option.getD_some, cstOk, Nat.add_zero]
  rfl

end

/-! Requests of the management endpoint (R238-R240). -/

/-- The status of a request with a payload of `len` bytes. -/
def Chip.miCheck (c : Chip) (len : Nat) : Nat :=
  firstFail [(len == 0, cstZero), (decide (112 < len), cstBad), (((c.pair 1).freeFor true).isNone, cstBusy),
    ((c.warden 2).fenced && (c.warden 3).fenced, cstBus)]

section
variable {c : Chip} {len : Nat}

theorem Chip.miCheck_zero (h : len = 0) : c.miCheck len = cstZero := firstFail_fails (by simp [h]) ..

theorem Chip.miCheck_long (h : 112 < len) : c.miCheck len = cstBad :=
  (firstFail_passes (beq_eq_false_iff_ne.mpr (by omega)) ..).trans (firstFail_fails (decide_eq_true h) ..)

/-- A payload of a good length: the host share and WP1's cores decide. -/
theorem Chip.miCheck_length (h : 0 < len) (hlen : len ≤ 112) :
    c.miCheck len = firstFail [(((c.pair 1).freeFor true).isNone, cstBusy), ((c.warden 2).fenced && (c.warden 3).fenced, cstBus)] :=
  (firstFail_passes (by simp [h.ne']) ..).trans (firstFail_passes (decide_eq_false (not_lt.mpr hlen)) ..)

theorem Chip.miCheck_full (h : 0 < len) (hlen : len ≤ 112) (hfull : (c.pair 1).freeFor true = none) : c.miCheck len = cstBusy := by
  rw [Chip.miCheck_length h hlen]
  exact firstFail_fails (by rw [hfull]; rfl) ..

theorem Chip.miCheck_ok (h : 0 < len) (hlen : len ≤ 112) {i : Nat} (hfree : (c.pair 1).freeFor true = some i)
    (halive : ((c.warden 2).fenced && (c.warden 3).fenced) = false) : c.miCheck len = cstOk := by
  rw [Chip.miCheck_length h hlen, firstFail_passes (by rw [hfree]; rfl), firstFail_passes halive]
  rfl

end

section
variable {s : State} {tag : Word} {pay : List Byte}

theorem exec_miRequest {st : Nat} {d : Chip} (hst : s.chip.miCheck pay.length = st)
    (hd : (if st = cstOk then (s.chip.mbxHost 9 3 tag.toNat 0xFFFF pay).2 else s.chip) = d) :
    exec (.miRequest tag pay) s = .next { s with chip := { d.wakeSee .mi with resp := ⟨0, st⟩ } } := by
  subst hst hd
  rfl

theorem exec_miRequest_refused {st : Nat} (hst : s.chip.miCheck pay.length = st) (hne : st ≠ cstOk) :
    exec (.miRequest tag pay) s = .next { s with chip := { s.chip.wakeSee .mi with resp := ⟨0, st⟩ } } :=
  exec_miRequest hst (if_neg hne)

end

/-- A request of the host engine or the management endpoint that finds a slot is pending at once (R238). -/
theorem Chip.mbxHost_pends {c : Chip} {i : Nat} (hfree : (c.pair 1).freeFor true = some i) (src kind tag fn : Nat) (pay : List Byte) :
    (c.mbxHost src kind tag fn pay).2 = (c.updPair 1 (fun x =>
      { x.setSlot i ⟨2, src, true, c.mbxMessage src 1 kind tag fn pay⟩ with queue := x.queue ++ [i] })).raise0 277 := by
  rw [Chip.mbxHost, hfree]

/-! The commands. -/

section
variable {s : State} {d : Chip} {w p : Nat}

theorem exec_wpCommit (h : s.chip.wpCommit w = d) : exec (.wpCommit w) s = .next { s with chip := d } := h ▸ rfl

theorem exec_wpCommitDone (h : s.chip.wpCommitted s.mem.sram p = d) : exec (.wpCommitDone p) s = .next { s with chip := d } := h ▸ rfl

theorem exec_mbxPop (h : s.chip.mbxPop w = d) : exec (.mbxPop w) s = .next { s with chip := d } := h ▸ rfl

theorem exec_mbxPost (h : s.chip.mbxPost w = d) : exec (.mbxPost w) s = .next { s with chip := d } := h ▸ rfl

end

/-- Settles O18: each command is one equation under its conditions, read off the checks in the order of R39. -/
theorem wardenPairsAndMailboxes : Obligations.WardenPairsAndMailboxes := by
  refine ⟨fun s w p i rest => ?_, fun s w i tag pay hw hfenced => ?_⟩
  · intro c x y target old
    refine ⟨fun hact hidle hgen => ?_, fun hstandby => ⟨?_, ?_⟩, fun hact hq hp => ?_, fun hrun => ?_⟩
    · exact exec_wpCommit (Chip.wpCommit_runs hact hidle hgen)
    · exact exec_wpCommit (Chip.wpCommit_standby hstandby)
    · exact exec_mbxPop (Chip.mbxPop_standby hstandby)
    · have hpair : (c.updPair (w / 2) (fun x => x.popped w i rest)).pair (w / 2) = x.popped w i rest := Chip.pair_updPair_self hp _
      refine ⟨_, exec_mbxPop (Chip.mbxPop_takes hact hq), congrArg Pair.queue hpair, congrArg Pair.taken hpair, ?_,
        fun q hq => Chip.pair_updPair_ne hq .., rfl, rfl, rfl⟩
      exact (congrArg (fun z => Pair.slot z i) hpair).trans (Pair.slot_setSlot_self ..)
    · exact exec_wpCommitDone (Chip.wpCommitted_ends hrun _)
  · intro c b le dst len stops msg
    have hstops {st : Nat} (hst : c.postCheck w dst len = st) (hne : st ≠ cstOk) : stops st :=
      exec_mbxPost (Chip.mbxPost_refused hfenced hst hne)
    refine ⟨fun hz => hstops (Chip.postCheck_zero hz) (by decide), fun h hbad => hstops (Chip.postCheck_bad h hbad) (by decide),
      fun h hlen hdst hfull => hstops (Chip.postCheck_full h hlen hdst hfull) (by decide), fun h hlen hdst hfree halive => ?_, ?_⟩
    · exact exec_mbxPost (Chip.mbxPost_held hfenced (Chip.postCheck_ok h hlen hdst hfree halive) hdst hfree)
    · intro answers sent
      refine ⟨fun hz => exec_miRequest_refused (Chip.miCheck_zero hz) (by decide),
        fun hlong => exec_miRequest_refused (Chip.miCheck_long hlong) (by decide),
        fun h hlen hfull => exec_miRequest_refused (Chip.miCheck_full h hlen hfull) (by decide), fun h hlen hfree halive => ?_⟩
      exact exec_miRequest (Chip.miCheck_ok h hlen hfree halive) ((if_pos rfl).trans (Chip.mbxHost_pends hfree ..))

end Sys2Proof.Machine
end

section
/-! SUPPORT. The failover of a warden pair, and the check of a signed image (R235-R237, R242, R243). -/

namespace Sys2Proof.Machine

/-! A raise leaves the Kerf cores and the wardens alone. -/

theorem Chip.kerf_raise (c : Chip) (e code fn a0 a1 : Nat) : (c.raise e code fn a0 a1).kerf = c.kerf := by
  obtain ⟨o, r, t, n, h, -⟩ := Chip.raise_frame c e code fn a0 a1
  rw [h]

theorem Chip.pair_raise0 (c : Chip) (e p : Nat) : (c.raise0 e).pair p = c.pair p := by rw [Chip.pair, Chip.raise0, Chip.kerf_raise, Chip.pair]

/-! Why a core is declared failed (R235). -/

section
variable {c : Chip} {w : Nat} {check : Bool}

theorem Chip.failCause_none (hlate : ¬ c.fld (Reg.krfWpHb (w / 2)) 3 0 ≤ c.missed w) (hd : (c.warden w).doubleTrap = false) :
    c.failCause w false = 0 := (if_neg hlate).trans (if_neg (Bool.eq_false_iff.mp hd))

/-- With a reason, the self-check is the cause where neither the heartbeats nor a double trap are. -/
theorem Chip.failCause_some (h : c.fld (Reg.krfWpHb (w / 2)) 3 0 ≤ c.missed w ∨ (c.warden w).doubleTrap = true ∨ check = true) :
    c.failCause w check =
      if c.fld (Reg.krfWpHb (w / 2)) 3 0 ≤ c.missed w then 1 else if (c.warden w).doubleTrap = true then 2 else 3 := by
  unfold Chip.failCause
  by_cases hlate : c.fld (Reg.krfWpHb (w / 2)) 3 0 ≤ c.missed w
  · rw [if_pos hlate, if_pos hlate]
  · by_cases hd : (c.warden w).doubleTrap = true
    · rw [if_neg hlate, if_neg hlate, if_pos hd, if_pos hd]
    · rw [if_neg hlate, if_neg hlate, if_neg hd, if_neg hd, if_pos ((h.resolve_left hlate).resolve_left hd)]

theorem Chip.failCause_ne_zero (h : c.fld (Reg.krfWpHb (w / 2)) 3 0 ≤ c.missed w ∨ (c.warden w).doubleTrap = true ∨ check = true) :
    c.failCause w check ≠ 0 := by
  rw [Chip.failCause_some h]
  split_ifs <;> decide

end

/-! The declaration (R235-R237). -/

/-- Core `w` is fenced and named in KRF_WP_FAIL, and event 327 is raised. -/
def Chip.failNoted (c : Chip) (w cause : Nat) : Chip :=
  ((c.setWarden w { c.warden w with fenced := true }).setReg (Reg.krfWpFail (w / 2))
    (satTo 255 (c.fld (Reg.krfWpFail (w / 2)) 31 24 + 1) * 2 ^ 24 + (40 + w) * 256 + cause)).raise 327 (40 + w) 0xFFFF 0 0

/-- The other core of the pair. -/
def twinOf (w : Nat) : Nat := w / 2 * 2 + (1 - w % 2)

section
variable {s : State} {w cause : Nat} {check : Bool}

theorem wardenFail_hold (h : ((s.chip.failNoted w cause).warden (twinOf w)).fenced = true) :
    wardenFail w cause s = { s with chip := (s.chip.failNoted w cause).enterHold 8 } := if_pos h

/-- With the twin in service, the standby takes over from an active core. -/
theorem wardenFail_twin (h : ((s.chip.failNoted w cause).warden (twinOf w)).fenced = false) : wardenFail w cause s =
    if ((s.chip.failNoted w cause).pair (w / 2)).active = w % 2 then takeOver w { s with chip := s.chip.failNoted w cause }
    else { s with chip := s.chip.failNoted w cause } := if_neg (Bool.eq_false_iff.mp h)

theorem exec_wardenCoreFail (hw : w < 8) (hfree : (s.chip.warden w).fenced = false) (hcause : s.chip.failCause w check = cause) :
    exec (.wardenCoreFail w check) s = .next (if cause = 0 then s else wardenFail w cause s) := by
  subst hcause
  refine next_congr ?_
  simp [hfree, not_le.mpr hw]

theorem exec_wardenCoreFail_none (hw : w < 8) (hfree : (s.chip.warden w).fenced = false) (hcause : s.chip.failCause w check = 0) :
    exec (.wardenCoreFail w check) s = .next s := by
  rw [exec_wardenCoreFail hw hfree hcause, if_pos rfl]

theorem exec_wardenCoreFail_fails (hw : w < 8) (hfree : (s.chip.warden w).fenced = false) (hcause : s.chip.failCause w check = cause)
    (hne : cause ≠ 0) : exec (.wardenCoreFail w check) s = .next (wardenFail w cause s) := by
  rw [exec_wardenCoreFail hw hfree hcause, if_neg hne]

end

/-! The takeover (R236). -/

theorem Chip.length_pairs_updPair (c : Chip) (p : Nat) (g : Pair → Pair) : (c.updPair p g).kerf.pairs.length = c.kerf.pairs.length := by
  rw [Chip.updPair, updateAt_eq_set _ _ _ Pair.fresh, List.length_set]

/-- A discarded post's slot is free. -/
def Chip.dropPost (c : Chip) (h : HeldPost) : Chip :=
  match h.slot with
  | some i => c.updPair h.dst (fun x => x.setSlot i MbxSlot.free)
  | none => c

theorem Chip.length_pairs_dropPost (c : Chip) (h : HeldPost) : (c.dropPost h).kerf.pairs.length = c.kerf.pairs.length := by
  unfold Chip.dropPost
  cases h.slot
  · rfl
  · exact Chip.length_pairs_updPair ..

theorem Chip.length_pairs_dropPosts (c : Chip) (w : Nat) : (c.dropPosts w).kerf.pairs.length = c.kerf.pairs.length := by
  have hfold (l : List HeldPost) : ∀ d : Chip, (l.foldl Chip.dropPost d).kerf.pairs.length = d.kerf.pairs.length := by
    induction l with
    | nil => exact fun _ => rfl
    | cons h l ih => exact fun d => (ih _).trans (Chip.length_pairs_dropPost d h)
  exact hfold _ c

/-- What a takeover from core `w` makes of its pair. -/
def Pair.takenOver (x : Pair) (w : Nat) : Pair :=
  { x.returnTaken with
    committing := false
    active := 1 - w % 2
    gen := (x.best.map (·.gen)).getD 0 }

theorem takeOver_pair {w : Nat} {s : State} (hp : w / 2 < s.chip.kerf.pairs.length) :
    (takeOver w s).chip.pair (w / 2) = ((s.chip.dropPosts w).pair (w / 2)).takenOver w := by
  rw [← Chip.length_pairs_dropPosts s.chip w] at hp
  exact (Chip.pair_raise0 ..).trans (Chip.pair_updPair_self hp (fun x => x.takenOver w))

/-! Signed images (R242, R243). -/

/-- A field of an envelope. -/
def envField (b : List Byte) (o n : Nat) : Nat := leNat (sliceBytes b o n)

/-- The fields are as the envelope says (R242). -/
def EnvelopeGood (b : List Byte) : Prop :=
  envField b 0 4 = 0x564E454B ∧ envField b 4 2 = 1 ∧ envField b 8 4 = 8224 ∧ (∀ x ∈ sliceBytes b 0x10 16, x = 0) ∧ envField b 6 2 ≤ 3

/-- The envelope's anchor is programmed and verifies the signature (R243). -/
def EnvelopeSigned (f : Fuses) (b : List Byte) : Prop :=
  f.anchor (envField b 6 2) ≠ [] ∧
    Config.ecdsaOk (f.anchor (envField b 6 2)) (Config.sha384 (sliceBytes b 0 0x2040)) (sliceBytes b 0x2040 96) = true

section
variable {f : Fuses} {b : List Byte}

theorem envelopeGood_iff : EnvelopeGood b ↔ ¬ (envField b 0 4 ≠ 0x564E454B ∨ envField b 4 2 ≠ 1 ∨ envField b 8 4 ≠ 8224 ∨
    (!(sliceBytes b 0x10 16).all (· == 0)) = true ∨ 3 < envField b 6 2) := by
  simp only [EnvelopeGood, not_or, not_not, not_lt, Bool.not_eq_true', Bool.not_eq_false, List.all_eq_true, beq_iff_eq, ne_eq]

theorem envelopeSigned_iff : EnvelopeSigned f b ↔ ¬ ((decide (f.anchor (envField b 6 2) = []) ||
    !Config.ecdsaOk (f.anchor (envField b 6 2)) (Config.sha384 (sliceBytes b 0 0x2040)) (sliceBytes b 0x2040 96)) = true) := by
  simp only [EnvelopeSigned, Bool.or_eq_true, not_or, decide_eq_true_eq, Bool.not_eq_true', Bool.not_eq_false, ne_eq]

theorem envelopeCheck_bad (h : ¬ EnvelopeGood b) : envelopeCheck f b = cstBad := if_pos (not_not.mp (mt envelopeGood_iff.mpr h))

theorem envelopeCheck_unsigned (h : EnvelopeGood b) (hs : ¬ EnvelopeSigned f b) : envelopeCheck f b = 0x80 :=
  (if_neg (envelopeGood_iff.mp h)).trans (if_pos (not_not.mp (mt envelopeSigned_iff.mpr hs)))

/-- A verified envelope: its version number decides (R243). -/
theorem envelopeCheck_signed (h : EnvelopeGood b) (hs : EnvelopeSigned f b) :
    envelopeCheck f b = if envField b 12 4 < f.svn.getD (envField b 6 2) 0 then 0x81 else cstOk :=
  (if_neg (envelopeGood_iff.mp h)).trans (if_neg (envelopeSigned_iff.mp hs))

end

/-- The bytes of an image and its envelope in DRAM, by their address in control space. -/
def State.envelopeAt (s : State) (addr : Nat) : List Byte := Mem.readBytes s.mem.dram (addr - 0x40000000) 8352

/-- The status of IMAGE_ENVELOPE_CHECK. -/
def State.imageCheck (s : State) (addr : Nat) : Nat :=
  if addr % 8 ≠ 0 ∨ addr < 0x40000000 ∨ 0x80000000 < addr + 8352 then cstBad else envelopeCheck s.fuse (s.envelopeAt addr)

section
variable {s : State} {addr : Nat}

theorem State.imageCheck_inDram (hal : addr % 8 = 0) (hlo : 0x40000000 ≤ addr) (hhi : addr + 8352 ≤ 0x80000000) :
    s.imageCheck addr = envelopeCheck s.fuse (s.envelopeAt addr) := if_neg (by omega)

theorem exec_imageEnvelopeCheck {st : Nat} {d : Chip} (hst : s.imageCheck addr = st)
    (hd : (if st = cstOk then s.chip.setReg Reg.krfLoadAddr (addr + 0x20) else s.chip) = d) :
    exec (.imageEnvelopeCheck addr) s = .next { s with chip := { d with resp := ⟨0, st⟩ } } := by
  subst hst hd
  rfl

theorem exec_imageEnvelopeCheck_refused {st : Nat} (hst : s.imageCheck addr = st) (hne : st ≠ cstOk) :
    exec (.imageEnvelopeCheck addr) s = .next { s with chip := { s.chip with resp := ⟨0, st⟩ } } := exec_imageEnvelopeCheck hst (if_neg hne)

theorem exec_imageEnvelopeCheck_passes (hst : s.imageCheck addr = cstOk) : exec (.imageEnvelopeCheck addr) s =
    .next { s with chip := { s.chip.setReg Reg.krfLoadAddr (addr + 0x20) with resp := ⟨0, cstOk⟩ } } :=
  exec_imageEnvelopeCheck hst (if_pos rfl)

end

/-- Settles O19: the cause decides whether a core fails, and its twin and its place in the pair what follows; an envelope ends at the first check that
fails. -/
theorem wardenFailoverAndImages : Obligations.WardenFailoverAndImages := by
  refine ⟨fun s w check hw hfree => ?_, fun s addr => ?_⟩
  · intro c late cause noted other
    refine ⟨fun hlate hd hcheck => ?_, fun hwhy => ?_⟩
    · subst hcheck
      exact exec_wardenCoreFail_none hw hfree (Chip.failCause_none hlate hd)
    · have hcause : c.failCause w check = cause := Chip.failCause_some hwhy
      rw [exec_wardenCoreFail_fails hw hfree hcause (hcause ▸ Chip.failCause_ne_zero hwhy)]
      refine ⟨fun htwin => next_congr (wardenFail_hold htwin), fun htwin hpair => next_congr ((wardenFail_twin htwin).trans (if_neg hpair)),
        fun htwin hpair hp => ?_⟩
      have hover := takeOver_pair (w := w) (s := { s with chip := noted }) hp
      exact ⟨_, next_congr ((wardenFail_twin htwin).trans (if_pos hpair)), rfl, congrArg Pair.active hover, congrArg Pair.committing hover,
        congrArg Pair.taken hover, congrArg Pair.queue hover, rfl⟩
  · intro c b le a good signed told answers checked
    refine ⟨fun hplace => exec_imageEnvelopeCheck_refused (if_pos hplace) (by decide), fun hal hlo hhi => ?_⟩
    have hcheck := State.imageCheck_inDram (s := s) hal hlo hhi
    refine ⟨fun hbad => exec_imageEnvelopeCheck_refused (hcheck.trans (envelopeCheck_bad hbad)) (by decide), fun hgood => ?_⟩
    by_cases hsig : signed
    · have hversion := hcheck.trans (envelopeCheck_signed hgood hsig)
      by_cases hold : le 12 4 < s.fuse.svn.getD (le 6 2) 0
      · have hst : checked = told c 0x81 := (if_neg (not_not.mpr hsig)).trans (if_pos hold)
        rw [hst]
        exact exec_imageEnvelopeCheck_refused (hversion.trans (if_pos hold)) (by decide)
      · have hst : checked = told (c.setReg Reg.krfLoadAddr (addr + 0x20)) 0x00 := (if_neg (not_not.mpr hsig)).trans (if_neg hold)
        rw [hst]
        exact exec_imageEnvelopeCheck_passes (hversion.trans (if_neg hold))
    · have hst : checked = told c 0x80 := if_pos hsig
      rw [hst]
      exact exec_imageEnvelopeCheck_refused (hcheck.trans (envelopeCheck_unsigned hgood hsig)) (by decide)

end Sys2Proof.Machine
end

section
/-! SUPPORT. Commands of a function in service: what WP1 answers to an admin command, and what an I/O command comes to (R283, R303, R305, R377). -/

namespace Sys2Proof.Machine

/-! An outcome, by what leaves its controller. -/

section
variable {s : State} {o : Host.Outcome State Fault Refusal} {d d' : Chip}

theorem adminDone_of_eq (ho : o = .next (adminDone s d)) (hd : d = d') : o = .next (adminDone s d') := hd ▸ ho

theorem goesOn_of_eq (ho : o = .next (goesOn s d)) (hd : d = d') : o = .next (goesOn s d') := hd ▸ ho

end

/-! Admin commands. -/

section
variable {s : State} {cmd : Cmd} {f : State → Chip → Chip} {d : Chip}

/-- WP1 has the command in hand. -/
def State.takes (s : State) (cmd : Cmd) : State := { s with chip := s.chip.taken cmd }

theorem adminOp_ready (h : AdminReady s cmd) (g : State → State) : adminOp cmd g s = flushDlog (g (s.takes cmd)) := by
  obtain ⟨hphase, hflush, -⟩ := h
  exact if_pos ⟨hphase, hflush⟩

theorem adminChip_next (h : AdminReady s cmd) (hd : f (s.takes cmd) (s.chip.taken cmd) = d) : adminChip cmd f s = .next (adminDone s d) := by
  subst hd
  exact next_congr (adminOp_ready h _)

theorem admin_next (h : AdminReady s cmd) (hd : f (s.takes cmd) (s.chip.taken cmd) = d) : admin cmd f s = .next (adminDone s d) := by
  have hserves : ¬ lifecycleRefuses (s.takes cmd) = true := Bool.eq_false_iff.mp h.2.2
  exact adminChip_next h ((if_neg hserves).trans hd)

theorem adminItems_next (h : AdminReady s cmd) (hd : f (s.takes cmd) (s.chip.taken cmd) = d) : adminItems cmd f s = .next (goesOn s d) := by
  subst hd
  exact admin_next h rfl

end

/-! I/O commands. -/

section
variable {s : State} {cmd : Cmd} {stops : State → List (Option (NStat × Nat))} {nsx lba : Nat} {run : State → Chip → Chip}

theorem ioOp_stopped (hphase : (s.chip.func cmd.fn).phase = .enabled) (hflush : s.chip.pmu.flush = none) {st : NStat} {d : Nat}
    (hstop : (ioStop s :: stops s).findSome? id = some (st, d)) :
    ioOp cmd stops nsx lba run s = .next (goesOn s (s.chip.complete cmd st d 0)) := by
  refine next_congr (congrArg (goesOn s) ?_)
  simp [hphase, hflush, hstop]

theorem ioOp_defers (hphase : (s.chip.func cmd.fn).phase = .enabled) (hflush : s.chip.pmu.flush = none)
    (hstop : (ioStop s :: stops s).findSome? id = none) {d : Chip} (hdef : s.chip.deferred cmd nsx lba = some d) :
    ioOp cmd stops nsx lba run s = .next (goesOn s d) := by
  refine next_congr (congrArg (goesOn s) ?_)
  simp [hphase, hflush, hstop, hdef]

theorem ioOp_runs (hphase : (s.chip.func cmd.fn).phase = .enabled) (hflush : s.chip.pmu.flush = none)
    (hstop : (ioStop s :: stops s).findSome? id = none) (hdef : s.chip.deferred cmd nsx lba = none) {d : Chip} (hrun : run s s.chip = d) :
    ioOp cmd stops nsx lba run s = .next (goesOn s d) := by
  subst hrun
  refine next_congr (congrArg (goesOn s) ?_)
  simp [hphase, hflush, hstop, hdef]

end

/-! What stops every I/O command (R377, R466). -/

section
variable {s : State}

theorem lifecycleRefuses_iff : lifecycleRefuses s = true ↔ s.fuse.lifecycle = .blank ∨ s.fuse.lifecycle = .retired := by
  simp only [lifecycleRefuses, Bool.or_eq_true, beq_iff_eq]

theorem ioStop_refused (h : s.fuse.lifecycle = .blank ∨ s.fuse.lifecycle = .retired) : ioStop s = some (⟨0, 0x15, true⟩, 0x11) :=
  if_pos (lifecycleRefuses_iff.mpr h)

theorem ioStop_admitted (hblank : s.fuse.lifecycle ≠ .blank) (hretired : s.fuse.lifecycle ≠ .retired) :
    ioStop s = if s.chip.inHold then some (⟨0, 0x82, true⟩, 0) else none :=
  if_neg (fun h => (lifecycleRefuses_iff.mp h).elim hblank hretired)

end

/-! What stops an I/O command on a namespace (R283, R287). -/

section
variable {s : State} {cmd : Cmd} {nsid psdt : Nat} {zoned : Option Bool} {n : Ns}

theorem nsStop_absent (h : s.chip.ns (nsxOf nsid) = none ∨ nsid = 0) : nsStop s cmd nsid psdt zoned = some (⟨0, 0x0B, true⟩, 0) := by
  unfold nsStop
  cases hns : s.chip.ns (nsxOf nsid) with
  | none => rfl
  | some n => exact if_pos (Or.inl (h.resolve_left (hns ▸ Option.some_ne_none n)))

variable (hns : s.chip.ns (nsxOf nsid) = some n) (hid : nsid ≠ 0)
include hns

theorem nsStop_foreign (howner : n.owner ≠ some cmd.fn) (hstandby : n.standby ≠ some cmd.fn) :
    nsStop s cmd nsid psdt zoned = some (⟨0, 0x0B, true⟩, 0) := by
  unfold nsStop
  rw [hns]
  exact if_pos (Or.inr ⟨howner, hstandby⟩)

include hid

/-- A command of both command sets, from a function to which the namespace is attached. -/
theorem nsStop_attached (hmine : n.owner = some cmd.fn ∨ n.standby = some cmd.fn) : nsStop s cmd nsid psdt none =
    if psdt ≠ 0 then some (⟨0, 0x02, true⟩, 0)
    else if n.move.isSome then some (⟨3, 0x03, false⟩, 0)
    else if n.owner ≠ some cmd.fn then some (⟨3, 0x02, false⟩, 0)
    else if s.chip.sanitizing then some (stSanitize, 0)
    else if s.chip.sanitizeFailed then some (stSanitizeFailed, 0)
    else if s.chip.formatting (nsxOf nsid) then some (stFormat, 0)
    else none := by
  unfold nsStop
  rw [hns]
  refine (if_neg ?_).trans (if_neg Bool.false_ne_true)
  rintro (hzero | ⟨howner, hstandby⟩)
  · exact hid hzero
  · exact hmine.elim howner hstandby

end

end Sys2Proof.Machine
end

section
/-! SUPPORT. I/O commands: what stops a read, a write that is taken, and the extents that tile a transfer (R192, R287-R289, R292, R303, R306). -/

namespace Sys2Proof.Machine

/-! What stops a transfer on its addresses (R287, R292). -/

section
variable {n : Ns} {lba k : Nat}

theorem rangeStop_long (h : 512 < k) : rangeStop n lba k = some (⟨0, 0x02, true⟩, 0) := if_pos h

theorem rangeStop_outside (hk : k ≤ 512) (h : n.size < lba + k) : rangeStop n lba k = some (⟨0, 0x80, true⟩, 0) :=
  (if_neg (not_lt.mpr hk)).trans (if_pos h)

theorem rangeStop_within (hk : k ≤ 512) (h : lba + k ≤ n.size) : rangeStop n lba k = none :=
  (if_neg (not_lt.mpr hk)).trans (if_neg (not_lt.mpr h))

theorem Ns.crosses_iff {cap : Nat} : n.crosses lba k cap = true ↔ n.zoned = true ∧ cap < lba % Nat.max 1 n.zsze + k := by
  simp only [Ns.crosses, Bool.and_eq_true, decide_eq_true_eq]

variable {s : State} {nsid : Nat} (hns : s.chip.ns (nsxOf nsid) = some n)
include hns

theorem readStop_range {x : NStat × Nat} (h : rangeStop n lba k = some x) : readStop s nsid lba k = some x := by
  simp only [readStop, hns, h]

theorem readStop_within (hk : k ≤ 512) (h : lba + k ≤ n.size) :
    readStop s nsid lba k = if n.crosses lba k n.zsze then some (stZoneBoundary, 0) else none := by
  simp only [readStop, hns, rangeStop_within hk h]

theorem writeStop_conventional {dtype dspec : Nat} (hk : k ≤ 512) (h : lba + k ≤ n.size) (hz : n.zoned = false)
    (hdir : dtype = 0 ∨ (dtype = 2 ∧ dspec < n.handles.length)) : writeStop s nsid lba k dtype dspec = none := by
  simp only [writeStop, hns, rangeStop_within hk h, hz, Bool.false_eq_true, if_false]
  rcases hdir with rfl | ⟨rfl, hspec⟩
  · rfl
  · simp [hspec]

theorem writeStop_zoned {dtype dspec : Nat} (hk : k ≤ 512) (h : lba + k ≤ n.size) (hz : n.zoned = true)
    (hfull : s.chip.zoneState (nsxOf nsid) (lba / Nat.max 1 n.zsze) (n.zone (lba / Nat.max 1 n.zsze)) ≠ .full)
    (hcap : lba % Nat.max 1 n.zsze + k ≤ n.zcap) (hnext : lba % Nat.max 1 n.zsze = (n.zone (lba / Nat.max 1 n.zsze)).assigned) :
    writeStop s nsid lba k dtype dspec = none := by
  have hinside : ¬ n.crosses lba k n.zcap = true := fun hcross => not_lt.mpr hcap (Ns.crosses_iff.mp hcross).2
  simp only [writeStop, hns, rangeStop_within hk h, hz, if_true]
  rw [if_neg hfull, if_neg hinside, if_neg (not_not.mpr hnext)]

end

/-! What the commands come to. -/

section
variable {s : State} {cmd : Cmd} {nsid slba nlb psdt : Nat} {n : Ns}

/-- READ and FLUSH end with what stops every command. -/
theorem exec_io_stopped (hphase : (s.chip.func cmd.fn).phase = .enabled) (hflush : s.chip.pmu.flush = none) {st : NStat} {d : Nat}
    (hstop : ioStop s = some (st, d)) : exec (.read cmd nsid slba nlb psdt) s = .next (goesOn s (s.chip.complete cmd st d 0)) ∧
      exec (.flush cmd nsid) s = .next (goesOn s (s.chip.complete cmd st d 0)) := by
  refine ⟨?_, ?_⟩
  · show execRead .. = _
    exact ioOp_stopped hphase hflush (by simp [hstop])
  · show execFlush .. = _
    exact ioOp_stopped hphase hflush (by simp [hstop])

theorem exec_read_nsStopped (hphase : (s.chip.func cmd.fn).phase = .enabled) (hflush : s.chip.pmu.flush = none) (hio : ioStop s = none)
    {st : NStat} {d : Nat} (hstop : nsStop s cmd nsid psdt none = some (st, d)) :
    exec (.read cmd nsid slba nlb psdt) s = .next (goesOn s (s.chip.complete cmd st d 0)) := by
  show execRead .. = _
  exact ioOp_stopped hphase hflush (by simp [hio, hstop])

theorem exec_read_stopped (hphase : (s.chip.func cmd.fn).phase = .enabled) (hflush : s.chip.pmu.flush = none) (hio : ioStop s = none)
    (hnone : nsStop s cmd nsid psdt none = none) {st : NStat} {d : Nat} (hstop : readStop s nsid slba (nlb + 1) = some (st, d)) :
    exec (.read cmd nsid slba nlb psdt) s = .next (goesOn s (s.chip.complete cmd st d 0)) := by
  show execRead .. = _
  exact ioOp_stopped hphase hflush (by simp [hio, hnone, hstop])

/-- A command that meets neither a stop nor a deferred error does what it is for. -/
theorem ioOp_ready {zoned : Option Bool} {lba : Nat} (h : IoReady s cmd nsid psdt zoned lba) {stop : State → Option (NStat × Nat)}
    (hstop : stop s = none) {run : State → Chip → Chip} :
    ioOp cmd (fun s => [nsStop s cmd nsid psdt zoned, stop s]) (nsxOf nsid) lba run s = .next (goesOn s (run s s.chip)) := by
  obtain ⟨hphase, hflush, hio, hnone, hdef⟩ := h
  exact ioOp_runs hphase hflush (by simp [hio, hnone, hstop]) hdef rfl

theorem exec_read (hns : s.chip.ns (nsxOf nsid) = some n) (h : IoReady s cmd nsid psdt none slba) (hk : nlb + 1 ≤ 512)
    (hsize : slba + (nlb + 1) ≤ n.size) (hcross : n.crosses slba (nlb + 1) n.zsze = false) : exec (.read cmd nsid slba nlb psdt) s =
      .next (goesOn s (s.chip.acceptIo s.env cmd false (nsxOf nsid) slba (nlb + 1) (if n.zoned then 0xFFFF else 0) none [])) := by
  show execRead .. = _
  refine (ioOp_ready h (stop := fun s => readStop s nsid slba (nlb + 1)) ?_).trans ?_
  · rw [readStop_within hns hk hsize, hcross]
    rfl
  · rw [hns]
    rfl

theorem exec_write {dtype dspec : Nat} {data : List Sector} (hns : s.chip.ns (nsxOf nsid) = some n) (h : IoReady s cmd nsid psdt none slba)
    (hstop : writeStop s nsid slba (nlb + 1) dtype dspec = none) : exec (.write cmd nsid slba nlb psdt dtype dspec data) s = .next (goesOn s
      (if n.zoned then s.chip.acceptZoned s.env cmd (nsxOf nsid) slba (nlb + 1) false data
       else s.chip.acceptIo s.env cmd true (nsxOf nsid) slba (nlb + 1) (if dtype = 2 then dspec else 0) none data)) := by
  show execWrite .. = _
  refine (ioOp_ready h (stop := fun s => writeStop s nsid slba (nlb + 1) dtype dspec) hstop).trans ?_
  rw [hns]
  rfl

theorem Chip.acceptZoned_opens {c d : Chip} {e : Env} {nsx lba k : Nat} {data : List Sector} (hns : c.ns nsx = some n)
    (hopen : c.openZone nsx (lba / Nat.max 1 n.zsze) .impOpen = .ok d) (append : Bool) : c.acceptZoned e cmd nsx lba k append data =
      (d.updZone nsx (lba / Nat.max 1 n.zsze) (fun y => { y with assigned := lba % Nat.max 1 n.zsze + k })).acceptIo e cmd true nsx lba k 0xFFFF
        (if append then some lba else none) data := by
  simp only [Chip.acceptZoned, hns, hopen]

theorem exec_flush {lba : Nat} (hns : s.chip.ns (nsxOf nsid) = some n) (h : IoReady s cmd nsid 0 none lba) (hlba : lba = n.size) :
    exec (.flush cmd nsid) s = .next (goesOn s (s.chip.complete cmd ⟨0, 0, false⟩ 0 0)) := by
  obtain ⟨hphase, hflush, hio, hnone, hdef⟩ := h
  have hlast : ((s.chip.ns (nsxOf nsid)).map (·.size)).getD 0 = lba := by rw [hns, hlba]; rfl
  show execFlush .. = _
  exact ioOp_runs hphase hflush (by simp [hio, hnone]) (hlast ▸ hdef) rfl

theorem exec_writeZeroes (hns : s.chip.ns (nsxOf nsid) = some n) (h : IoReady s cmd nsid 0 (some false) slba)
    (hsize : slba + (nlb + 1) ≤ n.size) : exec (.writeZeroes cmd nsid slba nlb) s =
      .next (goesOn s ((s.chip.deallocate s.env (nsxOf nsid) slba (nlb + 1)).complete cmd ⟨0, 0, false⟩ 0 0)) := by
  show execWriteZeroes .. = _
  refine ioOp_ready h (stop := fun s => (s.chip.ns (nsxOf nsid)).bind (fun n => if n.size < slba + nlb + 1 then some (stRange, 0) else none)) ?_
  rw [hns]
  exact if_neg (not_lt.mpr hsize)

theorem exec_datasetManagement {ranges : List (Nat × Nat)} (hns : s.chip.ns (nsxOf nsid) = some n)
    (h : IoReady s cmd nsid 0 (some false) (ranges.headD (0, 0)).1) (hsize : ∀ r ∈ ranges, r.1 + r.2 ≤ n.size) :
    exec (.datasetManagement cmd nsid ranges) s = .next (goesOn s
      ((ranges.foldl (fun c r => c.deallocate s.env (nsxOf nsid) r.1 r.2) s.chip).complete cmd ⟨0, 0, false⟩ 0 0)) := by
  show execDatasetManagement .. = _
  refine ioOp_ready h (stop := fun s => (s.chip.ns (nsxOf nsid)).bind
    (fun n => if ranges.any (fun r => decide (n.size < r.1 + r.2)) then some (stRange, 0) else none)) ?_
  rw [hns]
  refine if_neg ?_
  simpa using hsize

/-- A conventional namespace with a lost write of an earlier tick: the command reports it, and the report is counted (R303). -/
theorem Chip.deferred_conventional {c : Chip} {nsx lba : Nat} (hns : c.ns nsx = some n) (hz : n.zoned = false)
    (hlost : ∃ t, n.parityLost = some t ∧ t < c.tick) : c.deferred cmd nsx lba =
      some (((c.updNs nsx (fun n => { n with parityLost := none })).bump Reg.hostDeferCnt 15 0 1).complete cmd ⟨7, 0xC1, false⟩ 0x12 0) := by
  obtain ⟨t, hsome, hpast⟩ := hlost
  have hdue : n.parityLost.any (fun t => decide (t < c.tick)) = true := by simp [hsome, hpast]
  simp only [Chip.deferred, hns, hz, hdue, Bool.false_eq_true, if_false, if_true]
  rfl

theorem exec_read_defers {d : Chip} (hns : s.chip.ns (nsxOf nsid) = some n) (hphase : (s.chip.func cmd.fn).phase = .enabled)
    (hflush : s.chip.pmu.flush = none) (hio : ioStop s = none) (hnone : nsStop s cmd nsid psdt none = none) (hz : n.zoned = false)
    (hk : nlb + 1 ≤ 512) (hsize : slba + (nlb + 1) ≤ n.size) (hdef : s.chip.deferred cmd (nsxOf nsid) slba = some d) :
    exec (.read cmd nsid slba nlb psdt) s = .next (goesOn s d) := by
  have hread : readStop s nsid slba (nlb + 1) = none := by
    rw [readStop_within hns hk hsize, Ns.crosses, hz]
    rfl
  show execRead .. = _
  exact ioOp_defers hphase hflush (by simp [hio, hnone, hread]) hdef

end

/-! Extents (R192). -/

theorem extents_succ {k : Nat} (hk : 0 < k) (fuel lba : Nat) : extents (fuel + 1) lba k =
    (lba, Nat.min k (16 - lba % 16)) :: extents fuel (lba + Nat.min k (16 - lba % 16)) (k - Nat.min k (16 - lba % 16)) :=
  if_neg hk.ne'

/-- The first extent: not empty, within its 16 sectors, and within the transfer. -/
theorem extent_first {lba k m : Nat} (hk : 0 < k) (hm : Nat.min k (16 - lba % 16) = m) : 0 < m ∧ lba % 16 + m ≤ 16 ∧ m ≤ k := by
  have hmin : m = min k (16 - lba % 16) := hm.symm
  omega

theorem extents_sum (fuel : Nat) : ∀ lba k, k ≤ fuel → ((extents fuel lba k).map (fun p => p.2)).sum = k := by
  induction fuel with
  | zero => exact fun lba k hk => (Nat.le_zero.mp hk).symm
  | succ fuel ih =>
    intro lba k hk
    rcases Nat.eq_zero_or_pos k with rfl | hpos
    · rfl
    · rw [extents_succ hpos]
      generalize hm : Nat.min k (16 - lba % 16) = m
      obtain ⟨hm0, -, hmk⟩ := extent_first hpos hm
      rw [List.map_cons, List.sum_cons, ih _ _ (by omega)]
      omega

theorem extents_within (fuel : Nat) : ∀ lba k, ∀ p ∈ extents fuel lba k, 0 < p.2 ∧ p.1 % 16 + p.2 ≤ 16 ∧ lba ≤ p.1 ∧ p.1 + p.2 ≤ lba + k := by
  induction fuel with
  | zero => exact fun lba k p hp => absurd hp List.not_mem_nil
  | succ fuel ih =>
    intro lba k p hp
    rcases Nat.eq_zero_or_pos k with rfl | hpos
    · exact absurd hp List.not_mem_nil
    · rw [extents_succ hpos] at hp
      generalize hm : Nat.min k (16 - lba % 16) = m at hp
      obtain ⟨hm0, hm16, hmk⟩ := extent_first hpos hm
      rcases List.mem_cons.mp hp with rfl | hrest
      · exact ⟨hm0, hm16, le_refl _, by dsimp only; omega⟩
      · obtain ⟨hp0, hp16, hlo, hhi⟩ := ih _ _ p hrest
        exact ⟨hp0, hp16, by omega, by omega⟩

theorem extents_pairwise (fuel : Nat) : ∀ lba k, (extents fuel lba k).Pairwise (fun p q => p.1 + p.2 ≤ q.1) := by
  induction fuel with
  | zero => exact fun lba k => List.Pairwise.nil
  | succ fuel ih =>
    intro lba k
    rcases Nat.eq_zero_or_pos k with rfl | hpos
    · exact List.Pairwise.nil
    · rw [extents_succ hpos]
      refine List.Pairwise.cons (fun q hq => ?_) (ih _ _)
      exact (extents_within _ _ _ q hq).2.2.1

/-- Settles O41: the first stop that holds ends the command; one that meets none reports a deferred error or takes effect; and the extents of a transfer
tile it, by induction on their number. -/
theorem hostCommands : Obligations.HostCommands := by
  refine ⟨fun s cmd nsid slba nlb psdt n hphase hflush => ?_, fun s cmd nsid slba nlb psdt dtype dspec data ranges n d => ?_, fun lba k => ?_⟩
  · intro c ends serves
    have hadmits (hserves : serves) : ioStop s = none := by
      obtain ⟨hblank, hretired, hhold⟩ := hserves
      exact (ioStop_admitted hblank hretired).trans (if_neg (Bool.eq_false_iff.mp hhold))
    refine ⟨fun hlife => exec_io_stopped hphase hflush (ioStop_refused hlife), fun hblank hretired hhold => ?_, fun hserves habsent => ?_,
      fun hserves hns hid => ?_⟩
    · exact exec_io_stopped hphase hflush ((ioStop_admitted hblank hretired).trans (if_pos hhold))
    · exact exec_read_nsStopped hphase hflush (hadmits hserves) (nsStop_absent habsent)
    · have hio := hadmits hserves
      refine ⟨fun howner hstandby => ?_, fun howner hpsdt => ?_, fun howner hpsdt hmove => ?_, fun howner hstandby hpsdt hmove => ?_, fun hnone => ?_⟩
      · exact exec_read_nsStopped hphase hflush hio (nsStop_foreign hns howner hstandby)
      · exact exec_read_nsStopped hphase hflush hio ((nsStop_attached hns hid (.inl howner)).trans (if_pos hpsdt))
      · have hmoves : n.move.isSome = true := Option.isSome_iff_ne_none.mpr hmove
        exact exec_read_nsStopped hphase hflush hio
          ((nsStop_attached hns hid (.inl howner)).trans ((if_neg (not_not.mpr hpsdt)).trans (if_pos hmoves)))
      · have hstays : ¬ n.move.isSome = true := fun h => Option.isSome_iff_ne_none.mp h hmove
        exact exec_read_nsStopped hphase hflush hio
          ((nsStop_attached hns hid (.inr hstandby)).trans ((if_neg (not_not.mpr hpsdt)).trans ((if_neg hstays).trans (if_pos howner))))
      · have hends {x : NStat} (hstop : readStop s nsid slba (nlb + 1) = some (x, 0)) : ends x 0 := exec_read_stopped hphase hflush hio hnone hstop
        refine ⟨fun hlong => hends (readStop_range hns (rangeStop_long hlong)),
          fun hk hout => hends (readStop_range hns (rangeStop_outside hk hout)), fun hk hsize hz hcross => ?_⟩
        exact hends ((readStop_within hns hk hsize).trans (if_pos (Ns.crosses_iff.mpr ⟨hz, hcross⟩)))
  · intro c nsx k z hns
    refine ⟨fun hready hk hsize => ⟨exec_read hns hready hk hsize, fun hz hdir => ?_, fun hz hfull hcap hnext hopen => ?_⟩,
      fun hready => exec_flush hns hready rfl, fun hready hsize => exec_writeZeroes hns hready hsize,
      fun hready hsize => exec_datasetManagement hns hready hsize, fun hz hlost hphase hflush hio hnone hk hsize => ?_⟩
    · rw [exec_write hns hready (writeStop_conventional hns hk hsize hz hdir), hz]
      rfl
    · rw [exec_write hns hready (writeStop_zoned hns hk hsize hz hfull hcap hnext), hz, if_pos rfl, Chip.acceptZoned_opens hns hopen]
      rfl
    · exact exec_read_defers hns hphase hflush hio hnone hz hk hsize (Chip.deferred_conventional hns hz hlost)
  · exact ⟨extents_sum _ _ _ (Nat.le_succ k), extents_within _ _ _, extents_pairwise _ _ _⟩

end Sys2Proof.Machine
end

section
/-! SUPPORT. Admin commands on queues, aborts, asynchronous events, replies and NVMe-MI (R285, R289, R305, R306, R478). -/

namespace Sys2Proof.Machine

/-! Creation of a completion queue (R285, R478). -/

theorem any_qid_cqs {cqs : List CQ} {q : Nat} : cqs.any (fun k => k.qid == q) = true ↔ ∃ k ∈ cqs, k.qid = q := by simp

theorem any_qid_sqs {sqs : List SQ} {q : Nat} : sqs.any (fun k => k.qid == q) = true ↔ ∃ k ∈ sqs, k.qid = q := by simp

theorem any_cqid_sqs {sqs : List SQ} {q : Nat} : sqs.any (fun k => k.cqid == q) = true ↔ ∃ k ∈ sqs, k.cqid = q := by simp

section
variable {s : State} {cmd : Cmd} {qid size iv cqid prio : Nat} {ien contiguous : Bool}

/-- What a creation of a completion queue answers to a command that names no queue in use. -/
def Chip.cqCreated (c : Chip) (cmd : Cmd) (qid size iv : Nat) (ien contiguous : Bool) : Chip :=
  if c.queueLimit (c.func cmd.fn).feat.ncq < qid then c.reply cmd ⟨1, 0x01, true⟩ 0x03 0
  else if size = 0 ∨ 4095 < size then c.reply cmd ⟨1, 0x02, true⟩ 0 0
  else if !contiguous then c.reply cmd ⟨0, 0x02, true⟩ 0 0
  else if 1024 ≤ iv ∨ ((c.func cmd.fn).vf ≠ 0 ∧ 64 ≤ iv) then c.reply cmd ⟨1, 0x08, true⟩ 0 0
  else (c.setFn cmd.fn { c.func cmd.fn with cqs := (c.func cmd.fn).cqs ++ [CQ.mk qid (size + 1) 0 iv ien []] }).reply cmd ⟨0, 0, false⟩ 0 0

theorem exec_createIoCq_inUse (h : AdminReady s cmd) (hbad : qid = 0 ∨ ∃ k ∈ (s.chip.func cmd.fn).cqs, k.qid = qid) :
    exec (.createIoCq cmd qid size iv ien contiguous) s = .next (adminDone s ((s.chip.taken cmd).reply cmd ⟨1, 0x01, true⟩ 0 0)) := by
  show execCreateIoCq .. = _
  exact admin_next h (if_pos (hbad.imp_right any_qid_cqs.mpr))

theorem exec_createIoCq (h : AdminReady s cmd) (hid : qid ≠ 0) (hfree : ¬ ∃ k ∈ (s.chip.func cmd.fn).cqs, k.qid = qid) :
    exec (.createIoCq cmd qid size iv ien contiguous) s = .next (adminDone s ((s.chip.taken cmd).cqCreated cmd qid size iv ien contiguous)) := by
  show execCreateIoCq .. = _
  exact admin_next h (if_neg (not_or.mpr ⟨hid, mt any_qid_cqs.mp hfree⟩))

variable {c : Chip}

theorem Chip.cqCreated_limit (h : c.queueLimit (c.func cmd.fn).feat.ncq < qid) :
    c.cqCreated cmd qid size iv ien contiguous = c.reply cmd ⟨1, 0x01, true⟩ 0x03 0 := if_pos h

theorem Chip.cqCreated_size (h : qid ≤ c.queueLimit (c.func cmd.fn).feat.ncq) (hsize : size = 0 ∨ 4095 < size) :
    c.cqCreated cmd qid size iv ien contiguous = c.reply cmd ⟨1, 0x02, true⟩ 0 0 := (if_neg (not_lt.mpr h)).trans (if_pos hsize)

theorem Chip.cqCreated_scattered (h : qid ≤ c.queueLimit (c.func cmd.fn).feat.ncq) (hsize : ¬ (size = 0 ∨ 4095 < size)) :
    c.cqCreated cmd qid size iv ien false = c.reply cmd ⟨0, 0x02, true⟩ 0 0 := (if_neg (not_lt.mpr h)).trans ((if_neg hsize).trans (if_pos rfl))

theorem Chip.cqCreated_contiguous (h : qid ≤ c.queueLimit (c.func cmd.fn).feat.ncq) (hsize : ¬ (size = 0 ∨ 4095 < size)) :
    c.cqCreated cmd qid size iv ien true = if 1024 ≤ iv ∨ ((c.func cmd.fn).vf ≠ 0 ∧ 64 ≤ iv) then c.reply cmd ⟨1, 0x08, true⟩ 0 0
      else (c.setFn cmd.fn { c.func cmd.fn with cqs := (c.func cmd.fn).cqs ++ [CQ.mk qid (size + 1) 0 iv ien []] }).reply cmd ⟨0, 0, false⟩ 0 0 :=
  (if_neg (not_lt.mpr h)).trans ((if_neg hsize).trans (if_neg Bool.false_ne_true))

end

/-! The other commands on queues (R285, R306). -/

section
variable {s : State} {cmd : Cmd} {qid size cqid prio : Nat}

theorem exec_createIoSq_noCq (h : AdminReady s cmd) (hbad : cqid = 0 ∨ ¬ ∃ k ∈ (s.chip.func cmd.fn).cqs, k.qid = cqid) (contiguous : Bool) :
    exec (.createIoSq cmd qid size cqid prio contiguous) s = .next (adminDone s ((s.chip.taken cmd).reply cmd ⟨1, 0x00, true⟩ 0 0)) := by
  have hnone : cqid = 0 ∨ (!(s.chip.func cmd.fn).cqs.any (fun k => k.qid == cqid)) = true := by
    rwa [Bool.not_eq_true', Bool.eq_false_iff, Ne, any_qid_cqs]
  show execCreateIoSq .. = _
  exact admin_next h (if_pos hnone)

theorem exec_createIoSq (h : AdminReady s cmd) (hcqid : cqid ≠ 0) (hcq : ∃ k ∈ (s.chip.func cmd.fn).cqs, k.qid = cqid) (hid : qid ≠ 0)
    (hfree : ¬ ∃ k ∈ (s.chip.func cmd.fn).sqs, k.qid = qid) (hlimit : qid ≤ s.chip.queueLimit (s.chip.func cmd.fn).feat.nsq) (hsize : size ≠ 0)
    (hmax : size ≤ 4095) : exec (.createIoSq cmd qid size cqid prio true) s = .next (adminDone s
      (((s.chip.taken cmd).setFn cmd.fn { s.chip.func cmd.fn with
        sqs := (s.chip.func cmd.fn).sqs ++ [SQ.mk qid (size + 1) 0 0 cqid (prio % 4)] }).reply cmd ⟨0, 0, false⟩ 0 0)) := by
  have hthere : ¬ (cqid = 0 ∨ (!(s.chip.func cmd.fn).cqs.any (fun k => k.qid == cqid)) = true) := by
    rw [any_qid_cqs.mpr hcq]
    exact not_or.mpr ⟨hcqid, Bool.false_ne_true⟩
  have hfresh : ¬ (qid = 0 ∨ (s.chip.func cmd.fn).sqs.any (fun k => k.qid == qid) = true) := not_or.mpr ⟨hid, mt any_qid_sqs.mp hfree⟩
  have hfits : ¬ (size = 0 ∨ 4095 < size) := not_or.mpr ⟨hsize, not_lt.mpr hmax⟩
  show execCreateIoSq .. = _
  exact admin_next h ((if_neg hthere).trans ((if_neg hfresh).trans ((if_neg (not_lt.mpr hlimit)).trans ((if_neg hfits).trans
    (if_neg Bool.false_ne_true)))))

theorem exec_deleteIoCq_absent (h : AdminReady s cmd) (hbad : qid = 0 ∨ ¬ ∃ k ∈ (s.chip.func cmd.fn).cqs, k.qid = qid) :
    exec (.deleteIoCq cmd qid) s = .next (adminDone s ((s.chip.taken cmd).reply cmd ⟨1, 0x01, true⟩ 0 0)) := by
  have hnone : qid = 0 ∨ (!(s.chip.func cmd.fn).cqs.any (fun k => k.qid == qid)) = true := by
    rwa [Bool.not_eq_true', Bool.eq_false_iff, Ne, any_qid_cqs]
  show execDeleteIoCq .. = _
  exact admin_next h (if_pos hnone)

/-- A completion queue that exists is deleted unless a submission queue uses it. -/
theorem exec_deleteIoCq (h : AdminReady s cmd) (hid : qid ≠ 0) (hcq : ∃ k ∈ (s.chip.func cmd.fn).cqs, k.qid = qid) :
    exec (.deleteIoCq cmd qid) s = .next (adminDone s
      (if (s.chip.func cmd.fn).sqs.any (fun k => k.cqid == qid) then (s.chip.taken cmd).reply cmd ⟨1, 0x0C, true⟩ 0 0
       else ((s.chip.taken cmd).setFn cmd.fn { s.chip.func cmd.fn with
        cqs := (s.chip.func cmd.fn).cqs.filter (fun k => k.qid != qid) }).reply cmd ⟨0, 0, false⟩ 0 0)) := by
  have hthere : ¬ (qid = 0 ∨ (!(s.chip.func cmd.fn).cqs.any (fun k => k.qid == qid)) = true) := by
    rw [any_qid_cqs.mpr hcq]
    exact not_or.mpr ⟨hid, Bool.false_ne_true⟩
  show execDeleteIoCq .. = _
  exact admin_next h (if_neg hthere)

theorem exec_deleteIoSq (h : AdminReady s cmd) (hid : qid ≠ 0) (hsq : ∃ k ∈ (s.chip.func cmd.fn).sqs, k.qid = qid) :
    exec (.deleteIoSq cmd qid) s = .next (goesOn s
      ((((s.chip.taken cmd).dropCmds s.env ⟨0, 0x08, false⟩ (fun p => p.cmd.fn == cmd.fn && p.cmd.sq == qid)
        (fun o => o.cmd.fn == cmd.fn && o.cmd.sq == qid)).updFn cmd.fn (fun x => { x with
          sqs := x.sqs.filter (fun k => k.qid != qid) })).reply cmd ⟨0, 0, false⟩ 0 0)) := by
  have hthere : ¬ (qid = 0 ∨ (!(s.chip.func cmd.fn).sqs.any (fun k => k.qid == qid)) = true) := by
    rw [any_qid_sqs.mpr hsq]
    exact not_or.mpr ⟨hid, Bool.false_ne_true⟩
  show execDeleteIoSq .. = _
  exact adminItems_next h (if_neg hthere)

end

/-! Aborts, events, replies and NVMe-MI (R289, R305, R306). -/

section
variable {s : State} {cmd : Cmd}

/-- The pending command is the one to abort, and none of its items has left the host engine's queue. -/
def Chip.abortable (c : Chip) (victim : Cmd) (p : Pend) : Bool :=
  p.cmd == victim && p.items.all (fun i => (c.item i).all (fun x => x.stage == .waiting))

theorem exec_nvmeAbort (h : AdminReady s cmd) (sq cid : Nat) : exec (.nvmeAbort cmd sq cid) s = .next (goesOn s
    (if s.chip.host.cmds.any (s.chip.abortable ⟨cmd.fn, sq, cid⟩) then
      ((s.chip.taken cmd).dropCmds s.env ⟨0, 0x07, false⟩ (s.chip.abortable ⟨cmd.fn, sq, cid⟩) (fun _ => false)).reply cmd ⟨0, 0, false⟩ 0 0
     else (s.chip.taken cmd).reply cmd ⟨0, 0, false⟩ 1 0)) := by
  show execNvmeAbort .. = _
  exact adminItems_next h rfl

theorem exec_asyncEventRequest (h : AdminReady s cmd) : exec (.asyncEventRequest cmd) s = .next (adminDone s
    (if 4 ≤ (s.chip.func cmd.fn).aers.length then (s.chip.taken cmd).reply cmd ⟨1, 0x05, true⟩ 0 0
     else (({ s.chip.taken cmd with host := { (s.chip.taken cmd).host with admin := (s.chip.taken cmd).host.admin.erase cmd } } : Chip).updFn cmd.fn
      (fun x => { x with aers := x.aers ++ [cmd] })).aerPump cmd.fn 1)) := by
  show execAsyncEventRequest .. = _
  exact admin_next h rfl

theorem exec_adminCompletion_none (hnone : s.chip.host.replies = []) : exec .adminCompletion s = .next (adminDone s s.chip) := by
  show execAdminCompletion s = _
  refine next_congr (congrArg (adminDone s) ?_)
  simp only [hnone]

theorem exec_adminCompletion_posts (hflush : s.chip.pmu.flush = none) {r : Nat × Cqe} {rest : List (Nat × Cqe)}
    (hr : s.chip.host.replies = r :: rest) : exec .adminCompletion s =
      .next (adminDone s (({ s.chip with host := { s.chip.host with replies := rest } } : Chip).postCqe r.1 r.2)) := by
  show execAdminCompletion s = _
  refine next_congr (congrArg (adminDone s) ?_)
  simp only [hr, hflush, Option.isSome_none, Bool.false_eq_true, if_false]

theorem exec_nvmeMiSend (h : AdminReady s cmd) (pay : List Byte) : exec (.nvmeMiSend cmd pay) s =
    .next (adminDone s (((s.chip.taken cmd).wakeSee .mi).reply cmd ⟨0, 0, false⟩ 0 0)) := by
  show execNvmeMiSend cmd pay s = _
  exact admin_next h rfl

theorem exec_nvmeMiReceive (h : AdminReady s cmd) (pay : List Byte) : exec (.nvmeMiReceive cmd pay) s =
    .next (adminDone s ((((s.chip.taken cmd).wakeSee .mi).answerDma cmd.fn pay).reply cmd ⟨0, 0, false⟩ 0 0)) := by
  show execNvmeMiReceive .. = _
  exact admin_next h rfl

end

/-- Settles O43: each queue command ends at the first check that fails, or changes the function's queues; and what an abort, an event request and a
reply come to. -/
theorem queuesAndHousekeeping : Obligations.QueuesAndHousekeeping := by
  refine ⟨fun s cmd qid size iv cqid prio ien h => ?_, fun s cmd sq cid pay r rest h => ?_⟩
  · intro t x ok no hasCq hasSq vector
    refine ⟨exec_createIoCq_inUse h, fun hid hfree hlimit => ?_, fun hid hfree hlimit => ⟨fun hbad => ?_, fun hsize hmax => ?_⟩,
      fun hbad => exec_createIoSq_noCq h hbad true, exec_createIoSq h, exec_deleteIoCq_absent h, fun hid hcq hused => ?_,
      fun hid hcq hunused => ?_, exec_deleteIoSq h⟩
    · exact adminDone_of_eq (exec_createIoCq h hid hfree) (Chip.cqCreated_limit hlimit)
    · exact adminDone_of_eq (exec_createIoCq h hid hfree) (Chip.cqCreated_size hlimit hbad)
    · have hfits : ¬ (size = 0 ∨ 4095 < size) := not_or.mpr ⟨hsize, not_lt.mpr hmax⟩
      have hmade := adminDone_of_eq (exec_createIoCq h hid hfree) (Chip.cqCreated_contiguous (iv := iv) (ien := ien) hlimit hfits)
      have hbad : ¬ vector ↔ 1024 ≤ iv ∨ (x.vf ≠ 0 ∧ 64 ≤ iv) := by
        simp only [vector, not_and_or, not_lt, Classical.not_imp]
      refine ⟨adminDone_of_eq (exec_createIoCq h hid hfree) (Chip.cqCreated_scattered hlimit hfits),
        fun hv => adminDone_of_eq hmade (if_pos (hbad.mp hv)),
        fun hv => adminDone_of_eq hmade (if_neg (fun hn => hbad.mpr hn hv))⟩
    · exact adminDone_of_eq (exec_deleteIoCq h hid hcq) (if_pos (any_cqid_sqs.mpr hused))
    · have hnone : ¬ ∃ k ∈ x.sqs, k.cqid = qid := fun ⟨k, hk, hq⟩ => hunused k hk hq
      exact adminDone_of_eq (exec_deleteIoCq h hid hcq) (if_neg (mt any_cqid_sqs.mp hnone))
  · intro c t victim waits out
    refine ⟨fun hwaits => ?_, fun hgone => ?_, fun hfour => ?_, fun hroom => ?_, exec_adminCompletion_none, exec_adminCompletion_posts h.2.1,
      exec_nvmeMiSend h pay, exec_nvmeMiReceive h pay⟩
    · exact goesOn_of_eq (exec_nvmeAbort h sq cid) (if_pos (List.any_eq_true.mpr hwaits))
    · have hnone : ¬ c.host.cmds.any (c.abortable victim) = true := by
        rw [List.any_eq_true]
        exact fun ⟨p, hp, hw⟩ => Bool.eq_false_iff.mp (hgone p hp) hw
      exact goesOn_of_eq (exec_nvmeAbort h sq cid) (if_neg hnone)
    · exact adminDone_of_eq (exec_asyncEventRequest h) (if_pos hfour)
    · exact adminDone_of_eq (exec_asyncEventRequest h) (if_neg (not_le.mpr hroom))

end Sys2Proof.Machine
end

section
/-! SUPPORT. Features, log pages and Identify (R285, R286, R299, R307-R310, R426, R427). -/

namespace Sys2Proof.Machine

/-! What a feature of its own row comes to. -/

section
variable {s : State} {cmd : Cmd} {c : Chip}

/-- A function with other features. -/
def Chip.setFeat (c : Chip) (f : Nat) (x : FnFeatures) : Chip := c.setFn f { c.func f with feat := x }

theorem exec_setFeatureArbitration (h : AdminReady s cmd) (ab lpw mpw hpw : Nat) : exec (.setFeatureArbitration cmd ab lpw mpw hpw) s =
    .next (adminDone s ((s.chip.taken cmd).arbitration cmd ab lpw mpw hpw)) := by
  show execSetFeatureArbitration .. = _
  exact admin_next h rfl

/-! Number of Queues (R285). -/

theorem exec_setFeatureNumberOfQueues (h : AdminReady s cmd) (a b : Nat) :
    exec (.setFeatureNumberOfQueues cmd a b) s = .next (adminDone s ((s.chip.taken cmd).numberOfQueues cmd a b)) := by
  show execSetFeatureNumberOfQueues .. = _
  exact admin_next h rfl

theorem Chip.numberOfQueues_inUse (h : ∃ q ∈ (c.func cmd.fn).sqs, q.qid ≠ 0) (a b : Nat) :
    c.numberOfQueues cmd a b = c.reply cmd ⟨0, 0x0C, true⟩ 0 0 := by
  have huse : (c.func cmd.fn).sqs.any (fun q => q.qid != 0) = true := by simpa using h
  exact if_pos (.inl huse)

theorem Chip.numberOfQueues_grants (hsq : ∀ q ∈ (c.func cmd.fn).sqs, q.qid = 0) (hcq : ∀ q ∈ (c.func cmd.fn).cqs, q.qid = 0) {a b : Nat}
    (ha : a < 65535) (hb : b < 65535) : c.numberOfQueues cmd a b =
      (c.setFeat cmd.fn { (c.func cmd.fn).feat with
        nsq := Nat.min (a + 1) (Nat.max 1 c.fn.shares.qp)
        ncq := Nat.min (b + 1) (Nat.max 1 c.fn.shares.qp) }).reply cmd ⟨0, 0, false⟩
          ((Nat.min (b + 1) (Nat.max 1 c.fn.shares.qp) - 1) * 65536 + (Nat.min (a + 1) (Nat.max 1 c.fn.shares.qp) - 1)) 0 := by
  have hfree : ¬ ((c.func cmd.fn).sqs.any (fun q => q.qid != 0) = true ∨ (c.func cmd.fn).cqs.any (fun q => q.qid != 0) = true) := by
    simpa using ⟨hsq, hcq⟩
  exact (if_neg hfree).trans (if_neg (by omega))

/-! Autonomous power states (R427). -/

/-- An entry that is used names a state other than PS3 and PS4, or one not below its own. -/
def ApstWrong (entries : List (Nat × Nat)) : Prop := ∃ i < 5, ∃ y, entries[i]? = some y ∧ y.2 ≠ 0 ∧ ((y.1 ≠ 3 ∧ y.1 ≠ 4) ∨ y.1 ≤ i)

theorem apstWrong_iff {entries : List (Nat × Nat)} :
    ((entries.take 5).zipIdx).any (fun p => p.1.2 != 0 && ((p.1.1 != 3 && p.1.1 != 4) || decide (p.1.1 ≤ p.2))) = true ↔ ApstWrong entries := by
  simp only [List.any_eq_true, Prod.exists, List.mem_zipIdx_iff_getElem?, List.getElem?_take, Bool.and_eq_true, Bool.or_eq_true, bne_iff_ne,
    decide_eq_true_eq, ApstWrong]
  constructor
  · rintro ⟨a, b, i, hy, hused, hwrong⟩
    by_cases hi : i < 5
    · rw [if_pos hi] at hy
      exact ⟨i, hi, a, b, hy, hused, hwrong⟩
    · rw [if_neg hi] at hy
      cases hy
  · rintro ⟨i, hi, a, b, hy, hused, hwrong⟩
    exact ⟨a, b, i, (if_pos hi).trans hy, hused, hwrong⟩

theorem Chip.isPf_iff {f : Nat} : c.isPf f = true ↔ (c.func f).vf = 0 := beq_iff_eq

theorem exec_setFeatureApst_refused (h : AdminReady s cmd) {apste : Bool} {entries : List (Nat × Nat)}
    (hbad : ¬ (s.chip.func cmd.fn).vf = 0 ∨ ApstWrong entries) :
    exec (.setFeatureApst cmd apste entries) s = .next (adminDone s ((s.chip.taken cmd).reply cmd ⟨0, 0x02, true⟩ 0 0)) := by
  show execSetFeatureApst .. = _
  refine admin_next h (if_pos ?_)
  rw [Bool.or_eq_true, Bool.not_eq_true', Bool.eq_false_iff, Ne, Chip.isPf_iff]
  exact hbad.imp_right apstWrong_iff.mpr

theorem exec_setFeatureApst (h : AdminReady s cmd) {apste : Bool} {entries : List (Nat × Nat)}
    (hpf : (s.chip.func cmd.fn).vf = 0) (hgood : ¬ ApstWrong entries) : exec (.setFeatureApst cmd apste entries) s = .next (adminDone s
      (((s.chip.taken cmd).setFeat cmd.fn { (s.chip.func cmd.fn).feat with
        apste := apste
        apst := entries.take 5 }).reply cmd ⟨0, 0, false⟩ 0 0)) := by
  show execSetFeatureApst .. = _
  refine admin_next h (if_neg ?_)
  rw [Bool.or_eq_true, Bool.not_eq_true', Bool.eq_false_iff, Ne, Chip.isPf_iff, not_or, not_not]
  exact ⟨hpf, mt apstWrong_iff.mp hgood⟩

/-! Flexible Data Placement (R299). -/

theorem exec_setFeatureFdp (h : AdminReady s cmd) (on : Bool) : exec (.setFeatureFdp cmd on) s = .next (adminDone s
    ((s.chip.taken cmd).fdpFeature cmd on)) := by
  show execSetFeatureFdp .. = _
  exact admin_next h rfl

theorem Chip.fdpFeature_late (h : ∃ p ∈ c.host.nss, p.2 ≠ none) (on : Bool) : c.fdpFeature cmd on = c.reply cmd ⟨0, 0x02, true⟩ 0 0 := by
  obtain ⟨p, hp, hn⟩ := h
  exact if_pos (List.any_eq_true.mpr ⟨p, hp, Option.isSome_iff_ne_none.mpr hn⟩)

theorem Chip.fdpFeature_early (h : ∀ p ∈ c.host.nss, p.2 = none) (on : Bool) :
    c.fdpFeature cmd on = ({ c with host := { c.host with fdp := on } } : Chip).reply cmd ⟨0, 0, false⟩ 0 0 := by
  refine if_neg (fun hany => ?_)
  obtain ⟨p, hp, hn⟩ := List.any_eq_true.mp hany
  exact Option.isSome_iff_ne_none.mp hn (h p hp)

/-! Power Management (R426). -/

theorem exec_setFeaturePowerManagement (h : AdminReady s cmd) (ps : Nat) : exec (.setFeaturePowerManagement cmd ps) s = .next (adminDone s
    ((s.chip.taken cmd).powerFeature cmd ps)) := by
  show execSetFeaturePowerManagement .. = _
  exact admin_next h rfl

theorem Chip.powerFeature_refused {ps : Nat} (hbad : ¬ (c.func cmd.fn).vf = 0 ∨ 4 < ps) :
    c.powerFeature cmd ps = c.reply cmd ⟨0, 0x02, true⟩ 0 0 := by
  refine if_pos ?_
  rwa [Bool.or_eq_true, Bool.not_eq_true', Bool.eq_false_iff, Ne, Chip.isPf_iff, decide_eq_true_eq]

/-- The function asks for the state, and the power unit is asked for the lowest request of the enabled PFs. -/
def Chip.powerAsked (c : Chip) (f ps : Nat) : Chip :=
  let asked := c.setFeat f { (c.func f).feat with power := ps }
  asked.pmuRequest false 0 ((asked.enabledPfs.map (fun y => y.feat.power)).foldl Nat.min 4)

theorem Chip.powerFeature_admitted {ps : Nat} (hpf : (c.func cmd.fn).vf = 0) (hps : ps ≤ 4) : c.powerFeature cmd ps =
    if c.pmu.req.isSome then c.reply cmd ⟨0, 0x21, false⟩ 0x01 0
    else if (c.powerAsked cmd.fn ps).pmu.req.isNone = true ∧ (c.powerAsked cmd.fn ps).fld Reg.pmuReqRes 7 0 ≠ cstOk then
      ((c.powerAsked cmd.fn ps).setFeat cmd.fn (c.func cmd.fn).feat).replySt cmd .other ((c.powerAsked cmd.fn ps).fld Reg.pmuReqRes 7 0)
    else (c.powerAsked cmd.fn ps).reply cmd ⟨0, 0, false⟩ 0 0 := by
  refine if_neg ?_
  rw [Bool.or_eq_true, Bool.not_eq_true', Bool.eq_false_iff, Ne, Chip.isPf_iff, decide_eq_true_eq]
  omega

/-! The features without a row of their own (R310, log entry 39). -/

theorem bitsOf_from_zero (v hi : Nat) : bitsOf v hi 0 = v % 2 ^ (hi + 1) := by simp [bitsOf]

/-- Features that SET_FEATURES carries: the field takes the bits of the value that it has room for. -/
theorem exec_setFeatures {fid : Nat} {w : Word} {x : FnFeatures} (h : AdminReady s cmd)
    (hx : (fid, x) ∈
      let f := (s.chip.func cmd.fn).feat
      [(0x04, { f with temp := w.toNat % 2 ^ 22 }), (0x08, { f with coal := w.toNat % 2 ^ 16 }), (0x0B, { f with aerMask := w.toNat })]) :
    exec (.setFeatures cmd fid w false) s = .next (adminDone s (((s.chip.taken cmd).setFeat cmd.fn x).reply cmd ⟨0, 0, false⟩ 0 0)) := by
  show execSetFeatures cmd fid w false s = _
  refine admin_next h ?_
  simp only [List.mem_cons, Prod.mk.injEq, List.not_mem_nil, or_false] at hx
  rcases hx with ⟨rfl, rfl⟩ | ⟨rfl, rfl⟩ | ⟨rfl, rfl⟩
  · rw [← bitsOf_from_zero]
    rfl
  · rw [← bitsOf_from_zero]
    rfl
  · rfl

theorem exec_setFeatures_saved (h : AdminReady s cmd) (w : Word) :
    exec (.setFeatures cmd 0x08 w true) s = .next (adminDone s ((s.chip.taken cmd).reply cmd ⟨1, 0x0D, true⟩ 0 0)) := by
  show execSetFeatures .. = _
  exact admin_next h rfl

theorem exec_setFeatures_unsupported (h : AdminReady s cmd) (w : Word) (save : Bool) :
    exec (.setFeatures cmd 0x03 w save) s = .next (adminDone s ((s.chip.taken cmd).reply cmd ⟨0, 0x02, true⟩ 0 0)) := by
  show execSetFeatures .. = _
  exact admin_next h rfl

/-- Features whose value reads back as it was set, in the layout of Set Features. -/
theorem exec_getFeatures {fid v : Nat} (h : AdminReady s cmd)
    (hv : (fid, v) ∈
      let x := (s.chip.func cmd.fn).feat
      [(0x01, x.ab + x.lpw * 2 ^ 8 + x.mpw * 2 ^ 16 + x.hpw * 2 ^ 24), (0x02, x.power), (0x04, x.temp), (0x08, x.coal), (0x0B, x.aerMask),
        (0x1D, if s.chip.host.fdp then 1 else 0)]) (nsid : Nat) :
    exec (.getFeatures cmd fid nsid) s = .next (adminDone s ((s.chip.taken cmd).reply cmd ⟨0, 0, false⟩ v 0)) := by
  show execGetFeatures cmd fid nsid s = _
  refine admin_next h ?_
  simp only [List.mem_cons, Prod.mk.injEq, List.not_mem_nil, or_false] at hv
  rcases hv with ⟨rfl, rfl⟩ | ⟨rfl, rfl⟩ | ⟨rfl, rfl⟩ | ⟨rfl, rfl⟩ | ⟨rfl, rfl⟩ | ⟨rfl, rfl⟩ <;> rfl

theorem exec_getFeatures_unsupported (h : AdminReady s cmd) (nsid : Nat) :
    exec (.getFeatures cmd 0x03 nsid) s = .next (adminDone s ((s.chip.taken cmd).reply cmd ⟨0, 0x02, true⟩ 0 0)) := by
  show execGetFeatures cmd 0x03 nsid s = _
  exact admin_next h rfl

end

/-! Logs and Identify (R307-R309). -/

section
variable {s : State} {cmd : Cmd}

theorem exec_getLogPage_unknown (h : AdminReady s cmd) {lid : Nat} (hlog : (s.chip.taken cmd).logPage s.env cmd.fn lid = none) :
    exec (.getLogPage cmd lid) s = .next (adminDone s ((s.chip.taken cmd).reply cmd ⟨1, 0x09, true⟩ 0 0)) := by
  show execGetLogPage .. = _
  refine adminChip_next h ?_
  simp only [State.takes, hlog]
  rfl

theorem exec_getLogPage (h : AdminReady s cmd) {lid : Nat} {bs : List Byte} {d : Chip}
    (hlog : (s.chip.taken cmd).logPage s.env cmd.fn lid = some (bs, d)) :
    exec (.getLogPage cmd lid) s = .next (adminDone s ((d.answerDma cmd.fn bs).reply cmd ⟨0, 0, false⟩ 0 0)) := by
  show execGetLogPage .. = _
  refine adminChip_next h ?_
  simp only [State.takes, hlog]
  rfl

theorem exec_getLogEmitRing (h : AdminReady s cmd) (lsp len : Nat) :
    let t := s.chip.taken cmd
    let r := t.ring cmd.fn
    let k := if lsp.testBit 0 = true then Nat.min r.1.length ((len - 16) / 32) else 0
    exec (.getLogEmitRing cmd lsp len) s = .next (adminDone s
      (((t.answerDma cmd.fn ((t.emitLog cmd.fn).take len)).setRing cmd.fn (r.1.drop k, (r.2.1 + k) % 2 ^ 32, r.2.2)).reply cmd ⟨0, 0, false⟩ 0 0)) := by
  intro t r k
  show execGetLogEmitRing .. = _
  exact adminChip_next h rfl

/-- The structure is named by an equation: with the number itself, the kernel would evaluate its 4,096 bytes. -/
theorem exec_identify_controller {cns : Nat} (h : AdminReady s cmd) (hcns : cns = 0x01) (nsid : Nat) :
    exec (.identify cmd cns nsid) s = .next (adminDone s
      (((s.chip.taken cmd).answerDma cmd.fn ((s.chip.taken cmd).identifyController s.env cmd.fn)).reply cmd ⟨0, 0, false⟩ 0 0)) := by
  show execIdentify .. = _
  refine adminChip_next h ?_
  split
  case h_2 => rfl
  all_goals contradiction

theorem exec_identify_namespace (h : AdminReady s cmd) (nsid : Nat) : exec (.identify cmd 0x00 nsid) s = .next (adminDone s
    (((s.chip.taken cmd).answerDma cmd.fn ((s.chip.taken cmd).identifyNamespace cmd.fn nsid)).reply cmd ⟨0, 0, false⟩ 0 0)) := by
  show execIdentify cmd 0x00 nsid s = _
  exact adminChip_next h rfl

theorem exec_identify_unknown (h : AdminReady s cmd) {cns : Nat} (hcns : 6 < cns) (nsid : Nat) :
    exec (.identify cmd cns nsid) s = .next (adminDone s ((s.chip.taken cmd).reply cmd ⟨0, 0x02, true⟩ 0 0)) := by
  show execIdentify .. = _
  refine adminChip_next h ?_
  split
  case h_6 => rfl
  all_goals omega

end

/-- Settles O44: each feature changes its own field or ends at the check that fails; a log and a structure that exist go to the host. -/
theorem featuresAndLogs : Obligations.FeaturesAndLogs := by
  refine ⟨fun s cmd ab lpw mpw hpw a b ps apste on entries w h => ?_, fun s cmd lid lsp len cns nsid bs d h => ?_⟩
  · intro c t x gives no put share wrong pf arb
    refine ⟨exec_setFeatureArbitration h .., fun hsq hcq ha hb => ?_, fun huse => ?_, exec_setFeatureApst_refused h, exec_setFeatureApst h,
      fun hlate => ?_, fun hearly => ?_, fun hbad => ?_, fun hpf hps hbusy => ?_, fun hpf hps hidle => ?_, ⟨?_, ?_, ?_, ?_, ?_⟩,
      ?_, ?_, ?_, ?_, ?_, ?_, exec_getFeatures_unsupported h 0⟩
    · exact adminDone_of_eq (exec_setFeatureNumberOfQueues h a b) (Chip.numberOfQueues_grants (c := t) hsq hcq ha hb)
    · exact adminDone_of_eq (exec_setFeatureNumberOfQueues h a b) (Chip.numberOfQueues_inUse (c := t) huse a b)
    · exact adminDone_of_eq (exec_setFeatureFdp h on) (Chip.fdpFeature_late (c := t) hlate on)
    · exact adminDone_of_eq (exec_setFeatureFdp h on) (Chip.fdpFeature_early (c := t) hearly on)
    · exact adminDone_of_eq (exec_setFeaturePowerManagement h ps) (Chip.powerFeature_refused (c := t) hbad)
    · exact adminDone_of_eq (exec_setFeaturePowerManagement h ps)
        ((Chip.powerFeature_admitted (c := t) hpf hps).trans (if_pos (Option.isSome_iff_ne_none.mpr hbusy)))
    · intro asked low d hgoes
      have hfree : ¬ t.pmu.req.isSome = true := fun hsome => Option.isSome_iff_ne_none.mp hsome hidle
      have hok : ¬ (d.pmu.req.isNone = true ∧ d.fld Reg.pmuReqRes 7 0 ≠ cstOk) :=
        fun ⟨hnone, hst⟩ => hgoes.elim (fun hruns => hruns (Option.isNone_iff_eq_none.mp hnone)) hst
      exact adminDone_of_eq (exec_setFeaturePowerManagement h ps)
        ((Chip.powerFeature_admitted (c := t) hpf hps).trans ((if_neg hfree).trans (if_neg hok)))
    · exact exec_setFeatures h (by simp [x, c])
    · exact exec_setFeatures h (by simp [x, c])
    · exact exec_setFeatures h (by simp [x, c])
    · exact exec_setFeatures_saved h w
    · exact exec_setFeatures_unsupported h w false
    all_goals exact exec_getFeatures h (by simp [x, c]) 0
  · exact ⟨exec_getLogPage_unknown h, exec_getLogPage h, exec_getLogEmitRing h lsp len, exec_identify_controller h rfl nsid,
      exec_identify_namespace h nsid, fun hcns => exec_identify_unknown h hcns nsid⟩

end Sys2Proof.Machine
end

section
/-! SUPPORT. Host links, doorbells, fetch decisions, failed transfers and translations (R277-R282, R286, R327, R337). -/

namespace Sys2Proof.Machine

/-! Links (R278-R281). -/

section
variable {s : State} {c : Chip} {e : Env} {l speed width : Nat}

/-- The functions on a link that are there. -/
def Chip.linkFns (c : Chip) (l : Nat) : List Nat := (c.fn.fns.filter (fun p => p.2.present && p.2.link == l)).map (fun p => p.1)

/-- The record of a link that has gone down, with its count. -/
def Chip.linkLost (c : Chip) (l : Nat) : Chip :=
  (c.updLink l (fun x => { x with
    state := 0
    speed := 0
    width := 0
    downSince := some c.tick })).bump (Reg.hostLinkStat l) 31 16 1

theorem exec_hostLinkUp (s : State) (l speed width : Nat) :
    exec (.hostLinkUp l speed width) s = .next (goesOn s ((s.chip.wakeSee .link).linkUp s.env l speed width)) := rfl

theorem exec_hostLinkDown (s : State) (l : Nat) :
    exec (.hostLinkDown l) s = .next (goesOn s ((s.chip.wakeSee .link).linkDown s.env l)) := rfl

theorem Chip.linkUp_trains (hen : c.bit Reg.hostCtrl l = true) (hdown : (c.link l).state ≠ 2) (hspeed : 0 < speed ∧ speed ≤ 6)
    (hwidth : 0 < width ∧ width ≤ 3) : c.linkUp e l speed width =
      let up := c.updLink l (fun x => { x with
        state := 2
        speed := speed
        width := width
        downSince := none })
      (up.fnPresent (up.linkRange l).1 l 0).vfFollow e l := by
  refine if_neg ?_
  simp only [hen, Bool.not_true, Bool.false_or, Bool.or_eq_true, beq_iff_eq, decide_eq_true_eq]
  omega

theorem Chip.linkUp_disabled (hen : c.bit Reg.hostCtrl l = false) : c.linkUp e l speed width = c := by
  refine if_pos ?_
  simp only [hen, Bool.not_false, Bool.true_or]

theorem Chip.linkDown_up (hup : (c.link l).state = 2) : c.linkDown e l =
    (((c.linkLost l).linkFns l).foldl (fun c f => (c.updFn f (fun x => { x with present := false })).fnSource e f 4 true true)
      (c.linkLost l)).raise 309 0 0xFFFF 0 0 := if_neg (not_not.mpr hup)

theorem Chip.linkDown_down (hdown : (c.link l).state ≠ 2) : c.linkDown e l = c := if_pos hdown

end

/-! Doorbells (R280, R327). -/

section
variable {c : Chip} {f qid v : Nat}

theorem exec_doorbellWrite (s : State) (f qid : Nat) (isCq : Bool) (v : Nat) :
    exec (.doorbellWrite f qid isCq v) s = .next (goesOn s ((s.chip.wakeSee .host).doorbell f qid isCq v)) := rfl

theorem Chip.doorbell_ignored (h : (c.func f).phase = .disabled ∨ (c.func f).phase = .resetting) (isCq : Bool) :
    c.doorbell f qid isCq v = c := if_pos h

variable (hd : (c.func f).phase ≠ .disabled) (hr : (c.func f).phase ≠ .resetting)
include hd hr

theorem Chip.doorbell_noSq (hnone : ∀ y ∈ (c.func f).sqs, y.qid ≠ qid) : c.doorbell f qid false v = c.asyncEvent f 0 0 := by
  have hfind : (c.func f).sqs.find? (fun q => q.qid == qid) = none := by simpa using hnone
  simp only [Chip.doorbell, hd, hr, or_self, if_false, Bool.false_eq_true, hfind]
  rfl

theorem Chip.doorbell_sq {q : SQ} (hq : (c.func f).sqs.find? (fun y => y.qid == qid) = some q) : c.doorbell f qid false v =
    if q.size ≤ v then c.asyncEvent f 0 1
    else c.setFn f { c.func f with sqs := (c.func f).sqs.map (fun y => if y.qid = qid then { y with tail := v } else y) } := by
  simp only [Chip.doorbell, hd, hr, or_self, if_false, Bool.false_eq_true, hq, updateWhere, beq_iff_eq]
  rfl

theorem Chip.doorbell_cq {k : CQ} (hk : (c.func f).cqs.find? (fun y => y.qid == qid) = some k) (hv : v < k.size)
    (hposted : (v + k.size - k.head) % k.size ≤ k.entries.length) : c.doorbell f qid true v =
      c.setFn f { c.func f with cqs := (c.func f).cqs.map (fun y =>
        if y.qid = qid then { y with head := v, entries := y.entries.drop ((v + k.size - k.head) % k.size) } else y) } := by
  have hgood : ¬ (k.size ≤ v ∨ k.entries.length < (v + k.size - k.head) % k.size) := by omega
  simp only [Chip.doorbell, hd, hr, or_self, if_false, if_true, hk, hgood, updateWhere, beq_iff_eq]

end

/-! Fetch decisions (R286). -/

section
variable {c : Chip} {f k : Nat} {q : SQ} {x : Fn} {xs : List Sqe}

/-- The entries that a decision for queue `q` of the function `x` takes. -/
def Chip.fetchCount (c : Chip) (q : SQ) (x : Fn) : Nat :=
  Nat.min (Nat.min (if x.feat.ab = 7 then q.waits else Nat.min (2 ^ x.feat.ab) q.waits) (384 - c.fn.fetched)) x.balance.toNat

theorem exec_cmdFetch (s : State) (xs : List Sqe) : exec (.cmdFetch xs) s = .next { s with chip := s.chip.fetch xs } := rfl

theorem Chip.fetch_none (h : c.nextFn = none) : c.fetch xs = c := by simp only [Chip.fetch, h]

theorem Chip.fetch_takes (hf : c.nextFn = some f) (hq : c.chooseQueue (c.func f) = some (q, k, x)) (hn : c.fetchCount q x ≤ xs.length) :
    c.fetch xs =
      let first := c.setFn f { x with lastQ := if k < 4 then updateAt x.lastQ k (fun _ => q.qid) else x.lastQ }
      let got := first.takeSqes f (k == 4) (c.fetchCount q x) xs
      let moved := got.2.updFn f (fun y => { y with
        sqs := updateWhere (fun z => z.qid == q.qid) (fun z => { z with head := (z.head + got.1) % z.size }) y.sqs })
      { moved with fn := { moved.fn with
        lastFn := f
        fetched := moved.fn.fetched + got.1 } } := by
  simp only [Chip.fetch, hf, hq]
  exact if_neg (not_lt.mpr hn)

end

/-! Failed transfers and translations (R282, R337). -/

section
variable {s : State} {req : Nat} {r : FtuReq} {res : AtsResult}

theorem exec_hostDmaFailure_data (s : State) (cmd : Cmd) :
    exec (.hostDmaFailure (.data cmd)) s = .next (goesOn s (s.chip.dmaFail s.env cmd)) := rfl

theorem exec_translationCompletion_none (h : ∀ y ∈ s.chip.fn.ftuReqs, y.id ≠ req) :
    exec (.translationCompletion req res) s = .next (goesOn s s.chip) := by
  have hfind : s.chip.fn.ftuReqs.find? (fun r => r.id == req) = none := by simpa using h
  show execTranslationCompletion req res s = _
  refine next_congr (congrArg (goesOn s) ?_)
  simp only [hfind]

theorem exec_translationCompletion (h : s.chip.fn.ftuReqs.find? (fun y => y.id == req) = some r) :
    exec (.translationCompletion req res) s = .next (goesOn s (s.chip.ftuAnswer s.env r res)) := by
  show execTranslationCompletion req res s = _
  refine next_congr (congrArg (goesOn s) ?_)
  simp only [h]

theorem Chip.ftuAnswer_ends {c : Chip} {e : Env} (h : res ≠ .denied) : c.ftuAnswer e r res = c.ftuEnd r res := by
  cases res with
  | denied => exact absurd rfl h
  | granted => rfl
  | untranslatedOnly => rfl

theorem exec_translationTimeout (h : s.chip.fn.ftuReqs.find? (fun y => y.id == req) = some r) :
    exec (.translationTimeout req) s = .next (goesOn s
      (if r.since + s.chip.fld Reg.fnFtuCfg 11 0 ≤ s.chip.tick then s.chip.ftuAnswer s.env r .denied else s.chip)) := by
  show execTranslationTimeout req s = _
  refine next_congr (congrArg (goesOn s) ?_)
  simp only [h]

end

/-- Settles O45: a link, a doorbell, a fetch decision and a translation each take the branch that their conditions give. -/
theorem linksAndTransfers : Obligations.LinksAndTransfers := by
  refine ⟨fun s l speed width f qid v q k => ?_, fun s xs f k req q x cmd r res => ?_⟩
  · intro c lit d x fs
    refine ⟨fun hen hdown hs0 hs6 hw0 hw3 => ?_, fun hen => ?_, fun hup => ?_, fun hdown => ?_, fun isCq hphase => ?_,
      fun hd hr => ⟨fun hnone => ?_, fun hq hv => ?_, fun hq hv => ?_, fun hk hv hposted => ?_⟩⟩
    · exact goesOn_of_eq (exec_hostLinkUp s l speed width) (Chip.linkUp_trains hen hdown ⟨hs0, hs6⟩ ⟨hw0, hw3⟩)
    · exact goesOn_of_eq (exec_hostLinkUp s l speed width) (Chip.linkUp_disabled hen)
    · exact goesOn_of_eq (exec_hostLinkDown s l) (Chip.linkDown_up hup)
    · exact goesOn_of_eq (exec_hostLinkDown s l) (Chip.linkDown_down hdown)
    · exact goesOn_of_eq (exec_doorbellWrite s f qid isCq v) (Chip.doorbell_ignored hphase isCq)
    · exact goesOn_of_eq (exec_doorbellWrite s f qid false v) (Chip.doorbell_noSq hd hr hnone)
    · exact goesOn_of_eq (exec_doorbellWrite s f qid false v) ((Chip.doorbell_sq hd hr hq).trans (if_pos hv))
    · exact goesOn_of_eq (exec_doorbellWrite s f qid false v) ((Chip.doorbell_sq hd hr hq).trans (if_neg (not_le.mpr hv)))
    · exact goesOn_of_eq (exec_doorbellWrite s f qid true v) (Chip.doorbell_cq hd hr hk hv hposted)
  · intro c burst n first got moved items
    refine ⟨fun hnone => ?_, fun hf hq hn => ?_, ⟨rfl, rfl, exec_hostDmaFailure_data s cmd⟩, exec_translationCompletion_none, fun hr hres => ?_,
      fun hr hearly => ?_, fun hr hlate => ?_⟩
    · exact (exec_cmdFetch s xs).trans (next_congr (congrArg (fun d => { s with chip := d }) (Chip.fetch_none hnone)))
    · exact (exec_cmdFetch s xs).trans (next_congr (congrArg (fun d => { s with chip := d }) (Chip.fetch_takes hf hq hn)))
    · exact goesOn_of_eq (exec_translationCompletion hr) (Chip.ftuAnswer_ends hres)
    · exact goesOn_of_eq (exec_translationTimeout hr) (if_neg (not_le.mpr hearly))
    · exact goesOn_of_eq (exec_translationTimeout hr) (if_pos hlate)

end Sys2Proof.Machine
end

section
/-! SUPPORT. Firmware images, and the start, the units and the end of a format and of a sanitize (R311-R315, R350). -/

namespace Sys2Proof.Machine

/-! Firmware Image Download (R311). -/

section
variable {s : State} {cmd : Cmd} {off len : Nat}

theorem exec_firmwareImageDownload_misplaced (h : AdminReady s cmd)
    (hbad : ¬ (0 < len ∧ off % 4096 = 0 ∧ len % 4096 = 0 ∧ off + len ≤ 2 ^ 24)) : exec (.firmwareImageDownload cmd off len) s =
      .next (adminDone s ((s.chip.taken cmd).reply cmd ⟨0, 0x02, true⟩ 0 0)) := by
  have hplace : len = 0 ∨ off % 4096 ≠ 0 ∨ len % 4096 ≠ 0 ∨ 2 ^ 24 < off + len := by omega
  show execFirmwareImageDownload .. = _
  exact admin_next h (if_pos hplace)

/-- A piece that is placed right joins the others unless it overlaps one of them. -/
theorem exec_firmwareImageDownload (h : AdminReady s cmd) (hgood : 0 < len ∧ off % 4096 = 0 ∧ len % 4096 = 0 ∧ off + len ≤ 2 ^ 24) :
    exec (.firmwareImageDownload cmd off len) s = .next (adminDone s
      (if s.chip.host.fwPieces.any (fun p => decide (off < p.1 + p.2) && decide (p.1 < off + len)) then
        (s.chip.taken cmd).reply cmd ⟨1, 0x14, true⟩ 0 0
       else ({ s.chip.taken cmd with host := { (s.chip.taken cmd).host with
        fwPieces := insertBy (fun p => p.1) (off, len) s.chip.host.fwPieces } } : Chip).reply cmd ⟨0, 0, false⟩ 0 0)) := by
  have hplace : ¬ (len = 0 ∨ off % 4096 ≠ 0 ∨ len % 4096 ≠ 0 ∨ 2 ^ 24 < off + len) := by omega
  show execFirmwareImageDownload .. = _
  exact admin_next h (if_neg hplace)

theorem overlaps_iff {ps : List (Nat × Nat)} : ps.any (fun p => decide (off < p.1 + p.2) && decide (p.1 < off + len)) = true ↔
    ∃ p ∈ ps, off < p.1 + p.2 ∧ p.1 < off + len := by
  simp only [List.any_eq_true, Bool.and_eq_true, decide_eq_true_eq]

end

/-! Firmware Commit (R311, R350). -/

section
variable {s t : State} {cmd : Cmd} {ca fs keyid svn : Nat} {sig : Bool}

/-- The slot that a commit writes or activates. -/
def Chip.fwSlot (c : Chip) (fs : Nat) : Nat := if fs = 0 then 1 - c.host.fwActive % 2 else fs - 1

/-- The image is whole where the commit stores it, its signature holds, and its version reaches the minimum of its key. -/
def FirmwareGood (s : State) (ca keyid svn : Nat) (sig : Bool) : Prop :=
  (ca ≤ 1 → fwWhole s.chip.host.fwPieces = true) ∧ sig = true ∧ keyid < 4 ∧ s.fuse.svn.getD keyid 0 ≤ svn

theorem exec_firmwareCommit (h : AdminReady s cmd) (ht : firmwareCommit cmd ca fs keyid svn sig (s.takes cmd) = t) :
    exec (.firmwareCommit cmd ca fs keyid svn sig) s = .next (flushDlog t) := by
  subst ht
  exact next_congr (adminOp_ready h _)

variable (hserves : lifecycleRefuses s = false)
include hserves

theorem firmwareCommit_action (hca : 3 ≤ ca) :
    firmwareCommit cmd ca fs keyid svn sig s = { s with chip := s.chip.reply cmd ⟨0, 0x02, true⟩ 0 0 } :=
  (if_neg (Bool.eq_false_iff.mp hserves)).trans (if_pos hca)

theorem firmwareCommit_slot (hca : ca < 3) (hfs : 2 < fs) :
    firmwareCommit cmd ca fs keyid svn sig s = { s with chip := s.chip.reply cmd ⟨1, 0x06, true⟩ 0 0 } :=
  (if_neg (Bool.eq_false_iff.mp hserves)).trans ((if_neg (not_le.mpr hca)).trans (if_pos hfs))

omit hserves in
theorem firmwareGood_iff : FirmwareGood s ca keyid svn sig ↔
    ¬ (((decide (ca ≤ 1) && !fwWhole s.chip.host.fwPieces) || !sig || decide (4 ≤ keyid) || decide (svn < s.fuse.svn.getD keyid 0)) = true) := by
  simp only [FirmwareGood, Bool.or_eq_true, Bool.and_eq_true, decide_eq_true_eq, Bool.not_eq_true', not_or, not_and, not_le, not_lt,
    Bool.not_eq_false, and_assoc]

theorem firmwareCommit_image (hca : ca < 3) (hfs : fs ≤ 2) (hbad : ¬ FirmwareGood s ca keyid svn sig) :
    firmwareCommit cmd ca fs keyid svn sig s = { s with chip := s.chip.reply cmd ⟨1, 0x07, true⟩ 0 0 } :=
  (if_neg (Bool.eq_false_iff.mp hserves)).trans ((if_neg (not_le.mpr hca)).trans ((if_neg (not_lt.mpr hfs)).trans
    (if_pos (not_not.mp (mt firmwareGood_iff.mpr hbad)))))

theorem firmwareCommit_commits (hca : ca < 3) (hfs : fs ≤ 2) (hgood : FirmwareGood s ca keyid svn sig) :
    firmwareCommit cmd ca fs keyid svn sig s = { s with
      chip := ({ s.chip with host := { s.chip.host with
        fwPieces := if ca ≤ 1 then [] else s.chip.host.fwPieces
        fwSlots := if ca ≤ 1 then updateAt s.chip.host.fwSlots (s.chip.fwSlot fs) (fun _ => svn) else s.chip.host.fwSlots
        fwActive := if 1 ≤ ca then s.chip.fwSlot fs else s.chip.host.fwActive } } : Chip).reply cmd ⟨0, 0, false⟩ 0 0
      fuse := if 1 ≤ ca then { s.fuse with svn := updateAt s.fuse.svn keyid (Nat.max svn) } else s.fuse } :=
  (if_neg (Bool.eq_false_iff.mp hserves)).trans ((if_neg (not_le.mpr hca)).trans ((if_neg (not_lt.mpr hfs)).trans
    (if_neg (firmwareGood_iff.mp hgood))))

end

/-! What refuses a format or a sanitize (R312, R314, R315). -/

section
variable {s : State} {c : Chip} {nss : List Nat}

theorem wipeStop_format (hstate : c.host.progress.state = 1) (haction : 3 ≤ c.host.progress.action) :
    wipeStop s c nss = some (⟨0, 0x84, false⟩, 0) :=
  (if_pos hstate).trans (congrArg some (if_neg (by omega)))

theorem wipeStop_sanitize (hstate : c.host.progress.state = 1) (haction : c.host.progress.action ≤ 2) :
    wipeStop s c nss = some (⟨0, 0x1D, false⟩, 0) :=
  (if_pos hstate).trans (congrArg some (if_pos haction))

variable (hstate : c.host.progress.state ≠ 1)
include hstate

theorem wipeStop_sealed (hseal : nss.any (fun x => (c.ns x).any (·.holdsSeal)) = true) : wipeStop s c nss = some (⟨0, 0x15, true⟩, 0x0F) :=
  (if_neg hstate).trans (if_pos hseal)

theorem wipeStop_unsealed (hopen : ¬ nss.any (fun x => (c.ns x).any (·.holdsSeal)) = true) :
    wipeStop s c nss = if s.fuse.lifecycle = .hold then some (⟨7, 0xC3, true⟩, 0x10) else none :=
  (if_neg hstate).trans (if_neg hopen)

end

/-! Format (R314). -/

section
variable {s : State} {cmd : Cmd} {nsid lbaf ses : Nat} {n : Ns}

theorem exec_formatNvm_lbaf (h : AdminReady s cmd) (hlbaf : lbaf ≠ 0) :
    exec (.formatNvm cmd nsid lbaf ses) s = .next (adminDone s ((s.chip.taken cmd).reply cmd ⟨0, 0x0A, true⟩ 0 0)) := by
  show execFormatNvm .. = _
  exact admin_next h (if_pos hlbaf)

theorem exec_formatNvm_ses (h : AdminReady s cmd) (hlbaf : lbaf = 0) (hses : 2 ≤ ses) :
    exec (.formatNvm cmd nsid lbaf ses) s = .next (adminDone s ((s.chip.taken cmd).reply cmd ⟨0, 0x02, true⟩ 0 0)) := by
  show execFormatNvm .. = _
  exact admin_next h ((if_neg (not_not.mpr hlbaf)).trans (if_pos hses))

/-- What WP1 does with a format or a sanitize: the refusal that holds, or what starts it. -/
def Chip.wipes (c : Chip) (cmd : Cmd) (stop : Option (NStat × Nat)) (start : Chip) : Chip := stop.elim start (fun p => c.reply cmd p.1 p.2 0)

/-- A format of one namespace by its owner: what the checks of R312-R315 say, or the record of its units. -/
theorem exec_formatNvm (h : AdminReady s cmd) (hlbaf : lbaf = 0) (hses : ses < 2) (hall : nsid ≠ 0xFFFFFFFF) (hid : nsid ≠ 0)
    (hns : s.chip.ns (nsxOf nsid) = some n) (howner : n.owner = some cmd.fn) : exec (.formatNvm cmd nsid lbaf ses) s = .next (adminDone s
      ((s.chip.taken cmd).wipes cmd (wipeStop s (s.chip.taken cmd) [nsxOf nsid]) ((s.chip.taken cmd).startProgress (3 + ses) (nsxOf nsid)
        (if ses = 0 then 1 else 1 + ((s.chip.taken cmd).nsCblks [nsxOf nsid]).length) cmd [nsxOf nsid]))) := by
  have hattached : (s.chip.taken cmd).attached cmd.fn nsid = some n := by
    have htaken : (s.chip.taken cmd).ns (nsxOf nsid) = some n := hns
    simp only [Chip.attached, hid, if_false, htaken, howner, true_or, if_true]
  show execFormatNvm .. = _
  refine admin_next h ?_
  simp only [hattached, hall, hlbaf, if_false, Option.isSome_some, if_true, not_le.mpr hses, ne_eq, not_true_eq_false, List.cons_ne_nil,
    List.headD_cons]
  rw [show wipeStop (s.takes cmd) (s.chip.taken cmd) [nsxOf nsid] = wipeStop s (s.chip.taken cmd) [nsxOf nsid] from rfl]
  cases wipeStop s (s.chip.taken cmd) [nsxOf nsid] <;> rfl

end

/-! Sanitize (R312). -/

section
variable {s : State} {cmd : Cmd} {action : Nat} {i : Instr}

theorem exec_sanitize (hi : (action, i) ∈ [(1, Instr.sanitizeBlockErase cmd), (2, .sanitizeCryptoErase cmd)]) : exec i s = sanitize action cmd s := by
  simp only [List.mem_cons, Prod.mk.injEq, List.not_mem_nil, or_false] at hi
  rcases hi with ⟨rfl, rfl⟩ | ⟨rfl, rfl⟩ <;> rfl

theorem Chip.not_isPf {c : Chip} {f : Nat} (h : ¬ (c.func f).vf = 0) : (!c.isPf f) = true := by
  rw [Bool.not_eq_true', Bool.eq_false_iff, Ne, Chip.isPf_iff]
  exact h

theorem Chip.isPf_not {c : Chip} {f : Nat} (h : (c.func f).vf = 0) : ¬ (!c.isPf f) = true := by
  rw [Chip.isPf_iff.mpr h]
  exact Bool.false_ne_true

theorem sanitize_vf (h : AdminReady s cmd) (hvf : ¬ (s.chip.func cmd.fn).vf = 0) :
    sanitize action cmd s = .next (adminDone s ((s.chip.taken cmd).reply cmd ⟨0, 0x01, true⟩ 0 0)) :=
  admin_next h (if_pos (Chip.not_isPf hvf))

/-- A sanitize of a PF: what the checks of R312 and R315 say, or the record of its units and the end of the command. -/
theorem sanitize_pf (h : AdminReady s cmd) (hpf : (s.chip.func cmd.fn).vf = 0) : sanitize action cmd s = .next (adminDone s
    ((s.chip.taken cmd).wipes cmd (wipeStop s (s.chip.taken cmd) (s.chip.host.nss.map (·.1)))
      (((s.chip.taken cmd).startProgress action 0 (s.chip.map.cords.length + action) cmd []).reply cmd ⟨0, 0, false⟩ 0 0))) := by
  refine admin_next h ((if_neg (Chip.isPf_not hpf)).trans ?_)
  rw [show wipeStop (s.takes cmd) (s.chip.taken cmd) ((s.chip.taken cmd).host.nss.map (·.1)) =
    wipeStop s (s.chip.taken cmd) (s.chip.host.nss.map (·.1)) from rfl]
  cases wipeStop s (s.chip.taken cmd) (s.chip.host.nss.map (·.1)) <;> rfl

theorem exec_sanitizeOverwrite (h : AdminReady s cmd) : exec (.sanitizeOverwrite cmd) s = .next (adminDone s
    ((s.chip.taken cmd).reply cmd ⟨0, if (s.chip.func cmd.fn).vf = 0 then 0x02 else 0x01, true⟩ 0 0)) := by
  show execSanitizeOverwrite cmd s = _
  refine admin_next h ?_
  by_cases hpf : (s.chip.func cmd.fn).vf = 0
  · rw [show (s.chip.taken cmd).isPf cmd.fn = true from Chip.isPf_iff.mpr hpf, if_pos hpf]
    rfl
  · rw [show (s.chip.taken cmd).isPf cmd.fn = false from Bool.eq_false_iff.mpr (mt Chip.isPf_iff.mp hpf), if_neg hpf]
    rfl

/-- Exit Failure Mode of a failed sanitize: the record says that it stands no longer. -/
theorem exec_sanitizeExitFailureMode (h : AdminReady s cmd) (hpf : (s.chip.func cmd.fn).vf = 0) (hstate : s.chip.host.progress.state = 3)
    (haction : s.chip.host.progress.action ≤ 2) : exec (.sanitizeExitFailureMode cmd) s = .next (adminDone s
      (({ s.chip.taken cmd with host := { (s.chip.taken cmd).host with progress := { s.chip.host.progress with
        state := 0
        seq := s.chip.host.progress.seq + 1 } } } : Chip).reply cmd ⟨0, 0, false⟩ 0 0)) := by
  have hstopped : ¬ s.chip.host.progress.state = 1 := by omega
  have hfailed : (s.chip.taken cmd).host.progress.state = 3 ∧ (s.chip.taken cmd).host.progress.action ≤ 2 := ⟨hstate, haction⟩
  show execSanitizeExitFailureMode cmd s = _
  refine admin_next h ((if_neg (Chip.isPf_not hpf)).trans ((if_neg hstopped).trans ?_))
  rw [if_pos hfailed]
  rfl

end

/-! Units (R312-R314). -/

section
variable {s : State} {c : Chip} {done : Chip → Chip}

/-- The record after one more unit. -/
def Chip.unitStep (c : Chip) (st : Nat) : Chip :=
  { c with host := { c.host with progress := { c.host.progress with
    done := c.host.progress.done + 1
    seq := c.host.progress.seq + 1
    fails := 0
    state := st } } }

theorem Chip.unitDone_last (h : c.host.progress.total ≤ c.host.progress.done + 1) : c.unitDone done = done (c.unitStep 2) := by
  simp only [Chip.unitDone, Chip.unitStep, h, if_true]

theorem Chip.unitDone_earlier (h : c.host.progress.done + 1 < c.host.progress.total) : c.unitDone done = c.unitStep 1 := by
  simp only [Chip.unitDone, Chip.unitStep, not_le.mpr h, if_false]

theorem exec_unitDone_idle (h : s.chip.host.progress.state ≠ 1) (ok : Bool) :
    exec (.formatUnitDone ok) s = .next (goesOn s s.chip) ∧ exec (.sanitizeUnitDone ok) s = .next (goesOn s s.chip) := by
  refine ⟨?_, ?_⟩
  · show execFormatUnitDone ok s = _
    exact next_congr (congrArg (goesOn s) (if_pos (.inl h)))
  · show execSanitizeUnitDone ok s = _
    exact next_congr (congrArg (goesOn s) (if_pos (.inl h)))

theorem exec_formatUnitDone_first (hstate : s.chip.host.progress.state = 1) (haction : 3 ≤ s.chip.host.progress.action)
    (hready : s.chip.unitReady s.chip.host.progress.nss false = true) (hfirst : s.chip.host.progress.done = 0) (ok : Bool) :
    exec (.formatUnitDone ok) s = .next (goesOn s
      ((s.chip.host.progress.nss.foldl (fun c x => c.clearNs s.env x) s.chip).unitDone (fun c => c.formatEnd ⟨0, 0, false⟩))) := by
  have hruns : ¬ (s.chip.host.progress.state ≠ 1 ∨ s.chip.host.progress.action < 3 ∨
      (!s.chip.unitReady s.chip.host.progress.nss false) = true) := by
    rw [hready]
    simp only [Bool.not_true, Bool.false_eq_true, or_false]
    omega
  show execFormatUnitDone ok s = _
  exact next_congr (congrArg (goesOn s) ((if_neg hruns).trans (if_pos hfirst)))

theorem exec_sanitizeUnitDone_first (hstate : s.chip.host.progress.state = 1) (haction : s.chip.host.progress.action ≤ 2)
    (hready : s.chip.unitReady [] true = true) (hfirst : s.chip.host.progress.done = 0) (ok : Bool) :
    exec (.sanitizeUnitDone ok) s = .next (goesOn s ((s.chip.sanitizeMap s.env).unitDone Chip.sanitizeEnd)) := by
  have hruns : ¬ (s.chip.host.progress.state ≠ 1 ∨ 2 < s.chip.host.progress.action ∨ (!s.chip.unitReady [] true) = true) := by
    rw [hready]
    simp only [Bool.not_true, Bool.false_eq_true, or_false]
    omega
  show execSanitizeUnitDone ok s = _
  exact next_congr (congrArg (goesOn s) ((if_neg hruns).trans (if_pos hfirst)))

end

/-- Settles O47: each command on an image, a format or a sanitize ends at the first check that fails, or changes its record; a unit rewrites the record,
and the last one ends it. -/
theorem firmwareFormatAndSanitize : Obligations.FirmwareFormatAndSanitize := by
  refine ⟨fun s cmd off len ca fs keyid svn sig h => ?_, fun s cmd nsid lbaf ses n action ok => ?_⟩
  · intro c t ends placed meets slot good host
    have hserves : lifecycleRefuses (s.takes cmd) = false := h.2.2
    refine ⟨exec_firmwareImageDownload_misplaced h, fun hplace hmeets => ?_, fun hplace hapart => ?_, fun hca => ?_, fun hca hfs => ?_,
      fun hca hfs hbad => ?_, fun hca hfs hgood => ?_⟩
    · exact adminDone_of_eq (exec_firmwareImageDownload h hplace) (if_pos (overlaps_iff.mpr hmeets))
    · exact adminDone_of_eq (exec_firmwareImageDownload h hplace) (if_neg (mt overlaps_iff.mp hapart))
    · exact exec_firmwareCommit h (firmwareCommit_action hserves hca)
    · exact exec_firmwareCommit h (firmwareCommit_slot hserves hca hfs)
    · exact exec_firmwareCommit h (firmwareCommit_image hserves hca hfs hbad)
    · exact exec_firmwareCommit h (firmwareCommit_commits hserves hca hfs hgood)
  · intro c t p ends pf fresh
    refine ⟨fun h => ⟨exec_formatNvm_lbaf h, exec_formatNvm_ses h, fun hlbaf hses hall hid hns howner => ?_, fun i hi => ?_, ?_, fun hpf => ?_⟩, ?_⟩
    · have hformat := exec_formatNvm h hlbaf hses hall hid hns howner
      have hends {stop : Option (NStat × Nat)} (hstop : wipeStop s t [nsxOf nsid] = stop) := adminDone_of_eq hformat (congrArg (t.wipes cmd · _) hstop)
      have hsingle : [nsxOf nsid].any (fun x => (t.ns x).any (·.holdsSeal)) = n.holdsSeal := by
        rw [List.any_cons, List.any_nil, Bool.or_false, show t.ns (nsxOf nsid) = some n from hns]
        rfl
      have hopen (hseal : n.holdsSeal = false) : ¬ [nsxOf nsid].any (fun x => (t.ns x).any (·.holdsSeal)) = true :=
        Bool.eq_false_iff.mp (hsingle.trans hseal)
      refine ⟨fun hstate haction => ?_, fun hstate hseal => ?_, fun hstate hseal hhold => ?_, fun hstate hseal hhold => ?_⟩
      · exact hends (wipeStop_format hstate haction)
      · exact hends (wipeStop_sealed hstate (hsingle.trans hseal))
      · exact hends ((wipeStop_unsealed hstate (hopen hseal)).trans (if_pos hhold))
      · exact hends ((wipeStop_unsealed hstate (hopen hseal)).trans (if_neg hhold))
    · have hexec := exec_sanitize (s := s) hi
      refine ⟨fun hvf => hexec.trans (sanitize_vf h hvf), fun hpf hstate haction => ?_, fun hpf hstate hseals hhold => ?_⟩
      · exact adminDone_of_eq (hexec.trans (sanitize_pf h hpf)) (congrArg (t.wipes cmd · _) (wipeStop_sanitize hstate haction))
      · have hopen : ¬ (c.host.nss.map (·.1)).any (fun x => (t.ns x).any (·.holdsSeal)) = true := by
          simp only [List.any_map, List.any_eq_true, Option.any_eq_true, Function.comp_apply, not_exists, not_and, Bool.not_eq_true]
          exact hseals
        exact adminDone_of_eq (hexec.trans (sanitize_pf h hpf))
          (congrArg (t.wipes cmd · _) ((wipeStop_unsealed hstate hopen).trans (if_neg hhold)))
    · exact exec_sanitizeOverwrite h
    · exact exec_sanitizeExitFailureMode h hpf
    · refine ⟨fun hstate => exec_unitDone_idle hstate ok, fun hstate haction hready hfirst => ⟨fun hlast => ?_, fun hmore => ?_⟩,
        fun hstate haction hready hfirst hmore => ?_⟩
      · exact goesOn_of_eq (exec_formatUnitDone_first hstate haction hready hfirst ok) (Chip.unitDone_last hlast)
      · exact goesOn_of_eq (exec_formatUnitDone_first hstate haction hready hfirst ok) (Chip.unitDone_earlier hmore)
      · exact goesOn_of_eq (exec_sanitizeUnitDone_first hstate haction hready hfirst ok) (Chip.unitDone_earlier hmore)

end Sys2Proof.Machine
end

section
/-! SUPPORT. FN_CMD: the word that GO leaves, the order of R39 for a function that does not exist, and the commands that send it (R318, R505). -/

namespace Sys2Proof.Machine

/-! The register words. -/

section
variable {c : Chip} {e : Env} {f op : Nat}

/-- FN_CMD as GO leaves it: the operation runs (R505). -/
def Chip.fnAsked (c : Chip) (op f : Nat) : Chip := c.setReg Reg.fnCmd (2 ^ 31 + op * 2 ^ 28 + f)

theorem Chip.reg_fnAsked (hop : op < 8) (hf : f < 512) : (c.fnAsked op f).reg Reg.fnCmd = 2 ^ 31 + op * 2 ^ 28 + f := by
  rw [Chip.fnAsked, Chip.reg_setReg_self]
  omega

/-- OP of FN_CMD is the operation that was asked for. -/
theorem Chip.fnAsked_op (hop : op < 8) (hf : f < 512) : (c.fnAsked op f).fld Reg.fnCmd 30 28 = op := by
  rw [Chip.fld, Chip.reg_fnAsked hop hf, bitsOf]
  omega

/-- FN of FN_CMD is the function that was named. -/
theorem Chip.fnAsked_fn (hop : op < 8) (hf : f < 512) : (c.fnAsked op f).fld Reg.fnCmd 8 0 = f := by
  rw [Chip.fld, Chip.reg_fnAsked hop hf, bitsOf_low]
  omega

/-- An operation that ends shows its status, and GO reads 0 (R505). -/
theorem Chip.fnCmdEnd_eq (c : Chip) (st : Nat) : c.fnCmdEnd st =
    { (c.setReg Reg.fnCmdRes (2 ^ 31 + st)).setBit Reg.fnCmd 31 false with fn := { c.fn with cmdRunning := none } } := by
  rw [Chip.fnCmdEnd, Chip.setBit_fn, Chip.setReg_fn]

/-- While no operation runs, GO puts its word and starts (R505). -/
theorem Chip.fnCommand_asks (hidle : c.bit Reg.fnCmd 31 = false) (hop : op < 8) (hf : f < 512) : c.fnCommand e op f = (c.fnAsked op f).fnCmdGo e := by
  rw [Chip.fnCommand, if_neg (Bool.eq_false_iff.mp hidle), Nat.mod_eq_of_lt hop, Nat.mod_eq_of_lt hf, Chip.fnAsked]

/-- A check that fails ends the operation with its status. -/
theorem Chip.fnCmdGo_refused (hop : op < 8) (hf : f < 512) (h : (c.fnAsked op f).fnCmdCheck op f ≠ cstOk) :
    (c.fnAsked op f).fnCmdGo e = ((c.fnAsked op f).setReg Reg.fnCmdRes 0).fnCmdEnd ((c.fnAsked op f).fnCmdCheck op f) := by
  simp only [Chip.fnCmdGo, Chip.fnAsked_op hop hf, Chip.fnAsked_fn hop hf]
  exact if_pos h

/-- Where the function does not exist, no state of a function is tested before the limit (R39, R318). -/
theorem Chip.fnCmdCheck_beyond (c : Chip) (hop : op ≤ 5) (hf : 256 ≤ f) : c.fnCmdCheck op f = cstLimit := by
  have hdesc : (decide (5 < op) || decide (f < 256) &&
      (op == 4 && (c.func f).phase != .enabled || op == 5 && (c.func f).phase != .paused || (op == 2 || op == 3) && (c.func f).phase == .disabled)) = false := by
    rw [decide_eq_false (not_lt.mpr hop), decide_eq_false (not_lt.mpr hf), Bool.false_and, Bool.false_or]
  exact (firstFail_passes hdesc ..).trans (firstFail_fails (decide_eq_true hf) ..)

/-- A request for a 257th function ends with LIMIT (R318). -/
theorem Chip.fnCommand_beyond (hidle : c.bit Reg.fnCmd 31 = false) (hop : op ≤ 5) (hlo : 256 ≤ f) (hhi : f < 512) :
    c.fnCommand e op f = ((c.fnAsked op f).setReg Reg.fnCmdRes 0).fnCmdEnd cstLimit := by
  have hop8 : op < 8 := by omega
  have hlimit : (c.fnAsked op f).fnCmdCheck op f = cstLimit := Chip.fnCmdCheck_beyond _ hop hlo
  have hfails : (c.fnAsked op f).fnCmdCheck op f ≠ cstOk := by rw [hlimit]; decide
  rw [Chip.fnCommand_asks hidle hop8 hhi, Chip.fnCmdGo_refused hop8 hhi hfails, hlimit]

end

/-! The six commands. -/

section
variable {s : State} {f op : Nat} {i : Instr}

/-- A command that sends operation `op` of FN_CMD. -/
def IsFnCmd (f op : Nat) (i : Instr) : Prop :=
  (op, i) ∈ [(0, Instr.fnEnable f), (1, .fnDisable f), (2, .fnDrainReset f), (3, .fnSquashReset f), (4, .fnPause f), (5, .fnResume f)]

theorem IsFnCmd.cases (h : IsFnCmd f op i) : op = 0 ∧ i = .fnEnable f ∨ op = 1 ∧ i = .fnDisable f ∨ op = 2 ∧ i = .fnDrainReset f ∨
    op = 3 ∧ i = .fnSquashReset f ∨ op = 4 ∧ i = .fnPause f ∨ op = 5 ∧ i = .fnResume f := by
  simpa only [IsFnCmd, List.mem_cons, List.not_mem_nil, or_false, Prod.mk.injEq] using h

theorem IsFnCmd.op_le (h : IsFnCmd f op i) : op ≤ 5 := by
  have hcases := h.cases
  omega

/-- Each sends its operation, and a disable and a squash let what waits for items go on. -/
theorem exec_fnCmd (h : IsFnCmd f op i) : exec i s = .next
    (if op = 1 ∨ op = 3 then goesOn s (s.chip.fnCommand s.env op f) else { s with chip := s.chip.fnCommand s.env op f }) := by
  obtain ⟨rfl, rfl⟩ | ⟨rfl, rfl⟩ | ⟨rfl, rfl⟩ | ⟨rfl, rfl⟩ | ⟨rfl, rfl⟩ | ⟨rfl, rfl⟩ := h.cases
  · exact next_congr (if_neg (by decide)).symm
  · exact next_congr (if_pos (by decide)).symm
  · exact next_congr (if_neg (by decide)).symm
  · exact next_congr (if_pos (by decide)).symm
  · exact next_congr (if_neg (by decide)).symm
  · exact next_congr (if_neg (by decide)).symm

end

/-- Settles O49: the six commands send one word, and the limit is the first check that the function's number fails, so the operation ends there. -/
theorem fnCommandsBeyondTheFunctions : Obligations.FnCommandsBeyondTheFunctions := by
  intro s f op i hlo hhi hidle hi c d t
  have hends : c.fnCommand s.env op f = t := by
    rw [Chip.fnCommand_beyond hidle (IsFnCmd.op_le hi) hlo hhi, Chip.fnCmdEnd_eq, Chip.setReg_fn, Chip.fnAsked, Chip.setReg_fn, cstLimit]
  rw [exec_fnCmd hi, hends]

end Sys2Proof.Machine
end

section
/-! SUPPORT. Operations of the key store: what GO starts, how operations end, the entropy source and the anchors (R340-R351, R373, R505). -/

namespace Sys2Proof.Machine

/-! What GO finds and what an end leaves (R505). -/

section
variable {c : Chip} {s : State} {lc : Lifecycle} {op slot page index : Nat}

/-- KEY_CMD as GO leaves it: the operation runs and shows no status (R505). -/
def Chip.keyAsked (c : Chip) (op slot page index : Nat) : Chip :=
  (c.setReg Reg.keyCmd (op * 2 ^ 28 + slot * 2 ^ 16 + page * 2 ^ 7 + index * 8 + 2 ^ 31)).setReg Reg.keyCmdRes 0

/-- An operation that ends shows its slot and its status, and GO reads 0 (R505). -/
def Chip.keyEnds (c : Chip) (slot st : Nat) : Chip := (c.setReg Reg.keyCmdRes (2 ^ 31 + slot % 1024 * 65536 + st)).setBit Reg.keyCmd 31 false

/-- An operation that KEY_CMD asks for. -/
def keyAsk (op slot page index : Nat) : KeyJob := ⟨op, slot, page, index, [], false, false, true, none⟩

/-- Two words put in force change the register file alone. -/
theorem Chip.setReg_setReg_frame (c : Chip) (a v b w : Nat) : ∃ r, (c.setReg a v).setReg b w = { c with regs := r } := ⟨_, rfl⟩

theorem Chip.keyAsked_frame (c : Chip) (op slot page index : Nat) : ∃ r, c.keyAsked op slot page index = { c with regs := r } :=
  c.setReg_setReg_frame ..

@[simp] theorem Chip.keyAsked_key (c : Chip) (op slot page index : Nat) : (c.keyAsked op slot page index).key = c.key := by
  rw [Chip.keyAsked, Chip.setReg_key, Chip.setReg_key]

/-- The checks read no register word. -/
@[simp] theorem Chip.keyAsked_keyCheck (c : Chip) (lc : Lifecycle) (o k p i op slot page index : Nat) :
    (c.keyAsked o k p i).keyCheck lc op slot page index = c.keyCheck lc op slot page index := by
  obtain ⟨r, h⟩ := c.keyAsked_frame o k p i
  rw [h]
  rfl

theorem keyCommand_busy (h : s.chip.keyBusy = true) (op slot page index : Nat) : keyCommand op slot page index s = s := if_pos h

/-- While no operation runs, GO puts its word and starts (R505). -/
theorem keyCommand_idle (h : s.chip.keyBusy = false) (hslot : slot < 2048) (hpage : page < 512) (hindex : index < 16) :
    keyCommand op slot page index s =
      { s with chip := (s.chip.keyAsked op slot page index).keyStart s.fuse.lifecycle op slot page index true none } := by
  rw [keyCommand, if_neg (Bool.eq_false_iff.mp h), keyWord, Nat.mod_eq_of_lt hslot, Nat.mod_eq_of_lt hpage, Nat.mod_eq_of_lt hindex, Chip.keyAsked]

/-- GO writes register words, and the operation starts on them. -/
theorem keyCommand_idle_frame (h : s.chip.keyBusy = false) (hslot : slot < 2048) (hpage : page < 512) (hindex : index < 16) : ∃ r,
    keyCommand op slot page index s = { s with chip := Chip.keyStart { s.chip with regs := r } s.fuse.lifecycle op slot page index true none } := by
  obtain ⟨r, hr⟩ := s.chip.keyAsked_frame op slot page index
  exact ⟨r, by rw [keyCommand_idle h hslot hpage hindex, hr]⟩

/-- A job that KEY_CMD asks for is no job of an idle store. -/
theorem Chip.keyAsk_not_mem (h : c.keyBusy = false) : keyAsk op slot page index ∉ c.key.jobs :=
  fun hmem => Bool.eq_false_iff.mp h (List.any_eq_true.mpr ⟨_, hmem, rfl⟩)

/-- An operation that ends at once leaves the jobs that run. -/
theorem Chip.keyFinish_keyAsk (h : c.keyBusy = false) (st : Nat) : c.keyFinish (keyAsk op slot page index) st = c.keyEnds slot st := by
  rw [Chip.keyFinish, List.erase_of_not_mem (Chip.keyAsk_not_mem h)]
  rfl

end

/-! What an operation starts (R340, R344, R346, R347). -/

section
variable {c : Chip} {lc : Lifecycle} {op slot page index : Nat}

/-- A check that refuses ends the operation with its status. -/
theorem Chip.keyStart_refused (h : c.keyCheck lc op slot page index ≠ 0x00) :
    c.keyStart lc op slot page index true none = c.keyFinish (keyAsk op slot page index) (c.keyCheck lc op slot page index) := if_pos h

theorem length_sliceBytes (bs : List Byte) (o n : Nat) : (sliceBytes bs o n).length = n := by
  rw [sliceBytes, List.length_append, List.length_replicate, List.length_take]
  omega

/-- A fresh key has the bytes of its type (R341). -/
theorem Chip.length_freshKey (c : Chip) (type : Nat) : (c.freshKey type).1.length = keyBytes type := length_sliceBytes ..

/-- The free user slot that a generation takes (R343). -/
def Chip.userSlotFree (c : Chip) : Nat :=
  128 + kthFree (c.userSlotsUsed.map (· - 128)) 0 (c.pick (896 - (c.userSlotsUsed.map (· - 128)).length)).1

/-- A generation takes a slot and a fresh key, and waits for the vault: the slots are as they were (R344, R345). -/
theorem Chip.keyStart_generates (hok : c.keyCheck lc op slot page index = 0x00) (hop : op = 0 ∨ op = 1) :
    ∃ k key n, key.length = (if op = 0 then 64 else 32) ∧ (256 ≤ page → k = (page - 256) * 16 + index) ∧ (page < 256 → 128 ≤ k) ∧
      c.keyStart lc op slot page index true none = { c with
        key := { c.key with jobs := c.key.jobs ++ [{ keyAsk op slot page index with slot := k, key := key, drained := true }] }
        free := n } := by
  have hle : op ≤ 1 := by omega
  have htype : keyBytes (op + 1) = if op = 0 then 64 else 32 := by obtain rfl | rfl := hop <;> rfl
  by_cases hsecure : 256 ≤ page
  · refine ⟨_, (c.freshKey (op + 1)).1, c.free + 1, (Chip.length_freshKey ..).trans htype, fun _ => rfl,
      fun hlt => absurd hsecure (not_le.mpr hlt), ?_⟩
    simp only [Chip.keyStart, hok, cstOk, ne_eq, not_true, if_false, hle, if_true, hsecure]
    rfl
  · have huser : ¬ op + 1 = 3 := by omega
    have hk : 128 ≤ c.userSlotFree := Nat.le_add_right ..
    refine ⟨c.userSlotFree, (Chip.freshKey { c with free := c.free + 1 } (op + 1)).1, c.free + 2, (Chip.length_freshKey ..).trans htype,
      fun h => absurd h hsecure, fun _ => hk, ?_⟩
    simp only [Chip.keyStart, hok, cstOk, ne_eq, not_true, if_false, hle, if_true, hsecure, huser]
    rfl

/-- An operation that waits until its slot has drained (R347). -/
def Chip.keyWaits (c : Chip) (j : KeyJob) : Chip :=
  { c.setSlot j.slot { c.slot j.slot with state := .draining } with key := { (c.setSlot j.slot { c.slot j.slot with state := .draining }).key with
    jobs := c.key.jobs ++ [j] } }

theorem Chip.keyWaits_slot (c : Chip) (j : KeyJob) (k : Nat) :
    (c.keyWaits j).slot k = if k = j.slot then { c.slot j.slot with state := .draining } else c.slot k := by
  rw [← Chip.slot_setSlot]
  rfl

/-- An erase of a slot drains it (R340, R347). -/
theorem Chip.keyStart_erases_slot (hok : c.keyCheck lc 4 slot page index = 0x00) :
    c.keyStart lc 4 slot page index true none = c.keyWaits (keyAsk 4 slot page index) := by
  simp only [Chip.keyStart, hok, cstOk, ne_eq, not_true, if_false]
  rfl

/-- What is erased or rewritten by its index is there (R39). -/
theorem Chip.keyCheck_named (hok : c.keyCheck lc op slot page index = 0x00) (hop : op = 2 ∨ op = 3) : ∃ k, c.pageSlot page index = some k := by
  have hall := firstFail_eq_ok (by simp [cstBad, cstLimit, cstHold, cstKey, cstBusy, cstOk]) hok
  simp only [List.forall_mem_cons, Bool.or_eq_false_iff] at hall
  obtain ⟨⟨-, hfull⟩, -⟩ := hall
  obtain rfl | rfl := hop
  · simpa [Option.isSome_iff_exists] using hfull
  · simpa [Option.isSome_iff_exists] using hfull

/-- An erase of an index drains the slot that it names (R347). -/
theorem Chip.keyStart_erases_index {k : Nat} (hok : c.keyCheck lc 2 slot page index = 0x00) (hk : c.pageSlot page index = some k) :
    c.keyStart lc 2 slot page index true none = c.keyWaits { keyAsk 2 slot page index with slot := k } := by
  simp only [Chip.keyStart, hok, cstOk, hk, ne_eq, not_true, if_false]
  rfl

/-- A rewrite drains the slot that its index names, and holds a fresh key for it (R347). -/
theorem Chip.keyStart_rewrites {k : Nat} (hok : c.keyCheck lc 3 slot page index = 0x00) (hk : c.pageSlot page index = some k) :
    c.keyStart lc 3 slot page index true none = Chip.keyWaits { c with free := c.free + 1 }
      { keyAsk 3 slot page index with slot := k, key := (c.freshKey (c.slot k).type).1 } := by
  simp only [Chip.keyStart, hok, cstOk, hk, ne_eq, not_true, if_false]
  rfl

/-- A reload places keys and starts no job (R340, R345). -/
theorem Chip.reloadPage_jobs (c : Chip) (page : Nat) : (c.reloadPage page).key.jobs = c.key.jobs := by
  have hplace (d : Chip) (v : VaultKey) :
      ((d.setSlot v.slot ⟨.valid, v.type, v.key, 0, v.resv, v.resv⟩).setPage v.page v.index (some v.slot)).key.jobs = d.key.jobs := by
    rw [Chip.setPage]
    split <;> rfl
  have hfold (l : List VaultKey) : ∀ d : Chip, (l.foldl (fun c v =>
      (c.setSlot v.slot ⟨.valid, v.type, v.key, 0, v.resv, v.resv⟩).setPage v.page v.index (some v.slot)) d).key.jobs = d.key.jobs := by
    induction l with
    | nil => exact fun _ => rfl
    | cons v l ih => exact fun d => (ih _).trans (hplace d v)
  exact hfold _ c

/-- A reload is done at once (R340). -/
theorem Chip.keyStart_reloads (hok : c.keyCheck lc 5 slot page index = 0x00) :
    c.keyStart lc 5 slot page index true none = (c.reloadPage page).keyFinish (keyAsk 5 slot page index) 0x00 := by
  have hgen : ¬ 5 ≤ 1 := by decide
  simp only [Chip.keyStart, hok, cstOk, ne_eq, not_true, if_false, hgen, if_true, keyAsk]

end

/-! The commands of KEY_CMD (R340-R347). -/

section
variable {s : State} {op slot page index : Nat} {i : Instr}

/-- A command that sends operation `op` of KEY_CMD for an index of a page. -/
def IsKeyCmd (page index op : Nat) (i : Instr) : Prop :=
  (op, i) ∈ [(0, Instr.keyGenerateXts page index), (1, .keyGenerateGcm page index), (2, .keyEraseIndex page index), (3, .keyRewrite page index)]

theorem exec_keyCmd (h : IsKeyCmd page index op i) : exec i s = .next (keyCommand op 0 page index s) := by
  simp only [IsKeyCmd, List.mem_cons, List.not_mem_nil, or_false, Prod.mk.injEq] at h
  obtain ⟨rfl, rfl⟩ | ⟨rfl, rfl⟩ | ⟨rfl, rfl⟩ | ⟨rfl, rfl⟩ := h
  · rfl
  · rfl
  · rfl
  · rfl

theorem Chip.keyAsked_keyBusy (c : Chip) (op slot page index : Nat) : (c.keyAsked op slot page index).keyBusy = c.keyBusy := by
  rw [Chip.keyBusy, Chip.keyAsked_key, Chip.keyBusy]

/-- An operation that a check refuses ends at once with its status. -/
theorem keyCommand_refused (hidle : s.chip.keyBusy = false) (hslot : slot < 2048) (hpage : page < 512) (hindex : index < 16)
    (hst : s.chip.keyCheck s.fuse.lifecycle op slot page index ≠ 0x00) : keyCommand op slot page index s =
      { s with chip := (s.chip.keyAsked op slot page index).keyEnds slot (s.chip.keyCheck s.fuse.lifecycle op slot page index) } := by
  have hrefused := Chip.keyStart_refused (c := s.chip.keyAsked op slot page index) ((Chip.keyAsked_keyCheck ..).trans_ne hst)
  rw [keyCommand_idle hidle hslot hpage hindex, hrefused, Chip.keyFinish_keyAsk ((Chip.keyAsked_keyBusy ..).trans hidle), Chip.keyAsked_keyCheck]

/-- A reload whose checks pass ends at once with the page's keys in place. -/
theorem keyCommand_reloads (hidle : s.chip.keyBusy = false) (hpage : page < 512) (hst : s.chip.keyCheck s.fuse.lifecycle 5 0 page 0 = 0x00) :
    keyCommand 5 0 page 0 s = { s with chip := ((s.chip.keyAsked 5 0 page 0).reloadPage page).keyEnds 0 0x00 } := by
  have hbusy : ((s.chip.keyAsked 5 0 page 0).reloadPage page).keyBusy = false := by
    rw [Chip.keyBusy, Chip.reloadPage_jobs, Chip.keyAsked_key, ← Chip.keyBusy, hidle]
  rw [keyCommand_idle hidle (by decide) hpage (by decide), Chip.keyStart_reloads ((Chip.keyAsked_keyCheck ..).trans hst), Chip.keyFinish_keyAsk hbusy]

end

/-! A drained slot and the vault (R345, R347). -/

section
variable {c : Chip} {j : KeyJob} {k : Nat}

theorem Chip.keyDrained_used (hj : c.key.jobs.find? (fun y => y.slot == k && !y.drained) = some j) (hused : (c.slot k).users ≠ 0) :
    c.keyDrained k = c := by
  simp only [Chip.keyDrained, hj, if_pos hused]

/-- The jobs after the slot of one of them has drained. -/
def Chip.keyMarked (c : Chip) (j : KeyJob) : Chip :=
  { c with key := { c.key with jobs := updateWhere (fun y => y == j) (fun y => { y with drained := true }) c.key.jobs } }

theorem Chip.keyDrained_rewrite (hj : c.key.jobs.find? (fun y => y.slot == k && !y.drained) = some j) (hfree : (c.slot k).users = 0) (hop : j.op = 3) :
    c.keyDrained k = (c.keyMarked j).setSlot k { c.slot k with key := j.key, ctr := 0, resv := gcmBlock } := by
  simp only [Chip.keyDrained, hj, if_neg (not_not.mpr hfree), if_pos hop, Chip.keyMarked]

theorem Chip.keyDrained_erase (hj : c.key.jobs.find? (fun y => y.slot == k && !y.drained) = some j) (hfree : (c.slot k).users = 0) (hop : j.op ≠ 3) :
    c.keyDrained k = { (c.keyMarked j).setSlot k KeySlot.empty with key := { ((c.keyMarked j).setSlot k KeySlot.empty).key with
      pages := ((c.keyMarked j).setSlot k KeySlot.empty).key.pages.filter (fun p => p.2 != k + 1) } } := by
  simp only [Chip.keyDrained, hj, if_neg (not_not.mpr hfree), if_neg hop, Chip.keyMarked]

theorem Chip.vaultUpdated_idle (hj : c.key.jobs.find? (fun y => y.drained && !y.vaulted) = none) : c.vaultUpdated = c := by
  simp only [Chip.vaultUpdated, hj]

/-- The store once a generation's slot is VALID and its index names it, the vault as it was (R345). -/
def Chip.keyGenerated (c : Chip) (j : KeyJob) : Chip :=
  (c.setSlot j.slot ⟨.valid, if 256 ≤ j.page then 3 else j.op + 1, j.key, 0, 0, gcmBlock⟩).setPage j.page j.index (some j.slot)

theorem Chip.vaultUpdated_generation (hj : c.key.jobs.find? (fun y => y.drained && !y.vaulted) = some j) (hop : j.op ≤ 1) :
    c.vaultUpdated = ({ c.keyGenerated j with key := { (c.keyGenerated j).key with
      vault := vaultDrop (c.keyGenerated j).key.vault j.slot ++
        [⟨j.page, j.index, j.slot, if 256 ≤ j.page then 3 else j.op + 1, j.key, gcmBlock⟩] } } : Chip).keyFinish j 0x00 := by
  simp only [Chip.vaultUpdated, hj, if_pos hop, cstOk, Chip.keyGenerated]

theorem Chip.vaultUpdated_erase (hj : c.key.jobs.find? (fun y => y.drained && !y.vaulted) = some j) (hop : j.op = 2 ∨ j.op = 4) :
    c.vaultUpdated = ({ c with key := { c.key with vault := vaultDrop c.key.vault j.slot } } : Chip).keyFinish j 0x00 := by
  have hgen : ¬ j.op ≤ 1 := by omega
  have hrewrite : ¬ j.op = 3 := by omega
  have hreserve : ¬ j.op = 6 := by omega
  simp only [Chip.vaultUpdated, hj, if_neg hgen, if_neg hrewrite, if_neg hreserve, cstOk]

end

/-! Anchors (R373). -/

section
variable {s : State} {acc : Access} {a : Nat} {v : Word}

/-- What an access shows. -/
def State.shows (t : State) (st : Nat) : State := { t with chip := { t.chip with resp := ⟨0, st⟩ } }

/-- Anchor `a` programmed from its staged words, the last of them `v`. -/
def State.anchored (s : State) (a : Nat) (v : Word) : State :=
  { s with
    fuse := { s.fuse with anchors := Tab.set (fun _ => []) s.fuse.anchors a ((List.range 24).flatMap (fun i =>
      leBytes 4 (Tab.get (fun _ => 0) (Tab.set (fun _ => 0) s.chip.key.anchorWords (a * 32 + 23) v.toNat) (a * 32 + i)))) }
    chip := { s.chip with key := { s.chip.key with anchorWords := Tab.set (fun _ => 0) s.chip.key.anchorWords (a * 32 + 23) v.toNat } } }

theorem keyAnchorWrite_normal (h : acc.secure = false) :
    keyAnchorWrite acc a v s = State.shows { s with chip := s.chip.raise 304 cstBus 0xFFFF 0 0 } cstBus := if_pos (by rw [h]; rfl)

/-- The secure world's write, by the lifecycle and the anchor. -/
theorem keyAnchorWrite_secure (h : acc.secure = true) (hwho : acc.who < 8) : keyAnchorWrite acc a v s =
    if s.fuse.lifecycle ≠ .blank ∧ s.fuse.lifecycle ≠ .provisioned then s.shows cstOk
    else if s.fuse.anchor a ≠ [] ∨ 8 ≤ a then s.shows cstBad else (s.anchored a v).shows cstOk := by
  have hreaches : ¬ (!acc.secure || decide (8 ≤ acc.who)) = true := by simp [h, hwho]
  exact if_neg hreaches

end

/-- Settles O50: GO starts what the checks let pass, each operation ends by its kind, and an anchor is written in the order of its checks. -/
theorem keyStore : Obligations.KeyStore := by
  refine ⟨fun s page index slot op i hpage hindex hslot hi => ?_, fun s k a j ok acc v => ?_⟩
  · intro c lc asked ends st
    have hexec : exec i s = .next (keyCommand op 0 page index s) := exec_keyCmd hi
    have hasked (o k p x : Nat) : asked o k p x = c.keyAsked o k p x := by rw [Chip.keyAsked]
    have hends (d : Chip) (k x : Nat) : ends d k x = d.keyEnds k x := by rw [Chip.keyEnds]
    simp only [hasked, hends]
    refine ⟨fun hbusy => ?_, fun hidle => ⟨fun hst => ?_, fun hst => ?_, fun hst => ?_, fun hst hop => ?_, fun hst hop => ?_, fun hst hop => ?_,
      fun hst => ?_⟩⟩
    · exact ⟨hexec.trans (next_congr (keyCommand_busy hbusy ..)), next_congr (keyCommand_busy hbusy ..), next_congr (keyCommand_busy hbusy ..)⟩
    · exact hexec.trans (next_congr (keyCommand_refused hidle (by decide) hpage hindex hst))
    · exact next_congr (keyCommand_refused hidle hslot (by decide) (by decide) hst)
    · obtain ⟨r, hgo⟩ := keyCommand_idle_frame (op := 4) hidle hslot (page := 0) (by decide) (index := 0) (by decide)
      rw [Chip.keyStart_erases_slot (c := { c with regs := r }) hst] at hgo
      refine ⟨_, next_congr hgo, ?_, rfl, rfl, rfl, fun j hj => ?_⟩
      · exact (Chip.keyWaits_slot ..).trans (if_pos rfl)
      · exact (Chip.keyWaits_slot ..).trans (if_neg hj)
    · obtain ⟨r, hgo⟩ := keyCommand_idle_frame (op := op) hidle (slot := 0) (by decide) hpage hindex
      obtain ⟨k, key, n, hlen, hsecure, huser, hstart⟩ := Chip.keyStart_generates (c := { c with regs := r }) hst hop
      rw [hstart] at hgo
      exact ⟨_, k, key, hexec.trans (next_congr hgo), hlen, rfl, rfl, rfl, hsecure, huser⟩
    · obtain rfl := hop
      obtain ⟨k, hk⟩ := Chip.keyCheck_named hst (.inl rfl)
      obtain ⟨r, hgo⟩ := keyCommand_idle_frame (op := 2) hidle (slot := 0) (by decide) hpage hindex
      rw [Chip.keyStart_erases_index (c := { c with regs := r }) hst hk] at hgo
      exact ⟨_, k, hk, hexec.trans (next_congr hgo), (Chip.keyWaits_slot ..).trans (if_pos rfl), rfl⟩
    · obtain rfl := hop
      obtain ⟨k, hk⟩ := Chip.keyCheck_named hst (.inr rfl)
      obtain ⟨r, hgo⟩ := keyCommand_idle_frame (op := 3) hidle (slot := 0) (by decide) hpage hindex
      rw [Chip.keyStart_rewrites (c := { c with regs := r }) hst hk] at hgo
      exact ⟨_, k, _, hk, hexec.trans (next_congr hgo), (Chip.keyWaits_slot ..).trans (if_pos rfl), rfl⟩
    · exact next_congr (keyCommand_reloads hidle hpage hst)
  · intro c drained
    have hdrain {d : Chip} (h : c.keyDrained k = d) : exec (.keySlotDrained k) s = .next { s with chip := d } := h ▸ rfl
    have hvault {d : Chip} (h : c.vaultUpdated = d) : exec .keyVaultUpdated s = .next { s with chip := d } := h ▸ rfl
    refine ⟨fun hj hused => hdrain (Chip.keyDrained_used hj hused), fun hj hfree => ⟨fun hop => hdrain (Chip.keyDrained_rewrite hj hfree hop),
      fun hop => hdrain (Chip.keyDrained_erase hj hfree hop)⟩, fun hj => hvault (Chip.vaultUpdated_idle hj),
      fun hj hop => hvault (Chip.vaultUpdated_generation hj hop), fun hj hop => hvault (Chip.vaultUpdated_erase hj hop), rfl, ?_⟩
    intro shows words put
    have hanchor {t : State} (h : keyAnchorWrite acc a v s = t) : exec (.keyAnchorWrite acc a v) s = .next t := next_congr h
    refine ⟨fun hsec => hanchor (keyAnchorWrite_normal hsec), fun hsec hwho hblank hprov => ?_,
      fun hsec hwho hlife => ⟨fun ha hset => ?_, fun ha hfree => ?_⟩⟩
    · exact hanchor ((keyAnchorWrite_secure hsec hwho).trans (if_pos ⟨hblank, hprov⟩))
    · exact hanchor ((keyAnchorWrite_secure hsec hwho).trans ((if_neg (by tauto)).trans (if_pos (.inl hset))))
    · exact hanchor ((keyAnchorWrite_secure hsec hwho).trans ((if_neg (by tauto)).trans (if_neg (by simp [hfree, ha]))))

end Sys2Proof.Machine
end

section
/-! SUPPORT. The seal engine: strikes, requests for a strike, signatures, and the records of the seal log (R364-R368). -/

namespace Sys2Proof.Machine

/-! Strikes at a boundary (R367). -/

section
variable {s : State}

/-- A command that acts on the controller under a condition alone. -/
theorem onChip_if_holds {p : Chip → Bool} (h : p s.chip = true) (f : Chip → Chip) :
    onChip (fun c => if p c then f c else c) s = .next { s with chip := f s.chip } :=
  next_congr (congrArg (fun d => { s with chip := d }) (if_pos h))

theorem onChip_if_fails {p : Chip → Bool} (h : p s.chip = false) (f : Chip → Chip) : onChip (fun c => if p c then f c else c) s = .next s :=
  next_congr (congrArg (fun d => { s with chip := d }) (if_neg (Bool.eq_false_iff.mp h)))

theorem exec_epochStrikePeriodic_due (hready : s.chip.sealReady = true) (hdue : s.chip.periodDue = true) :
    exec .epochStrikePeriodic s = .next { s with chip := (s.chip.strike s.env s.chip.strikeDue).2 } :=
  onChip_if_holds (p := fun c => c.sealReady && c.periodDue) (Bool.and_eq_true_iff.mpr ⟨hready, hdue⟩) (fun c => (c.strike s.env c.strikeDue).2)

theorem exec_epochStrikePeriodic_not (h : s.chip.sealReady = false ∨ s.chip.periodDue = false) : exec .epochStrikePeriodic s = .next s :=
  onChip_if_fails (p := fun c => c.sealReady && c.periodDue) (Bool.and_eq_false_iff.mpr h) (fun c => (c.strike s.env c.strikeDue).2)

theorem exec_epochStrikeRequested_due (hready : s.chip.sealReady = true) (hdue : s.chip.strikeDue = true) :
    exec .epochStrikeRequested s = .next { s with chip := (s.chip.strike s.env true).2 } :=
  onChip_if_holds (p := fun c => c.sealReady && c.strikeDue) (Bool.and_eq_true_iff.mpr ⟨hready, hdue⟩) (fun c => (c.strike s.env true).2)

theorem exec_epochStrikeRequested_not (h : s.chip.sealReady = false ∨ s.chip.strikeDue = false) : exec .epochStrikeRequested s = .next s :=
  onChip_if_fails (p := fun c => c.sealReady && c.strikeDue) (Bool.and_eq_false_iff.mpr h) (fun c => (c.strike s.env true).2)

end

/-! A request for a strike (R368). -/

section
variable {c : Chip} {t : Nat}

/-- A tick less than two ahead is refused before the strike that waits is looked at (R39). -/
theorem Chip.strikeRequest_early (h : t < c.tick + 2) : c.strikeRequest t = c.setReg Reg.sealStrikeStat 0x05 := by
  have hbad (l : List (Bool × Nat)) : firstFail ((decide (t < c.tick + 2), cstBad) :: l) = 0x05 := firstFail_fails (decide_eq_true h) ..
  simp only [Chip.strikeRequest, hbad, cstOk]
  exact if_neg (by decide)

theorem Chip.strikeRequest_busy (h : c.tick + 2 ≤ t) (hwaits : c.sealer.strike ≠ none) : c.strikeRequest t = c.setReg Reg.sealStrikeStat 0x01 := by
  have hbusy : firstFail [(decide (t < c.tick + 2), cstBad), (c.sealer.strike.isSome, cstBusy)] = 0x01 :=
    (firstFail_passes (decide_eq_false (not_lt.mpr h)) ..).trans (firstFail_fails (Option.isSome_iff_ne_none.mpr hwaits) ..)
  simp only [Chip.strikeRequest, hbusy, cstOk]
  exact if_neg (by decide)

theorem Chip.strikeRequest_waits (h : c.tick + 2 ≤ t) (hfree : c.sealer.strike = none) : c.strikeRequest t =
    { c.setReg Reg.sealStrikeStat 0x00 with sealer := { (c.setReg Reg.sealStrikeStat 0x00).sealer with
      strike := some t
      strikeSid := none } } := by
  have hok : firstFail [(decide (t < c.tick + 2), cstBad), (c.sealer.strike.isSome, cstBusy)] = 0x00 :=
    (firstFail_passes (decide_eq_false (not_lt.mpr h)) ..).trans (firstFail_passes (by rw [hfree]; rfl) ..)
  simp only [Chip.strikeRequest, hok, cstOk, if_true]

end

section
variable {s : State} {acc : Access} {v h : Word} {rl rh : RegRow} {i j : Nat}

/-- The secure world reaches the words of the hub blocks up to the secure ones (R27). -/
theorem target_secure_block (s : State) (hsec : acc.secure = true) {a : Nat} (ha : a < 0x400000) (h4 : a % 4 = 0) (write : Bool) :
    target s acc a 4 write = .word := by
  have habsent : absentAt s.env.part a = false := by grind [absentAt]
  have hhub : a < 0x20000000 := by omega
  have hreg : regTarget acc a 4 = .word := by grind [regTarget]
  simp [target, habsent, hhub, hreg]

/-- A write of the low word commits with the held high word and requests the strike (R30, R368). -/
theorem writeWord_sealStrike (hfl : findReg Reg.sealStrikeLo = some (rl, i)) (hfh : findReg (Reg.sealStrikeLo + 4) = some (rh, j))
    (hheld : Tab.get (fun _ => none) s.chip.regs.wrHold (holdKey acc Reg.sealStrikeLo) = some h) :
    writeWord acc Reg.sealStrikeLo v.toNat s = chipDo (fun c => c.strikeRequest ((h.toNat * 2 ^ 32 + v.toNat) % 2 ^ 48))
      (plainWrite rl Reg.sealStrikeLo v.toNat (plainWrite rh (Reg.sealStrikeLo + 4) h.toNat (s.holding (holdKey acc Reg.sealStrikeLo) none))) := by
  have hrow : (findReg Reg.sealStrikeLo).map (fun x => x.1.half) = some .lo := by decide
  have hlo : rl.half = .lo := by simpa only [hfl, Option.map_some, Option.some.injEq] using hrow
  have hplain : windowAt Reg.sealStrikeLo = .none := by decide
  have hen : Reg.sealStrikeLo ≠ Reg.logTyEnLo := by decide
  simp only [writeWord, hplain, hfl, hlo, hfh, writeLow, hheld, highPart, if_neg hen, wideAct, if_true]
  rfl

theorem exec_sealStrikeRequest (hwho : acc.who < 8) (hsec : acc.secure = true) (hfl : findReg Reg.sealStrikeLo = some (rl, i))
    (hfh : findReg (Reg.sealStrikeLo + 4) = some (rh, j))
    (hheld : Tab.get (fun _ => none) s.chip.regs.wrHold (holdKey acc Reg.sealStrikeLo) = some h) :
    exec (.sealStrikeRequest acc v) s = .next (answer 0 0x00 (chipDo (fun c => c.strikeRequest ((h.toNat * 2 ^ 32 + v.toNat) % 2 ^ 48))
      (plainWrite rl Reg.sealStrikeLo v.toNat (plainWrite rh (Reg.sealStrikeLo + 4) h.toNat (s.holding (holdKey acc Reg.sealStrikeLo) none))))) := by
  rw [← writeWord_sealStrike hfl hfh hheld, ← access_write_word hwho (target_secure_block s hsec (by decide) (by decide) true)]
  rfl

end

/-! Signatures (R368). -/

section
variable {s : State} {c : Chip} {x : Nat × Nat × Nat × Bool} {rest : List (Nat × Nat × Nat × Bool)}

theorem Chip.signEpoch_none (h : c.sealer.signing = []) : c.signEpoch = c := by
  simp only [Chip.signEpoch, h]

theorem Chip.signEpoch_keyless (h : c.sealer.signing = x :: rest) (hkey : (c.slot 1).state ≠ .valid) : c.signEpoch = c := by
  simp only [Chip.signEpoch, h, if_pos hkey]

theorem length_beBytes (n v : Nat) : (beBytes n v).length = n := by
  rw [beBytes, List.length_reverse, leBytes_length]

theorem length_signatureBlock (epoch seq : Nat) (sig : List Byte) : (signatureBlock epoch seq sig).length = 128 := by
  simp only [signatureBlock, List.length_append, length_beBytes, length_sliceBytes]

/-- What is signed is the digest of the record's bytes, under slot 1. -/
def Chip.epochSignature (c : Chip) (seq : Nat) : List Byte :=
  Config.ecdsaSign (c.slot 1).key (Config.sha384 (((c.sealer.log.find? (fun r => r.seq == seq)).map (·.bytes)).getD [])) c.free

theorem Chip.raise_sealer (c : Chip) (n code fn a0 a1 : Nat) : (c.raise n code fn a0 a1).sealer = c.sealer := by
  obtain ⟨o, r, t, k, h, -⟩ := c.raise_frame n code fn a0 a1
  rw [h]

/-- The signature stands with its record, and the next record that waits is the oldest. -/
theorem Chip.signEpoch_signs (h : c.sealer.signing = x :: rest) (hkey : (c.slot 1).state = .valid) : c.signEpoch.sealer = { c.sealer with
    signing := rest
    log := c.sealer.log.map (fun r => if r.seq = x.1 then { r with sig := some (signatureBlock x.2.1 x.1 (c.epochSignature x.1)) } else r) } := by
  have hvalid : ¬ (c.slot 1).state ≠ .valid := not_not.mpr hkey
  simp only [Chip.signEpoch, h, if_neg hvalid, Chip.raise_sealer, updateWhere, beq_iff_eq, Chip.epochSignature]

/-- An epoch that is not signed leaves everything as it was. -/
theorem exec_epochSigned_idle (h : s.chip.signEpoch = s.chip) : exec .epochSigned s = .next s := by
  show execEpochSigned s = _
  simp only [execEpochSigned, onChip, h, lt_irrefl, false_and, if_false]
  cases s.chip.sealer.signing with
  | nil => rfl
  | cons => cases s.chip.sealer.strikeSid with
    | none => rfl
    | some => rfl

/-- A signature that no snapshot waits for. -/
theorem exec_epochSigned_alone (h : s.chip.sealer.strikeSid = none) : exec .epochSigned s = .next { s with chip := s.chip.signEpoch } := by
  show execEpochSigned s = _
  simp only [execEpochSigned, onChip, h]
  cases s.chip.sealer.signing with
  | nil => rfl
  | cons => rfl

end

/-! Records (R364-R366). -/

section
variable {c : Chip} {e : Env} {time : Nat} {b : RecBody}

/-- What a record begins with: its magic, version, kind, flags and number of tags, and its SEQ (R364). -/
def recordStart (seq : Nat) (b : RecBody) : List Byte :=
  [0x5A, 0x59, 0x4E, 0x31, 0x01, BitVec.ofNat 8 b.kind, BitVec.ofNat 8 b.flags, BitVec.ofNat 8 b.tags.length] ++ beBytes 8 seq

theorem recordStart_begins_recordHead (e : Env) (x : SealState) (time : Nat) (b : RecBody) : recordStart x.seq b <+: recordHead e x time b := by
  have hmagic : beBytes 4 0x5A594E31 = [0x5A, 0x59, 0x4E, 0x31] := by decide
  have hversion : beBytes 1 1 = [0x01] := by decide
  have hbyte (v : Nat) : beBytes 1 v = [BitVec.ofNat 8 v] := rfl
  unfold recordStart recordHead
  rw [hmagic, hversion, hbyte b.kind, hbyte b.flags, hbyte b.tags.length]
  simp only [List.append_assoc, List.cons_append, List.nil_append, List.cons_prefix_cons, true_and]
  exact List.prefix_append ..

/-- The bytes that are appended: the head and its MAC under slot 0 (R366). -/
def Chip.sealBytes (c : Chip) (e : Env) (time : Nat) (b : RecBody) : List Byte :=
  recordHead e c.sealer time b ++ recordMac (c.slot 0).key e c.sealer.seq (recordHead e c.sealer time b)

theorem Chip.sealBytes_begins (c : Chip) (e : Env) (time : Nat) (b : RecBody) : (c.sealBytes e time b).take 8 =
      [0x5A, 0x59, 0x4E, 0x31, 0x01, BitVec.ofNat 8 b.kind, BitVec.ofNat 8 b.flags, BitVec.ofNat 8 b.tags.length] ∧
    ((c.sealBytes e time b).drop 8).take 8 = beBytes 8 c.sealer.seq := by
  obtain ⟨rest, hrest⟩ := (recordStart_begins_recordHead e c.sealer time b).trans (List.prefix_append _ (recordMac (c.slot 0).key e c.sealer.seq _))
  rw [Chip.sealBytes, ← hrest, recordStart, List.append_assoc]
  exact ⟨List.take_left' rfl, List.take_left' (length_beBytes ..)⟩

/-- Past the last SEQ nothing is appended (R350). -/
theorem Chip.sealAppend_wraps (h : 2 ^ 64 - 1 ≤ c.sealer.seq) : c.sealAppend e time b = (0x0A, c) := if_pos h

theorem Chip.sealAppend_appends (h : c.sealer.seq < 2 ^ 64 - 1) : c.sealAppend e time b = (0x00, { c with sealer := { c.sealer with
    log := c.sealer.log ++ [SealRec.mk c.sealer.seq b.kind (c.sealBytes e time b) none]
    seq := c.sealer.seq + 1
    prev := sha256 (c.sealBytes e time b) } }) := if_neg (not_le.mpr h)

end

/-- Settles O53: a strike and a signature happen where they are due, a request is answered by the first check that it fails, and each record takes
the next SEQ. -/
theorem sealOperations : Obligations.SealOperations := by
  refine ⟨fun s acc v h rl rh i j x rest => ?_, fun c e time b => ?_⟩
  · intro c lo key freed u tk
    refine ⟨exec_epochStrikePeriodic_due, exec_epochStrikePeriodic_not, exec_epochStrikeRequested_due, exec_epochStrikeRequested_not,
      fun hwho hsec hfl hfh hheld => ?_, fun hnone => exec_epochSigned_idle (Chip.signEpoch_none hnone),
      fun hsign hkey => exec_epochSigned_idle (Chip.signEpoch_keyless hsign hkey), fun hsign hkey hsid => ?_⟩
    · have hexec : exec (.sealStrikeRequest acc v) s = .next (answer 0 0x00 { u with chip := u.chip.strikeRequest tk }) :=
        exec_sealStrikeRequest hwho hsec hfl hfh hheld
      refine ⟨fun hearly => ?_, fun hlate hwaits => ?_, fun hlate hfree => ?_⟩
      · rw [hexec, Chip.strikeRequest_early hearly]
      · rw [hexec, Chip.strikeRequest_busy hlate hwaits]
      · rw [hexec, Chip.strikeRequest_waits hlate hfree]
    · have hsealer := Chip.signEpoch_signs hsign hkey
      exact ⟨_, _, exec_epochSigned_alone hsid, congrArg SealState.signing hsealer, length_signatureBlock .., congrArg SealState.log hsealer,
        rfl, rfl⟩
  · refine ⟨Chip.sealAppend_wraps, fun hseq => ?_⟩
    obtain ⟨hhead, hnumber⟩ := c.sealBytes_begins e time b
    exact ⟨_, Chip.sealAppend_appends hseq, hhead, hnumber⟩

end Sys2Proof.Machine
end

section
/-! SUPPORT. The buffer pool manager: what refuses an allocation, what a grant gives, references, the window and the leak audit (R379-R390, R505). -/

namespace Sys2Proof.Machine

/-! Allocation (R381, R382, R385, R386). -/

section
variable {s : State} {c d : Chip} {e : Env} {kind fn region h st : Nat} {landing contracted pad : Bool} {ch : Charge}

theorem Chip.ownerFenced_iff (c : Chip) (kind fn : Nat) : c.ownerFenced kind fn = true ↔ kind * 256 + ownerFn kind fn ∈ c.buf.fenced :=
  List.contains_iff_mem

/-- The checks of an allocation before a charge is asked (R39, R382). -/
def Chip.allocCheck (c : Chip) (kind fn : Nat) (landing : Bool) : Nat :=
  firstFail [(decide (9 < kind), cstBad), (c.ownerFenced kind fn, cstLeak),
    (landing && (decide (c.dirtyLimit ≤ c.dirtyCount) || c.pmu.flush.isSome), cstPool)]

theorem Chip.allocCheck_kind (h : 9 < kind) (c : Chip) (fn : Nat) (landing : Bool) : c.allocCheck kind fn landing = cstBad :=
  firstFail_fails (decide_eq_true h) ..

theorem Chip.allocCheck_fenced (hkind : kind ≤ 9) (hfenced : c.ownerFenced kind fn = true) (landing : Bool) : c.allocCheck kind fn landing = cstLeak := by
  rw [Chip.allocCheck, firstFail_passes (decide_eq_false (not_lt.mpr hkind)), firstFail_fails hfenced]

theorem Chip.allocCheck_dirty (hkind : kind ≤ 9) (hfree : c.ownerFenced kind fn = false) (hdirty : c.dirtyLimit ≤ c.dirtyCount) :
    c.allocCheck kind fn true = cstPool := by
  rw [Chip.allocCheck, firstFail_passes (decide_eq_false (not_lt.mpr hkind)), firstFail_passes hfree, firstFail_fails (by simp [hdirty])]

theorem Chip.allocCheck_passes (hkind : kind ≤ 9) (hfree : c.ownerFenced kind fn = false)
    (hland : landing = true → c.dirtyCount < c.dirtyLimit ∧ c.pmu.flush = none) : c.allocCheck kind fn landing = cstOk := by
  have hlast : (landing && (decide (c.dirtyLimit ≤ c.dirtyCount) || c.pmu.flush.isSome)) = false := by
    cases landing with
    | false => rfl
    | true =>
      obtain ⟨hcount, hflush⟩ := hland rfl
      simp [hcount, hflush]
  rw [Chip.allocCheck, firstFail_passes (decide_eq_false (not_lt.mpr hkind)), firstFail_passes hfree, firstFail_passes hlast, firstFail]

theorem Chip.alloc_refused (hst : c.allocCheck kind fn landing ≠ cstOk) :
    c.alloc e kind fn region landing contracted pad = (c.allocCheck kind fn landing, 0, c) := if_pos hst

theorem Chip.alloc_ungranted (hok : c.allocCheck kind fn landing = cstOk)
    (hnone : c.grantFirst e (ownerFn kind fn) region (kindCharges kind contracted pad) = none) :
    c.alloc e kind fn region landing contracted pad = (cstPool, 0, c) := by
  rw [Chip.alloc, ← Chip.allocCheck, if_neg (not_not.mpr hok), hnone]

theorem Chip.alloc_granted (hok : c.allocCheck kind fn landing = cstOk)
    (hgrant : c.grantFirst e (ownerFn kind fn) region (kindCharges kind contracted pad) = some (h, ch, d))
    (hon : c.bit Reg.bpmCtrl 0 = true) (hruns : c.buf.restarting = false) :
    c.alloc e kind fn region landing contracted pad = (cstOk, h, d.setBuffer h ⟨kind, ownerFn kind fn, ch, 1, c.tick, landing⟩) := by
  have hserves : ¬ (!c.bit Reg.bpmCtrl 0 || c.buf.restarting) = true := by simp [hon, hruns]
  rw [Chip.alloc, ← Chip.allocCheck, if_neg (not_not.mpr hok), hgrant]
  exact if_neg hserves

theorem exec_bufferAlloc (halloc : s.chip.alloc s.env kind fn region landing contracted false = (st, h, d)) :
    exec (.bufferAlloc kind fn region landing contracted) s = .next { s with chip := { d with resp := ⟨BitVec.ofNat 32 h, st⟩ } } := by
  have hexec : exec (.bufferAlloc kind fn region landing contracted) s = execBufferAlloc kind fn region landing contracted s := rfl
  rw [hexec, execBufferAlloc, onChip_eq, halloc]

theorem exec_bpmAlloc_granted (halloc : s.chip.alloc s.env 9 0 0 false false false = (cstOk, h, d)) : exec .bpmAlloc s = .next { s with
    chip := ((d.setReg Reg.bpmAllocRes (2 ^ 31)).setReg Reg.bpmAllocHandle h).setBit Reg.bpmAlloc 31 false
    mem := { s.mem with dram := Mem.zeroRange s.mem.dram (farOffset h) (farOffset h + 16384) } } := by
  have hexec : exec .bpmAlloc s = .next (bpmAllocOp s) := rfl
  rw [hexec, bpmAllocOp, halloc]
  rfl

end

/-! References (R383, R384, R505). -/

section
variable {s : State} {c d : Chip} {e : Env} {h op st : Nat} {v : Word} {release : Bool}

theorem Chip.takeRef_invalid (hno : handleValid e c h = false) : c.takeRef e h = (cstBad, c.raise 323 cstBad 0xFFFF 0 0) :=
  if_pos (by rw [hno]; rfl)

theorem Chip.takeRef_full (hvalid : handleValid e c h = true) (hfull : (c.buffer h).refs = 65535) : c.takeRef e h = (cstWrap, c) :=
  (if_neg (by simp [hvalid])).trans (if_pos hfull)

theorem Chip.takeRef_counts (hvalid : handleValid e c h = true) (hless : (c.buffer h).refs ≠ 65535) :
    c.takeRef e h = (cstOk, c.setBuffer h { c.buffer h with refs := (c.buffer h).refs + 1 }) :=
  (if_neg (by simp [hvalid])).trans (if_neg hless)

theorem Chip.releaseRef_invalid (hno : handleValid e c h = false) : c.releaseRef e h = (cstBad, c.raise 323 cstBad 0xFFFF 0 0) :=
  if_pos (by rw [hno]; rfl)

theorem Chip.releaseRef_counts (hvalid : handleValid e c h = true) (hmore : (c.buffer h).refs ≠ 1) :
    c.releaseRef e h = (cstOk, c.setBuffer h { c.buffer h with refs := (c.buffer h).refs - 1 }) := by
  simp [Chip.releaseRef, hvalid, hmore]

theorem Chip.releaseRef_last (hvalid : handleValid e c h = true) (hone : (c.buffer h).refs = 1) : c.releaseRef e h = (cstOk, c.setBuffer h Buf.free) := by
  simp [Chip.releaseRef, hvalid, hone]

/-- The registers of BPM_REF as a command leaves them before its operation runs. -/
def Chip.refTold (c : Chip) (v : Word) (op : Nat) : Chip := (c.setReg Reg.bpmRefHandle v.toNat).setReg Reg.bpmRef op

/-- BPM_REF as its operation ends: the references that remain, and the status (R505). -/
def Chip.refEnds (c : Chip) (n st : Nat) : Chip := (c.setReg Reg.bpmRefRes (2 ^ 31 + n * 256 + st)).setBit Reg.bpmRef 31 false

theorem Chip.refTold_handle (c : Chip) (v : Word) (op : Nat) : (c.refTold v op).reg Reg.bpmRefHandle = v.toNat := by
  rw [Chip.refTold, Chip.reg_setReg_ne _ (by decide), Chip.reg_setReg_self, Nat.mod_eq_of_lt v.isLt]

@[simp] theorem Chip.refTold_buffer (c : Chip) (v : Word) (op h : Nat) : (c.refTold v op).buffer h = c.buffer h := rfl

@[simp] theorem handleValid_refTold (e : Env) (c : Chip) (v : Word) (op h : Nat) : handleValid e (c.refTold v op) h = handleValid e c h := rfl

/-- A buffer that is not of kind WARDEN is not software's to count. -/
theorem bpmRefOp_not_warden (hvalid : handleValid s.env s.chip v.toNat = true) (hkind : (s.chip.buffer v.toNat).kind ≠ 9) :
    bpmRefOp release { s with chip := s.chip.refTold v op } = { s with chip := (s.chip.refTold v op).refEnds 0 cstBad } := by
  have hother : (handleValid s.env s.chip v.toNat && (s.chip.buffer v.toNat).kind != 9) = true := by simp [hvalid, hkind]
  simp only [bpmRefOp, Chip.refTold_handle, handleValid_refTold, Chip.refTold_buffer, hother, if_true]
  rfl

/-- Otherwise the operation shows what the take or the release answers. -/
theorem bpmRefOp_moves (hkind : handleValid s.env s.chip v.toNat = true → (s.chip.buffer v.toNat).kind = 9)
    (hmove : (if release then (s.chip.refTold v op).releaseRef s.env v.toNat else (s.chip.refTold v op).takeRef s.env v.toNat) = (st, d)) :
    bpmRefOp release { s with chip := s.chip.refTold v op } =
      { s with chip := d.refEnds (if st = cstOk then (d.buffer v.toNat).refs else 0) st } := by
  have hwarden : (handleValid s.env s.chip v.toNat && (s.chip.buffer v.toNat).kind != 9) = false := by simpa using hkind
  simp only [bpmRefOp, Chip.refTold_handle, handleValid_refTold, Chip.refTold_buffer, hwarden, Bool.false_eq_true, if_false, hmove]
  rfl

/-- The operation whose take or release puts a buffer shows the references that remain of it. -/
theorem bpmRefOp_puts {b : Buf} (hkind : (s.chip.buffer v.toNat).kind = 9)
    (hmove : (if release then (s.chip.refTold v op).releaseRef s.env v.toNat else (s.chip.refTold v op).takeRef s.env v.toNat) =
      (cstOk, (s.chip.refTold v op).setBuffer v.toNat b)) :
    bpmRefOp release { s with chip := s.chip.refTold v op } =
      { s with chip := ((s.chip.refTold v op).setBuffer v.toNat b).refEnds b.refs cstOk } := by
  rw [bpmRefOp_moves (fun _ => hkind) hmove, if_pos rfl, Chip.buffer_setBuffer, if_pos rfl]

/-- A handle that is not valid is refused with its event, whichever way the count was to move. -/
theorem bpmRefOp_invalid (hno : handleValid s.env s.chip v.toNat = false) :
    bpmRefOp release { s with chip := s.chip.refTold v op } =
      { s with chip := ((s.chip.refTold v op).raise 323 cstBad 0xFFFF 0 0).refEnds 0 cstBad } := by
  refine bpmRefOp_moves (st := cstBad) (fun h => absurd h (Bool.eq_false_iff.mp hno)) ?_
  cases release with
  | false => exact Chip.takeRef_invalid hno
  | true => exact Chip.releaseRef_invalid hno

theorem exec_bpmRefTake (v : Word) (s : State) : exec (.bpmRefTake v) s = .next (bpmRefOp false { s with chip := s.chip.refTold v 0 }) := rfl

theorem exec_bpmRefRelease (v : Word) (s : State) :
    exec (.bpmRefRelease v) s = .next (bpmRefOp true { s with chip := s.chip.refTold v (2 ^ 30) }) := rfl

section
variable (hvalid : handleValid s.env s.chip v.toNat = true) (hkind : (s.chip.buffer v.toNat).kind = 9)
include hvalid hkind

theorem exec_bpmRefTake_full (hfull : (s.chip.buffer v.toNat).refs = 65535) :
    exec (.bpmRefTake v) s = .next { s with chip := (s.chip.refTold v 0).refEnds 0 cstWrap } := by
  have hmove := bpmRefOp_moves (release := false) (fun _ => hkind) (Chip.takeRef_full (c := s.chip.refTold v 0) hvalid hfull)
  rw [if_neg (by decide)] at hmove
  exact (exec_bpmRefTake v s).trans (next_congr hmove)

theorem exec_bpmRefTake_counts (hless : (s.chip.buffer v.toNat).refs ≠ 65535) : exec (.bpmRefTake v) s = .next { s with
    chip := ((s.chip.refTold v 0).setBuffer v.toNat
      { s.chip.buffer v.toNat with refs := (s.chip.buffer v.toNat).refs + 1 }).refEnds ((s.chip.buffer v.toNat).refs + 1) cstOk } :=
  (exec_bpmRefTake v s).trans (next_congr (bpmRefOp_puts hkind (Chip.takeRef_counts (c := s.chip.refTold v 0) hvalid hless)))

theorem exec_bpmRefRelease_counts (hmore : (s.chip.buffer v.toNat).refs ≠ 1) : exec (.bpmRefRelease v) s = .next { s with
    chip := ((s.chip.refTold v (2 ^ 30)).setBuffer v.toNat
      { s.chip.buffer v.toNat with refs := (s.chip.buffer v.toNat).refs - 1 }).refEnds ((s.chip.buffer v.toNat).refs - 1) cstOk } :=
  (exec_bpmRefRelease v s).trans (next_congr (bpmRefOp_puts hkind (Chip.releaseRef_counts (c := s.chip.refTold v (2 ^ 30)) hvalid hmore)))

theorem exec_bpmRefRelease_last (hone : (s.chip.buffer v.toNat).refs = 1) : exec (.bpmRefRelease v) s = .next { s with
    chip := ((s.chip.refTold v (2 ^ 30)).setBuffer v.toNat Buf.free).refEnds 0 cstOk } :=
  (exec_bpmRefRelease v s).trans (next_congr (bpmRefOp_puts hkind (Chip.releaseRef_last (c := s.chip.refTold v (2 ^ 30)) hvalid hone)))

end

end

/-! The buffer window (R380) and the leak audit (R388, R390). -/

section
variable {s : State} {acc : Access} {off h : Nat}

theorem exec_bufferWindowAccess_read (hwho : acc.who < 8) (hoff : off < 16384) (hword : off % 4 = 0) :
    exec (.bufferWindowAccess acc off none) s =
      .next { s with chip := { s.chip with resp := ⟨BitVec.ofNat 32 (windowRead s off), cstOk⟩ } } :=
  if_neg (by omega)

theorem exec_bufferWindowAccess_write (hwho : acc.who < 8) (hoff : off < 16384) (hword : off % 4 = 0) (v : Word) :
    exec (.bufferWindowAccess acc off (some v)) s =
      .next { windowWrite off v s with chip := { (windowWrite off v s).chip with resp := ⟨BitVec.ofNat 32 0, cstOk⟩ } } :=
  if_neg (by omega)

/-- The offset of a word of the window names that word of the buffer. -/
theorem window_offset (hoff : off < 16384) (hword : off % 4 = 0) : off % 16384 / 4 * 4 = off := by omega

theorem windowRead_unselected (hnone : s.chip.windowHandle s.env = none) (off : Nat) : windowRead s off = 0 := by
  rw [windowRead, hnone]

theorem windowRead_selected (hsel : s.chip.windowHandle s.env = some h) (hoff : off < 16384) (hword : off % 4 = 0) :
    windowRead s off = leNat (bufBytes s.mem h off 4) := by
  simp only [windowRead, hsel, window_offset hoff hword]

theorem windowWrite_unselected (hnone : s.chip.windowHandle s.env = none) (off : Nat) (v : Word) : windowWrite off v s = s := by
  rw [windowWrite, hnone]

theorem windowWrite_selected (hsel : s.chip.windowHandle s.env = some h) (hoff : off < 16384) (hword : off % 4 = 0) (v : Word) :
    windowWrite off v s = { s with mem := setBufBytes s.mem h off (leBytes 4 v.toNat) } := by
  simp only [windowWrite, hsel, window_offset hoff hword]

theorem exec_leakAuditSample (s : State) :
    exec .leakAuditSample s = .next { s with chip := if s.chip.tick % s.chip.fld Reg.bpmAuditCfg 11 0 = 0 then s.chip.auditSample else s.chip } := rfl

theorem exec_auditUnfence (s : State) : exec .auditUnfence s = .next { s with chip := s.chip.unfence (s.chip.fld Reg.bpmAuditSel 11 0) } := rfl

end

end Sys2Proof.Machine
end

section
/-! SUPPORT. The DDR5 controller: the request that a command slot serves, promotion, refresh, recalibration and ECC errors (R392-R400). -/

namespace Sys2Proof.Machine

/-! Command slots (R394-R398). -/

section
variable {s : State} {c : Chip} {x : SubCh} {w : DramWait} {r : DramReq} {sub now : Nat}

/-- A request alone at its sub-channel is held back by none, and in no flush service it is served. -/
theorem Chip.servable_single (hflush : c.dram.flush = false) (w : DramWait) : c.servable [] [w] = [w] := by
  simp [Chip.servable, Chip.heldBack, hflush]

theorem Chip.pickReq_single (hflush : c.dram.flush = false) (hwaits : x.waiting = [w]) (now : Nat) : c.pickReq x now = some w := by
  rw [Chip.pickReq, hwaits, Chip.servable_single hflush]
  rfl

theorem refreshDue_none (h : ∀ p ∈ x.postponed, p.2 < 4) : refreshDue x = none := by
  rw [refreshDue, List.find?_eq_none.mpr (by simpa using h)]
  rfl

/-- The sub-channel once a request alone at it is served, at its row. -/
def SubCh.serves (x : SubCh) (now : Nat) (r : DramReq) : SubCh :=
  { x with
    waiting := []
    now := now
    openRow := Tab.insert x.openRow (dramBank r.offset) (dramRow r.offset + 1)
    issued := r :: x.issued }

/-- A slot that serves counts the longest wait of the port, and the waits beyond the port's target (R395). -/
def Chip.countWait (c d : Chip) (r : DramReq) (wait : Nat) : Chip :=
  let d1 := d.raiseTo (Reg.memLat r.port) 15 0 wait
  if c.portTarget r.port < wait then d1.bump (Reg.memLat r.port) 31 16 1 else d1

theorem Chip.commandSlot_single (hidle : (c.subCh sub).waiting = []) (hrefresh : ∀ p ∈ (c.subCh sub).postponed, p.2 < 4)
    (hflush : c.dram.flush = false) :
    c.commandSlot sub now [r] = c.countWait (c.setSubCh sub ((c.subCh sub).serves now r)) r (now - r.arrived) := by
  have hwaits : [r].foldl (fun ws r => dramArrive r ws) (c.subCh sub).waiting = [⟨r, false⟩] := by rw [hidle]; rfl
  have hdue : refreshDue { c.subCh sub with waiting := [⟨r, false⟩], now := now } = none := refreshDue_none hrefresh
  have hpick : c.pickReq { c.subCh sub with waiting := [⟨r, false⟩], now := now } now = some ⟨r, false⟩ := Chip.pickReq_single hflush rfl now
  simp only [Chip.commandSlot, hwaits, hdue, hpick, List.erase_cons_head]
  rfl

/-- A trained and enabled sub-channel takes the request that addresses it into its slot. -/
theorem exec_dramCommandSlot_single (hon : s.chip.bit Reg.memCtrl 0 = true) (hrate : s.chip.dram.rate ≠ 0) (hsub : sub < 8)
    (hnow : (s.chip.subCh sub).now ≤ now) (hmine : dramSub r.offset = sub) (hport : r.port < 8) (harrived : r.arrived ≤ now) :
    exec (.dramCommandSlot sub now [r]) s = .next { s with chip := s.chip.commandSlot sub now [r] } := by
  have hserves : ¬ (!s.chip.bit Reg.memCtrl 0 || s.chip.dram.rate == 0 || decide (8 ≤ sub) || decide (now < (s.chip.subCh sub).now)) = true := by
    simp [hon, hrate, hsub, hnow]
  have hfilter : [r].filter (fun r => dramSub r.offset == sub && decide (r.port < 8) && decide (r.arrived ≤ now)) = [r] :=
    List.filter_cons_of_pos (by simp [hmine, hport, harrived])
  have hexec : exec (.dramCommandSlot sub now [r]) s = execDramCommandSlot sub now [r] s := rfl
  rw [hexec, execDramCommandSlot, onChip_eq, if_neg hserves, hfilter]

end

/-! Promotion, refresh and recalibration (R397, R399, R400). -/

section
variable {s : State} {sub now bank : Nat} {hot : Bool}

/-- The sub-channel once what waits beyond the limit is promoted (R397). -/
def SubCh.promotes (x : SubCh) (limit now : Nat) : SubCh :=
  { x with waiting := x.waiting.map (fun w => if limit < now - w.req.arrived then { w with promoted := true } else w) }

theorem exec_dramAgePromotion (sub now : Nat) (s : State) : exec (.dramAgePromotion sub now) s =
    .next { s with chip := s.chip.setSubCh sub ((s.chip.subCh sub).promotes (s.chip.fld Reg.memAge 15 0) now) } := by
  have hexec : exec (.dramAgePromotion sub now) s = execDramAgePromotion sub now s := rfl
  simp only [hexec, execDramAgePromotion, onChip_eq, updateWhere, decide_eq_true_eq, SubCh.promotes]

/-- An urgent request waits on the bank (R396, R399). -/
def Chip.urgentOn (c : Chip) (sub bank : Nat) : Prop :=
  ∃ w ∈ (c.subCh sub).waiting, dramBank w.req.offset = bank ∧ c.urgency (c.subCh sub).now w = 3

/-- Postponements of the bank's refresh since it was last issued. -/
def Chip.postponements (c : Chip) (sub bank : Nat) : Nat := Tab.get (fun _ => 0) (c.subCh sub).postponed bank

theorem Chip.postpones_iff (c : Chip) (sub bank : Nat) : ((c.subCh sub).waiting.any
      (fun w => dramBank w.req.offset == bank && c.urgency (c.subCh sub).now w == 3) && decide (c.postponements sub bank < 4)) = true ↔
    c.urgentOn sub bank ∧ c.postponements sub bank < 4 := by
  simp only [Chip.urgentOn, Bool.and_eq_true, List.any_eq_true, beq_iff_eq, decide_eq_true_eq]

/-- One more postponement of the bank's refresh stands, and is counted. -/
def Chip.refreshPostponed (c : Chip) (sub bank : Nat) : Chip :=
  (c.setSubCh sub { c.subCh sub with
    postponed := Tab.insert (c.subCh sub).postponed bank (c.postponements sub bank + 1) }).bump Reg.memRef 15 0 1

/-- The bank is refreshed: no postponement stands, and its row is closed. -/
def Chip.refreshIssued (c : Chip) (sub bank : Nat) : Chip :=
  c.setSubCh sub { c.subCh sub with
    postponed := Tab.erase (c.subCh sub).postponed bank
    openRow := Tab.erase (c.subCh sub).openRow bank }

theorem exec_dramRefresh_postponed (hurgent : (s.chip.setBit Reg.memRef 16 hot).urgentOn sub bank)
    (hless : (s.chip.setBit Reg.memRef 16 hot).postponements sub bank < 4) :
    exec (.dramRefresh sub bank hot) s = .next { s with chip := (s.chip.setBit Reg.memRef 16 hot).refreshPostponed sub bank } :=
  next_congr (congrArg (fun d => { s with chip := d }) (if_pos ((Chip.postpones_iff ..).mpr ⟨hurgent, hless⟩)))

theorem exec_dramRefresh_issued (h : ¬ (s.chip.setBit Reg.memRef 16 hot).urgentOn sub bank ∨
      4 ≤ (s.chip.setBit Reg.memRef 16 hot).postponements sub bank) :
    exec (.dramRefresh sub bank hot) s = .next { s with chip := (s.chip.setBit Reg.memRef 16 hot).refreshIssued sub bank } := by
  have hissues : ¬ ((s.chip.setBit Reg.memRef 16 hot).urgentOn sub bank ∧ (s.chip.setBit Reg.memRef 16 hot).postponements sub bank < 4) :=
    fun hboth => h.elim (· hboth.1) (not_le.mpr hboth.2)
  exact next_congr (congrArg (fun d => { s with chip := d }) (if_neg (mt (Chip.postpones_iff ..).mp hissues)))

theorem exec_dramRecalibration_due (h : (s.chip.subCh sub).recal + 2500 ≤ s.chip.tick) : exec (.dramRecalibration sub) s =
    .next { s with chip := s.chip.setSubCh sub { s.chip.subCh sub with recal := s.chip.tick } } :=
  next_congr (congrArg (fun d => { s with chip := d }) (if_pos h))

theorem exec_dramRecalibration_early (h : s.chip.tick < (s.chip.subCh sub).recal + 2500) : exec (.dramRecalibration sub) s = .next s :=
  next_congr (congrArg (fun d => { s with chip := d }) (if_neg (not_le.mpr h)))

end

/-! ECC errors (R392). -/

section
variable {s : State} {c : Chip} {e : Env} {off dev dev2 : Nat} {other : Option Nat}

theorem exec_dramEccError (hdev : dev < 10) (hother : ∀ d ∈ other, d < 10) (hrate : s.chip.dram.rate ≠ 0)
    (hoff : off < s.env.board.dramGib * 2 ^ 30) :
    exec (.dramEccError off dev other) s = .next (goesOn s (s.chip.dramError s.env off dev other)) := by
  have hreal : ¬ (9 < dev || other.any (fun d => decide (9 < d)) || s.chip.dram.rate == 0 ||
      decide (s.env.board.dramGib * 2 ^ 30 ≤ off)) = true := by
    have hany : other.any (fun d => decide (9 < d)) = false := by
      cases other with
      | none => rfl
      | some d => exact decide_eq_false (by have := hother d rfl; omega)
    have hten : ¬ 9 < dev := by omega
    simpa [hany, hrate, hten] using hoff
  exact next_congr (congrArg (goesOn s) (if_neg hreal))

/-- Errors in one device are corrected, and counted. -/
theorem Chip.dramError_corrected (hsame : ∀ d ∈ other, d = dev) : c.dramError e off dev other =
    (c.setReg Reg.memEccLast (dev % 16 * 16 + dramSub off)).bump Reg.memEcc 31 16 1 := by
  have hall : other.all (fun d => d == dev) = true := by
    cases other with
    | none => rfl
    | some d => exact beq_iff_eq.mpr (hsame d rfl)
  exact if_pos hall

/-- The chip after errors in two devices: counted, event 305, the burst poisoned and the access a bus error. -/
def Chip.dramPoisoned (c : Chip) (off dev : Nat) : Chip :=
  let bad := ((c.setReg Reg.memEccLast (dev % 16 * 16 + dramSub off)).bump Reg.memEcc 15 0 1).raise0 305
  { bad with
    dram := { bad.dram with poison := insertNat (dramBurst off) bad.dram.poison }
    resp := ⟨0, cstBus⟩ }

/-- Below the far pool and the map cache nothing else is lost (R393). -/
theorem Chip.dramError_uncorrectable (hne : dev2 ≠ dev) (hoff : off < 2 ^ 31) : c.dramError e off dev (some dev2) = c.dramPoisoned off dev := by
  have hall : ¬ (some dev2).all (fun d => d == dev) = true := by simpa using hne
  have hlow : ¬ 2 ^ 31 ≤ off := not_le.mpr hoff
  have hfar (d : Chip) : d.farBufAt off = none :=
    if_neg (fun h => hlow (of_decide_eq_true (Bool.and_eq_true_iff.mp h).1))
  have hmap (d : Chip) : ¬ (2 ^ 31 + d.dram.farNow * 2 ^ 30 ≤ off && decide (off < 2 ^ 31 + (d.dram.farNow + d.dram.mapNow) * 2 ^ 30)) = true :=
    fun h => hlow ((Nat.le_add_right ..).trans (of_decide_eq_true (Bool.and_eq_true_iff.mp h).1))
  simp only [Chip.dramError, if_neg hall, hfar]
  exact if_neg (hmap _)

end

/-- Settles O39: an allocation ends at the first check that fails or with what its charges grant, a reference by its handle and count, an access of the
window by the buffer selected, and each command of the DRAM by its sub-channel. -/
theorem buffersAndDram : Obligations.BuffersAndDram := by
  refine ⟨fun s kind fn region h landing contracted ch c1 v => ?_, fun s acc off h v hwho hoff hword => ?_,
    fun s sub now bank dev off hot r => ?_⟩
  · intro c e owner answers open_
    have hfenced (hno : kind * 256 + owner ∉ c.buf.fenced) : c.ownerFenced kind fn = false :=
      Bool.eq_false_iff.mpr (mt (c.ownerFenced_iff kind fn).mp hno)
    have hrefused {st : Nat} (hcheck : c.allocCheck kind fn landing = st) (hst : st ≠ cstOk) : answers c 0 st :=
      exec_bufferAlloc ((Chip.alloc_refused (hcheck.trans_ne hst)).trans (by rw [hcheck]))
    have hpass (hopen : open_) : c.allocCheck kind fn landing = cstOk := by
      obtain ⟨hkind, hno, hland⟩ := hopen
      exact Chip.allocCheck_passes hkind (hfenced hno) hland
    refine ⟨fun hkind => ?_, fun hkind hmem => ?_, fun hkind hno hland hdirty => ?_, fun hopen hnone => ?_, fun hopen hgrant hon hruns => ?_,
      fun hno hgrant hon hruns => ?_, ?_⟩
    · exact hrefused (Chip.allocCheck_kind hkind ..) (by decide)
    · exact hrefused (Chip.allocCheck_fenced hkind ((c.ownerFenced_iff kind fn).mpr hmem) landing) (by decide)
    · subst hland
      exact hrefused (Chip.allocCheck_dirty hkind (hfenced hno) hdirty) (by decide)
    · exact exec_bufferAlloc (Chip.alloc_ungranted (hpass hopen) hnone)
    · exact exec_bufferAlloc (Chip.alloc_granted (hpass hopen) hgrant hon hruns)
    · have hfree : c.ownerFenced 9 0 = false := Bool.eq_false_iff.mpr (mt (c.ownerFenced_iff 9 0).mp hno)
      exact exec_bpmAlloc_granted (Chip.alloc_granted (Chip.allocCheck_passes le_rfl hfree nofun) hgrant hon hruns)
    · intro told ends b
      refine ⟨fun hno => ?_, fun hvalid hkind => ?_, fun hvalid hkind => ⟨fun hfull => ?_, fun hless => ?_, fun hmany _ => ?_, fun hone => ?_⟩⟩
      · exact ⟨(exec_bpmRefTake v s).trans (next_congr (bpmRefOp_invalid hno)), (exec_bpmRefRelease v s).trans (next_congr (bpmRefOp_invalid hno))⟩
      · exact ⟨(exec_bpmRefTake v s).trans (next_congr (bpmRefOp_not_warden hvalid hkind)),
          (exec_bpmRefRelease v s).trans (next_congr (bpmRefOp_not_warden hvalid hkind))⟩
      · exact exec_bpmRefTake_full hvalid hkind hfull
      · exact exec_bpmRefTake_counts hvalid hkind hless.ne
      · exact exec_bpmRefRelease_counts hvalid hkind hmany.ne'
      · exact exec_bpmRefRelease_last hvalid hkind hone
  · intro c shows
    have hread (d : Nat) (hd : windowRead s off = d) : shows none s d :=
      hd ▸ exec_bufferWindowAccess_read hwho hoff hword
    have hwrite (t : State) (ht : windowWrite off v s = t) : shows (some v) t 0 :=
      ht ▸ exec_bufferWindowAccess_write hwho hoff hword v
    refine ⟨fun hnone => ⟨hread _ (windowRead_unselected hnone off), hwrite _ (windowWrite_unselected hnone off v)⟩,
      fun hsel => ⟨hread _ (windowRead_selected hsel hoff hword), hwrite _ (windowWrite_selected hsel hoff hword v)⟩,
      fun hbeside => ?_, fun hdue => ?_, fun owner howner => ?_⟩
    · rw [exec_leakAuditSample, if_neg hbeside]
    · rw [exec_leakAuditSample, if_pos hdue]
    · rw [exec_auditUnfence, ← howner, Chip.unfence]
  · intro c x
    refine ⟨fun hon hrate hsub hnow hidle hrefresh hflush hmine hport harrived => ?_, exec_dramAgePromotion sub now s, ?_, fun hdue => ?_,
      fun hearly => ?_, fun hdev hrate hoff => ?_⟩
    · rw [exec_dramCommandSlot_single hon hrate hsub hnow hmine hport harrived, Chip.commandSlot_single hidle hrefresh hflush]
      rfl
    · exact ⟨exec_dramRefresh_postponed, exec_dramRefresh_issued⟩
    · exact exec_dramRecalibration_due hdue
    · exact exec_dramRecalibration_early hearly
    · refine ⟨?_, ?_, fun dev2 hdev2 hne hlow => ?_⟩
      · rw [exec_dramEccError hdev (by simp) hrate hoff, Chip.dramError_corrected (by simp)]
      · rw [exec_dramEccError hdev (by simpa using hdev) hrate hoff, Chip.dramError_corrected (by simp)]
      · rw [exec_dramEccError hdev (by simpa using hdev2) hrate hoff, Chip.dramError_uncorrectable hne hlow]
        rfl

end Sys2Proof.Machine
end

section
/-! SUPPORT. The canonical form of the memories (log entry 2): the few places that write DRAM, the near pool and the warden SRAM keep it, and what a command
does to the controller alone leaves it. -/

namespace Sys2Proof.Machine

/-! The memories. -/

theorem Memories.wf_iff (m : Memories) :
    m.wf = true ↔ Mem.wf m.dram = true ∧ Mem.wf m.near = true ∧ Mem.wf m.sram = true ∧ Mem.wf m.nor = true := by
  simp [Memories.wf, and_assoc]

theorem Memories.wf_dram {m : Memories} {x : Mem} (h : m.wf = true) (hx : Mem.wf m.dram = true → Mem.wf x = true) :
    Memories.wf { m with dram := x } = true := by
  rw [Memories.wf_iff] at h ⊢
  obtain ⟨hdram, hrest⟩ := h
  exact ⟨hx hdram, hrest⟩

theorem Memories.wf_near {m : Memories} {x : Mem} (h : m.wf = true) (hx : Mem.wf m.near = true → Mem.wf x = true) :
    Memories.wf { m with near := x } = true := by
  rw [Memories.wf_iff] at h ⊢
  obtain ⟨hdram, hnear, hrest⟩ := h
  exact ⟨hdram, hx hnear, hrest⟩

theorem Memories.wf_sram {m : Memories} {x : Mem} (h : m.wf = true) (hx : Mem.wf m.sram = true → Mem.wf x = true) :
    Memories.wf { m with sram := x } = true := by
  rw [Memories.wf_iff] at h ⊢
  obtain ⟨hdram, hnear, hsram, hnor⟩ := h
  exact ⟨hdram, hnear, hx hsram, hnor⟩

theorem Memories.wf_setBufBytes {m : Memories} (h o : Nat) (bs : List Byte) (hm : m.wf = true) : (setBufBytes m h o bs).wf = true := by
  unfold setBufBytes
  split
  · exact Memories.wf_near hm (Mem.wf_writeBytes _ _)
  · exact Memories.wf_dram hm (Mem.wf_writeBytes _ _)

theorem Place.wf_write {m : Memories} (p : Place) (bs : List Byte) (hm : m.wf = true) : (p.write m bs).wf = true := by
  cases p with
  | dram o => exact Memories.wf_dram hm (Mem.wf_writeBytes _ _)
  | buf h o => exact Memories.wf_setBufBytes h o bs hm

/-- Writes one after another keep the canonical form, where each does. -/
theorem Mem.wf_foldl {α : Type} {f : Mem → α → Mem} (hf : ∀ m x, Mem.wf m = true → Mem.wf (f m x) = true) (l : List α) {m : Mem}
    (h : Mem.wf m = true) : Mem.wf (l.foldl f m) = true := by
  induction l generalizing m with
  | nil => exact h
  | cons x l ih => exact ih (hf m x h)

theorem Mem.wf_restoreImage {m : Mem} (p : Nat) (img : Mem) (h : Mem.wf m = true) : Mem.wf (restoreImage m p img) = true :=
  Mem.wf_foldl (fun _ _ => Mem.wf_write _ _) img (Mem.wf_zeroRange _ _ h)

theorem Memories.wf_wiped {m : Memories} (warm : Bool) (h : m.wf = true) : (m.wiped warm).wf = true := by
  rw [Memories.wf_iff] at h ⊢
  obtain ⟨hdram, -, -, hnor⟩ := h
  refine ⟨?_, Mem.wf_nil, Mem.wf_nil, hnor⟩
  cases warm with
  | true => exact Mem.wf_zeroRange _ _ hdram
  | false => exact Mem.wf_nil

/-! States. A command that acts on the controller alone leaves the memories, and their form with them. -/

variable {s t : State}

theorem State.wf_ite {a b : State} {p : Prop} [Decidable p] (ha : a.mem.wf = true) (hb : b.mem.wf = true) :
    (if p then a else b).mem.wf = true := by
  split
  · exact ha
  · exact hb

theorem State.mem_ite {a b : State} {p : Prop} [Decidable p] (ha : a.mem = s.mem) (hb : b.mem = s.mem) :
    (if p then a else b).mem = s.mem := by
  split
  · exact ha
  · exact hb

theorem wf_of_mem (hmem : t.mem = s.mem) (h : s.mem.wf = true) : t.mem.wf = true := hmem ▸ h

/-- A command on the controller alone. -/
theorem mem_chip (s : State) (c : Chip) : { s with chip := c }.mem = s.mem := rfl

theorem flushDlog_wf (h : s.mem.wf = true) : (flushDlog s).mem.wf = true := by
  refine Memories.wf_dram h (Mem.wf_foldl (fun m p hm => ?_) _)
  split
  · exact Mem.wf_writeLe _ _ _ hm
  · exact hm

theorem itemsDo_wf (f : Chip → Chip) (h : s.mem.wf = true) : (itemsDo f s).mem.wf = true :=
  flushDlog_wf (s := { s with chip := (f s.chip).settle s.env }) h

@[simp] theorem chipDo_mem (f : Chip → Chip) (s : State) : (chipDo f s).mem = s.mem := rfl

@[simp] theorem plainWrite_mem (r : RegRow) (a v : Nat) (s : State) : (plainWrite r a v s).mem = s.mem := chipDo_mem ..

@[simp] theorem putWarden_mem (w : Nat) (x : WardenCore) (s : State) : (s.putWarden w x).mem = s.mem := rfl

@[simp] theorem awake_mem (w : Nat) (s : State) : (s.awake w).mem = s.mem := putWarden_mem ..

@[simp] theorem trap_mem (w cause : Nat) (addr : Option Nat) (log : Bool) (s : State) : (s.trap w cause addr log).mem = s.mem := mem_chip ..

@[simp] theorem answer_mem (v st : Nat) (s : State) : (answer v st s).mem = s.mem := chipDo_mem ..

@[simp] theorem bpmRefOp_mem (release : Bool) (s : State) : (bpmRefOp release s).mem = s.mem := mem_chip ..

@[simp] theorem onBit_chipDo_mem (v i : Nat) (f : Chip → Chip) (s : State) : (onBit v i (chipDo f) s).mem = s.mem := State.mem_ite rfl rfl

@[simp] theorem commitOn_mem (b : CommitBlk) (r : RegRow) (a v : Nat) (s : State) : (commitOn b r a v s).mem = s.mem :=
  (onBit_chipDo_mem ..).trans (plainWrite_mem ..)

theorem onBit_wf {f : State → State} (hf : ∀ {t : State}, t.mem.wf = true → (f t).mem.wf = true) (v i : Nat) (h : s.mem.wf = true) :
    (onBit v i f s).mem.wf = true := State.wf_ite (hf h) h

/-! Operations. -/

theorem bpmAllocOp_wf (h : s.mem.wf = true) : (bpmAllocOp s).mem.wf = true := by
  unfold bpmAllocOp
  dsimp only
  split
  · exact Memories.wf_dram h (Mem.wf_zeroRange _ _)
  · exact h

theorem windowWrite_wf (off : Nat) (v : Word) (h : s.mem.wf = true) : (windowWrite off v s).mem.wf = true := by
  unfold windowWrite
  split
  · exact Memories.wf_setBufBytes _ _ _ h
  · exact h

@[simp] theorem keyCommand_mem (op slot page index : Nat) (s : State) : (keyCommand op slot page index s).mem = s.mem := State.mem_ite rfl rfl

@[simp] theorem krfLoadGo_mem (unload : Bool) (slot : Nat) (s : State) : (krfLoadGo unload slot s).mem = s.mem := State.mem_ite rfl rfl

@[simp] theorem keyPage_mem (op pay : Nat) (cmd : Cmd) (payload : List Byte) (s : State) : (keyPage op pay cmd payload s).mem = s.mem := by
  unfold keyPage
  refine State.mem_ite rfl ?_
  split <;> rfl

theorem takeOver_wf (w : Nat) (h : s.mem.wf = true) : (takeOver w s).mem.wf = true := Memories.wf_sram h (Mem.wf_restoreImage _ _)

theorem wardenFail_wf (w cause : Nat) (h : s.mem.wf = true) : (wardenFail w cause s).mem.wf = true :=
  State.wf_ite h (State.wf_ite (takeOver_wf _ h) h)

theorem ps3Commit_wf (h : s.mem.wf = true) : (ps3Commit s).mem.wf = true :=
  State.wf_ite (Memories.wf_near h (fun _ => Mem.wf_nil)) h

theorem resetWipe_wf (h : s.mem.wf = true) : (resetWipe s).mem.wf = true := Memories.wf_wiped _ h

theorem flushEnd_wf (h : s.mem.wf = true) : (flushEnd s).mem.wf = true := by
  unfold flushEnd
  split
  · exact h
  · exact resetWipe_wf h

theorem flushAtOnce_wf (h : s.mem.wf = true) : (flushAtOnce s).mem.wf = true := State.wf_ite (flushEnd_wf h) h

theorem resetSource_wf (cause : Nat) (h : s.mem.wf = true) : (resetSource cause s).mem.wf = true := State.wf_ite h (flushAtOnce_wf h)

theorem systemReset_wf (h : s.mem.wf = true) : (systemReset s).mem.wf = true := by
  unfold systemReset
  dsimp only
  split
  · exact h
  · exact State.wf_ite h (State.wf_ite (resetSource_wf _ h) h)

theorem powerTrigger_wf (cause : Nat) (h : s.mem.wf = true) : (powerTrigger cause s).mem.wf = true := State.wf_ite h (flushAtOnce_wf h)

theorem powerCycle_wf (h : s.mem.wf = true) : (powerCycle s).mem.wf = true := Memories.wf_wiped _ h

theorem thermalLimits_wf (old : Chip) (h : s.mem.wf = true) : (thermalLimits old s).mem.wf = true :=
  State.wf_ite h (State.wf_ite (resetSource_wf _ h) h)

theorem unitFail_wf (u : UnitRef) (h : s.mem.wf = true) : (unitFail u s).mem.wf = true := by
  cases u with
  | channelParity n | channelWatchdog n | tfLane g lane | sramWord k => exact h
  | decLane k lane | decComplex k | bandTable k | kerfCore k => exact State.wf_ite h h
  | wardenCore w => exact State.wf_ite h (wardenFail_wf _ _ h)

/-! Transform rings. -/

theorem put_wf (p : Place) (bs : List Byte) (h : s.mem.wf = true) : (s.put p bs).mem.wf = true := Place.wf_write p bs h

theorem tringBack_wf (g q : Nat) (d : Desc) (st r0 r1 r2 : Nat) (bad : Bool) (h : s.mem.wf = true) :
    (tringBack g q d st r0 r1 r2 bad s).mem.wf = true :=
  State.wf_ite h (Memories.wf_dram h (fun hm => Mem.wf_writeLe _ _ _ (Mem.wf_writeBytes _ _ hm)))

theorem tringFetch_wf (g q : Nat) (h : s.mem.wf = true) : (tringFetch g q s).mem.wf = true :=
  State.wf_ite h (State.wf_ite h (State.wf_ite h (State.wf_ite (tringBack_wf _ _ _ _ _ _ _ _ h) h)))

theorem tqFetch_wf (g : Nat) (h : s.mem.wf = true) : (tqFetch g s).mem.wf = true := by
  unfold tqFetch
  refine State.wf_ite h ?_
  split
  · exact h
  · exact tringFetch_wf _ _ h

/-- A descriptor's operation keeps the form where its run does. -/
theorem ringOp_wf {run : QArgs → State → QRes} (hrun : ∀ x {t : State}, t.mem.wf = true → (run x t).s.mem.wf = true) (g q op key : Nat)
    (bad zero limit : Chip → Desc → Bool) (h : s.mem.wf = true) : (ringOp g q op key bad zero limit run s).mem.wf = true := by
  unfold ringOp
  dsimp only
  split
  · exact h
  · refine State.wf_ite h (State.wf_ite h ?_)
    split
    · refine tringBack_wf _ _ _ _ _ _ _ _ ?_
      dsimp only
      split
      · exact h
      · exact hrun _ h
    · exact tringBack_wf _ _ _ _ _ _ _ _ h

theorem wrote_wf (x : QArgs) (bs : List Byte) (r2 : Nat) (h : s.mem.wf = true) : (wrote x bs r2 s).s.mem.wf = true := put_wf _ _ h

theorem QRes.wf_ite {a b : QRes} {p : Prop} [Decidable p] (ha : a.s.mem.wf = true) (hb : b.s.mem.wf = true) :
    (if p then a else b).s.mem.wf = true := by
  split
  · exact ha
  · exact hb

theorem gatherRun_wf (x : QArgs) (h : s.mem.wf = true) : (gatherRun x s).s.mem.wf = true :=
  QRes.wf_ite h (QRes.wf_ite h (QRes.wf_ite h (wrote_wf _ _ _ h)))

theorem sqzCRun_wf (lane : Nat) (x : QArgs) (h : s.mem.wf = true) : (sqzCRun lane x s).s.mem.wf = true :=
  QRes.wf_ite h (QRes.wf_ite (Place.wf_write _ _ h) (Place.wf_write _ _ h))

theorem sqzXRun_wf (lane : Nat) (x : QArgs) (h : s.mem.wf = true) : (sqzXRun lane x s).s.mem.wf = true := by
  refine QRes.wf_ite h ?_
  split <;> exact Place.wf_write _ _ h

theorem gcmERun_wf (x : QArgs) (h : s.mem.wf = true) : (gcmERun x s).s.mem.wf = true := by
  refine QRes.wf_ite h ?_
  split
  · exact h
  · exact Place.wf_write _ _ h

theorem gcmDRun_wf (x : QArgs) (h : s.mem.wf = true) : (gcmDRun x s).s.mem.wf = true := by
  unfold gcmDRun
  refine QRes.wf_ite h ?_
  dsimp only
  split
  · exact Place.wf_write _ _ h
  · exact Place.wf_write _ _ h

/-! Register writes. -/

theorem rcuWrite_wf (acc : Access) (r : RegRow) (a o v : Nat) (h : s.mem.wf = true) : (rcuWrite acc r a o v s).mem.wf = true := by
  unfold rcuWrite
  split
  · exact State.wf_ite (resetSource_wf _ h) (State.wf_ite (resetSource_wf _ h) h)
  · exact h

@[simp] theorem pmuWrite_mem (acc : Access) (r : RegRow) (a o v : Nat) (s : State) : (pmuWrite acc r a o v s).mem = s.mem := by
  unfold pmuWrite
  split <;> simp [apply_ite State.mem]

@[simp] theorem calWrite_mem (r : RegRow) (a o v : Nat) (s : State) : (calWrite r a o v s).mem = s.mem := by
  unfold calWrite
  split <;> simp [apply_ite State.mem]

theorem hostWrite_wf (r : RegRow) (a o v : Nat) (h : s.mem.wf = true) : (hostWrite r a o v s).mem.wf = true :=
  State.wf_ite (itemsDo_wf _ h) (State.wf_ite h h)

@[simp] theorem dlogWrite_mem (k : Nat) (r : RegRow) (a o v : Nat) (s : State) : (dlogWrite k r a o v s).mem = s.mem := by
  unfold dlogWrite
  split <;> simp [apply_ite State.mem]

theorem fnWrite_wf (r : RegRow) (a o v : Nat) (h : s.mem.wf = true) : (fnWrite r a o v s).mem.wf = true := by
  unfold fnWrite
  split
  · exact wf_of_mem (commitOn_mem ..) h
  · exact State.wf_ite (itemsDo_wf _ h) h
  · exact State.wf_ite h h
  · exact State.wf_ite (wf_of_mem (dlogWrite_mem ..) h) h

@[simp] theorem keyWrite_mem (r : RegRow) (a o v : Nat) (s : State) : (keyWrite r a o v s).mem = s.mem := by
  unfold keyWrite
  split <;> simp [apply_ite State.mem]

theorem bpmWrite_wf (r : RegRow) (a o v : Nat) (h : s.mem.wf = true) : (bpmWrite r a o v s).mem.wf = true := by
  unfold bpmWrite
  split
  · exact wf_of_mem (commitOn_mem ..) h
  · exact onBit_wf bpmAllocOp_wf _ _ h
  · exact onBit_wf (wf_of_mem (bpmRefOp_mem ..)) _ _ h
  · exact wf_of_mem (onBit_chipDo_mem ..) h
  · exact h

@[simp] theorem boomWrite_mem (r : RegRow) (a o v : Nat) (s : State) : (boomWrite r a o v s).mem = s.mem := by
  unfold boomWrite
  split <;> simp [apply_ite State.mem]

@[simp] theorem thmWrite_mem (r : RegRow) (a o v : Nat) (s : State) : (thmWrite r a o v s).mem = s.mem := by
  unfold thmWrite
  split <;> simp

@[simp] theorem logWrite_mem (acc : Access) (r : RegRow) (a o v : Nat) (s : State) : (logWrite acc r a o v s).mem = s.mem := by
  unfold logWrite
  split <;> simp

@[simp] theorem krfWrite_mem (acc : Access) (r : RegRow) (a o v : Nat) (s : State) : (krfWrite acc r a o v s).mem = s.mem := by
  refine State.mem_ite ?_ (State.mem_ite ?_ (onBit_chipDo_mem ..))
  · split <;> simp [apply_ite State.mem]
  · split <;> simp

@[simp] theorem irqWrite_mem (acc : Access) (r : RegRow) (a o v : Nat) (s : State) : (irqWrite acc r a o v s).mem = s.mem := by
  refine State.mem_ite ?_ (State.mem_ite (chipDo_mem ..) (plainWrite_mem ..))
  exact State.mem_ite rfl (State.mem_ite rfl (State.mem_ite rfl (State.mem_ite (chipDo_mem ..) (chipDo_mem ..))))

theorem mapWrite_wf (r : RegRow) (a o v : Nat) (h : s.mem.wf = true) : (mapWrite r a o v s).mem.wf = true := by
  unfold mapWrite
  split
  · exact wf_of_mem (commitOn_mem ..) h
  · exact State.wf_ite h h
  · exact State.wf_ite (itemsDo_wf _ h) h
  · exact h

theorem hubWrite_wf (acc : Access) (r : RegRow) (a v : Nat) (h : s.mem.wf = true) : (hubWrite acc r a v s).mem.wf = true :=
  State.wf_ite h <| State.wf_ite (rcuWrite_wf _ _ _ _ _ h) <| State.wf_ite (wf_of_mem (pmuWrite_mem ..) h) <|
  State.wf_ite (wf_of_mem (calWrite_mem ..) h) <| State.wf_ite (hostWrite_wf _ _ _ _ h) <| State.wf_ite (fnWrite_wf _ _ _ _ h) <|
  State.wf_ite (wf_of_mem (keyWrite_mem ..) h) <| State.wf_ite (State.wf_ite (wf_of_mem (commitOn_mem ..) h) h) <|
  State.wf_ite (bpmWrite_wf _ _ _ _ h) <| State.wf_ite (State.wf_ite (wf_of_mem (commitOn_mem ..) h) h) <|
  State.wf_ite (wf_of_mem (boomWrite_mem ..) h) <| State.wf_ite (wf_of_mem (thmWrite_mem ..) h) <|
  State.wf_ite (wf_of_mem (logWrite_mem ..) h) <| State.wf_ite (wf_of_mem (krfWrite_mem ..) h) <|
  State.wf_ite (wf_of_mem (irqWrite_mem ..) h) (mapWrite_wf _ _ _ _ h)

theorem chWrite_wf (n : Nat) (r : RegRow) (a o v : Nat) (h : s.mem.wf = true) : (chWrite n r a o v s).mem.wf = true := by
  unfold chWrite
  split
  · exact onBit_wf (itemsDo_wf _) _ _ (wf_of_mem (onBit_chipDo_mem ..) h)
  · exact State.wf_ite h h
  · exact h

theorem decWrite_wf (k : Nat) (r : RegRow) (a o v : Nat) (h : s.mem.wf = true) : (decWrite k r a o v s).mem.wf = true := by
  unfold decWrite
  split
  · exact itemsDo_wf _ (wf_of_mem (commitOn_mem ..) h)
  · exact h

@[simp] theorem ringWrite_mem (acc : Access) (g q : Nat) (r : RegRow) (a o v : Nat) (s : State) : (ringWrite acc g q r a o v s).mem = s.mem := by
  unfold ringWrite
  dsimp only
  split <;> simp [apply_ite State.mem]

@[simp] theorem tfWrite_mem (acc : Access) (g : Nat) (r : RegRow) (a o v : Nat) (s : State) : (tfWrite acc g r a o v s).mem = s.mem := by
  simp [tfWrite, apply_ite State.mem]

theorem regWrite_wf (acc : Access) (r : RegRow) (a v : Nat) (h : s.mem.wf = true) : (regWrite acc r a v s).mem.wf = true :=
  State.wf_ite (hubWrite_wf _ _ _ _ h) (State.wf_ite (State.wf_ite (chWrite_wf _ _ _ _ _ h) (decWrite_wf _ _ _ _ _ h))
    (State.wf_ite (wf_of_mem (tfWrite_mem ..) h) h))

@[simp] theorem writeLow_mem (acc : Access) (rl rh : RegRow) (lo v : Nat) (s : State) : (writeLow acc rl rh lo v s).mem = s.mem := by
  simp [writeLow, wideAct, apply_ite State.mem]

/-! Accesses. -/

@[simp] theorem readWord_mem (acc : Access) (a : Nat) (s : State) : (readWord acc a s).2.mem = s.mem := by
  unfold readWord
  split
  · split <;> rfl
  · rfl

theorem busRead_mem {acc : Access} {a width v : Nat} {s t : State} (h : busRead acc a width s = .ok v t) : t.mem = s.mem := by
  unfold busRead at h
  split at h <;> cases h
  case h_3 => exact readWord_mem ..
  all_goals rfl

@[simp] theorem keyAnchorWrite_mem (acc : Access) (a : Nat) (v : Word) (s : State) : (keyAnchorWrite acc a v s).mem = s.mem :=
  State.mem_ite rfl (State.mem_ite rfl (State.mem_ite rfl rfl))

theorem writeWord_wf (acc : Access) (a v : Nat) (h : s.mem.wf = true) : (writeWord acc a v s).mem.wf = true := by
  unfold writeWord
  split
  · exact wf_of_mem (State.mem_ite (keyAnchorWrite_mem ..) (State.mem_ite rfl rfl)) h
  · exact windowWrite_wf _ _ h
  · exact h
  · exact h
  · exact State.wf_ite h h
  · split
    · exact h
    · split
      · exact h
      · exact wf_of_mem (writeLow_mem ..) h
      · exact regWrite_wf _ _ _ _ h

theorem busWrite_wf {acc : Access} {a width v r : Nat} (hw : busWrite acc a width v s = .ok r t) (h : s.mem.wf = true) : t.mem.wf = true := by
  unfold busWrite at hw
  split at hw <;> cases hw
  case h_3 => exact writeWord_wf _ _ _ h
  case h_5 => exact State.wf_ite h (Memories.wf_sram h (Mem.wf_writeLe _ _ _))
  case h_7 => exact Memories.wf_dram h (Mem.wf_writeLe _ _ _)
  all_goals exact h

theorem debugAccess_wf (a width : Nat) (wr : Option Nat) (h : s.mem.wf = true) : (debugAccess a width wr s).mem.wf = true := by
  refine State.wf_ite h ?_
  cases wr with
  | none =>
    dsimp only
    split
    case h_1 v t hr => exact wf_of_mem (t := t) (busRead_mem hr) h
    case h_2 => exact h
  | some w =>
    dsimp only
    split
    case h_1 v t hw => exact busWrite_wf (t := t) hw h
    case h_2 => exact h

theorem access_wf (acc : Access) (a width : Nat) (wr : Option Nat) (h : s.mem.wf = true) : (access acc a width wr s).mem.wf = true := by
  refine State.wf_ite (debugAccess_wf _ _ _ h) ?_
  cases wr with
  | none =>
    dsimp only
    split
    case h_1 v t hr => exact wf_of_mem (t := t) (busRead_mem hr) h
    case h_2 => exact h
    case h_3 => exact h
  | some w =>
    dsimp only
    split
    case h_1 v t hw => exact busWrite_wf (t := t) hw h
    case h_2 => exact h
    case h_3 => exact h

/-! The Kerf cores. -/

theorem dataRun_wf (k cost : Nat) (g : Guard) (f : KCore → Invocation → KOut) (h : s.mem.wf = true) : (dataRun k cost g f s).mem.wf = true := by
  unfold dataRun
  split
  · exact h
  · refine State.wf_ite ?_ h
    split
    · exact h
    · exact h
    · exact flushDlog_wf (s := { s with chip := _ }) h
    · exact flushDlog_wf (s := { s with chip := _ }) h

/-- An instruction of a warden core keeps the form where its own effect does. -/
theorem wardenRun_wf {f : State → State} (hf : ∀ {t : State}, t.mem.wf = true → (f t).mem.wf = true) (w : Nat) (g : Guard) (illegal : Bool)
    (priv : WardenCore → Bool) (h : s.mem.wf = true) : (wardenRun w g illegal priv f s).mem.wf = true := by
  have hawake : (s.awake w).mem.wf = true := h
  refine State.wf_ite h ?_
  dsimp only
  split
  · exact hawake
  · exact State.wf_ite hawake (State.wf_ite hawake (State.wf_ite hawake (hf hawake)))

theorem wardenRegs_wf (w : Nat) (g : Guard) (illegal : Bool) (f : KCore → KCore) (h : s.mem.wf = true) : (wardenRegs w g illegal f s).mem.wf = true :=
  wardenRun_wf (wf_of_mem (putWarden_mem ..)) _ _ _ _ h

theorem kerfRegs_wf (c cost : Nat) (g : Guard) (illegal : Bool) (f : KCore → KCore) (h : s.mem.wf = true) :
    (kerfRegs c cost g illegal f s).mem.wf = true :=
  State.wf_ite (dataRun_wf _ _ _ _ h) (wardenRegs_wf _ _ _ _ h)

theorem dataOnly_wf (c cost : Nat) (g : Guard) (f : KCore → Invocation → KOut) (h : s.mem.wf = true) : (dataOnly c cost g f s).mem.wf = true :=
  State.wf_ite (dataRun_wf _ _ _ _ h) (wardenRun_wf id _ _ _ _ h)

theorem controlOnly_wf {f : Nat → State → State} (hf : ∀ (w : Nat) {t : State}, t.mem.wf = true → (f w t).mem.wf = true) (c : Nat) (g : Guard)
    (illegal : Bool) (priv : WardenCore → Bool) (h : s.mem.wf = true) : (controlOnly c g illegal priv f s).mem.wf = true :=
  State.wf_ite h (wardenRun_wf (hf _) _ _ _ _ h)

theorem wardenLoad_wf (w : Nat) (rd ra : BitVec 4) (imm : BitVec 15) (width : Nat) (h : t.mem.wf = true) :
    (wardenLoad w rd ra imm width t).mem.wf = true := by
  unfold wardenLoad
  dsimp only
  split
  · exact h
  · split
    case h_1 v t hr => exact wf_of_mem (t := t) (busRead_mem hr) h
    case h_2 => exact h
    case h_3 => exact h

theorem wardenStore_wf (w : Nat) (rd ra : BitVec 4) (imm : BitVec 15) (width : Nat) (h : t.mem.wf = true) :
    (wardenStore w rd ra imm width t).mem.wf = true := by
  unfold wardenStore
  dsimp only
  split
  · exact h
  · split
    case h_1 v t hw => exact busWrite_wf (t := t) hw h
    case h_2 => exact h
    case h_3 => exact h

theorem kerfLoad_wf (c : Nat) (g : Guard) (rd ra : BitVec 4) (imm : BitVec 15) (width : Nat) (h : s.mem.wf = true) :
    (kerfLoad c g rd ra imm width s).mem.wf = true :=
  State.wf_ite (dataRun_wf _ _ _ _ h) (wardenRun_wf (wardenLoad_wf _ _ _ _ _) _ _ _ _ h)

theorem kerfStore_wf (c : Nat) (g : Guard) (rd ra : BitVec 4) (imm : BitVec 15) (width : Nat) (h : s.mem.wf = true) :
    (kerfStore c g rd ra imm width s).mem.wf = true :=
  State.wf_ite (dataRun_wf _ _ _ _ h) (wardenRun_wf (wardenStore_wf _ _ _ _ _) _ _ _ _ h)

theorem casRun_wf (rd ra rb : BitVec 4) (w : Nat) (h : t.mem.wf = true) : (casRun rd ra rb w t).mem.wf = true := by
  unfold casRun
  dsimp only
  split
  · exact h
  · split
    case h_1 v u hr =>
      have hread : u.mem.wf = true := wf_of_mem (busRead_mem hr) h
      refine State.wf_ite hread ?_
      split
      case h_1 v t hw => exact busWrite_wf (t := t) hw hread
      case h_2 => exact h
      case h_3 => exact h
    case h_2 => exact h
    case h_3 => exact h

@[simp] theorem csrRead_mem (w n : Nat) (t : State) : (csrRead w n t).2.mem = t.mem := by
  unfold csrRead
  dsimp only
  split_ifs <;> rfl

@[simp] theorem csrWrite_mem (w n v : Nat) (t : State) : (csrWrite w n v t).mem = t.mem :=
  State.mem_ite rfl (State.mem_ite rfl (State.mem_ite rfl (State.mem_ite rfl rfl)))

end Sys2Proof.Machine
end

section
/-! SUPPORT. Every command keeps the canonical form of the memories (log entry 2). -/

namespace Sys2Proof.Machine

variable {s t : State}

/-! Commands with an effect of their own on the memories or the fuses. -/

theorem adminOp_wf {f : State → State} (hf : ∀ {t : State}, t.mem.wf = true → (f t).mem.wf = true) (cmd : Cmd) (h : s.mem.wf = true) :
    (adminOp cmd f s).mem.wf = true := by
  unfold adminOp
  exact State.wf_ite (flushDlog_wf (hf h)) h

@[simp] theorem firmwareCommit_mem (cmd : Cmd) (ca fs keyid svn : Nat) (sigOk : Bool) (s : State) :
    (firmwareCommit cmd ca fs keyid svn sigOk s).mem = s.mem :=
  State.mem_ite rfl (State.mem_ite rfl (State.mem_ite rfl (State.mem_ite rfl rfl)))

@[simp] theorem transition_mem (act : Nat) (tok : List Byte) (s : State) : (transition act tok s).mem = s.mem := by
  unfold transition
  split <;> rfl

theorem tokenCmd_wf (act : Nat) (cmd : Cmd) (tok : List Byte) (h : s.mem.wf = true) : (tokenCmd act cmd tok s).mem.wf = true :=
  State.wf_ite h (State.wf_ite h (State.wf_ite h (State.wf_ite h (resetSource_wf _ (wf_of_mem (transition_mem ..) h)))))

theorem alarmOne_wf (bit : Nat) (h : s.mem.wf = true) : (alarmOne bit s).mem.wf = true :=
  State.wf_ite h (State.wf_ite h (resetSource_wf _ h))

theorem keyAlarm_wf (src : AlarmSource) (h : s.mem.wf = true) : (keyAlarm src s).mem.wf = true :=
  State.wf_ite (alarmOne_wf _ (alarmOne_wf _ h)) (alarmOne_wf _ h)

theorem lifecycleProvision_wf (h : s.mem.wf = true) : (lifecycleProvision s).mem.wf = true := State.wf_ite h (resetSource_wf _ h)

/-! Outcomes. -/

/-- The outcome is a next state, whose memories have their form where the memories before had. -/
def State.KeepsForm (s : State) (o : Host.Outcome State Fault Refusal) : Prop := ∃ t, o = .next t ∧ (s.mem.wf = true → t.mem.wf = true)

theorem keepsForm_next (h : s.mem.wf = true → t.mem.wf = true) : s.KeepsForm (.next t) := ⟨t, rfl, h⟩

theorem keepsForm_of_mem (h : t.mem = s.mem) : s.KeepsForm (.next t) := keepsForm_next (wf_of_mem h)

theorem onChip_keepsForm (f : Chip → Chip) (s : State) : s.KeepsForm (onChip f s) := keepsForm_of_mem rfl

theorem onHost_keepsForm (f : Chip → Chip) (s : State) : s.KeepsForm (onHost f s) :=
  keepsForm_next (flushDlog_wf (s := { s with chip := f s.chip }))

theorem onItems_keepsForm (f : Chip → Chip) (s : State) : s.KeepsForm (onItems f s) := onHost_keepsForm ..

theorem adminChip_keepsForm (cmd : Cmd) (f : State → Chip → Chip) (s : State) : s.KeepsForm (adminChip cmd f s) :=
  keepsForm_next (adminOp_wf (wf_of_mem (mem_chip ..)) cmd)

theorem pfOnly_keepsForm (cmd : Cmd) (f : State → Chip → Chip) (s : State) : s.KeepsForm (pfOnly cmd f s) := adminChip_keepsForm ..

theorem admin_keepsForm (cmd : Cmd) (f : State → Chip → Chip) (s : State) : s.KeepsForm (admin cmd f s) := adminChip_keepsForm ..

theorem adminItems_keepsForm (cmd : Cmd) (f : State → Chip → Chip) (s : State) : s.KeepsForm (adminItems cmd f s) := admin_keepsForm ..

theorem sanitize_keepsForm (action : Nat) (cmd : Cmd) (s : State) : s.KeepsForm (sanitize action cmd s) := admin_keepsForm ..

theorem ioOp_keepsForm (cmd : Cmd) (stops : State → List (Option (NStat × Nat))) (nsx lba : Nat) (run : State → Chip → Chip) (s : State) :
    s.KeepsForm (ioOp cmd stops nsx lba run s) := onItems_keepsForm ..

theorem zoneSend_keepsForm (op : Nat) (cmd : Cmd) (nsid zslba : Nat) (all : Bool) (s : State) : s.KeepsForm (zoneSend op cmd nsid zslba all s) :=
  ioOp_keepsForm ..

theorem onNodes_keepsForm (f : Chip → Chip) (s : State) : s.KeepsForm (onNodes f s) :=
  keepsForm_next (thermalLimits_wf (s := { s with chip := f s.chip }) _)

theorem execBufferWindowAccess_keepsForm (acc : Access) (off : Nat) (wr : Option Word) (s : State) :
    s.KeepsForm (execBufferWindowAccess acc off wr s) := by
  unfold execBufferWindowAccess
  dsimp only
  split
  · exact keepsForm_next id
  · split
    · exact keepsForm_next (windowWrite_wf (s := s) _ _)
    · exact keepsForm_next id

theorem execHostDmaFailure_keepsForm (what : DmaFault) (s : State) : s.KeepsForm (execHostDmaFailure what s) := by
  unfold execHostDmaFailure
  split
  · exact onItems_keepsForm ..
  · exact onChip_keepsForm ..
  · exact onChip_keepsForm ..

theorem execInvalidOpcode_keepsForm (cmd : Cmd) (opc : Nat) (s : State) : s.KeepsForm (execInvalidOpcode cmd opc s) := by
  unfold execInvalidOpcode
  split
  · exact adminChip_keepsForm ..
  · exact onItems_keepsForm ..

theorem execImageEnvelopeCheck_keepsForm (addr : Nat) (s : State) : s.KeepsForm (execImageEnvelopeCheck addr s) := by
  unfold execImageEnvelopeCheck
  exact onChip_keepsForm ..

theorem execUnitSelfCheckFail_keepsForm (u : UnitRef) (s : State) : s.KeepsForm (exec (.unitSelfCheckFail u) s) := by
  obtain ⟨t, ht, hwf⟩ := onItems_keepsForm (fun c => c) (unitFail u s)
  exact ⟨t, ht, fun h => hwf (unitFail_wf u h)⟩

/-- Every command answers a next state and keeps the canonical form of the memories. -/
theorem exec_keepsForm (i : Instr) (s : State) : s.KeepsForm (exec i s) := by
  cases i with dsimp only [exec]
  | tickBoundary | adminCompletion => exact onHost_keepsForm ..
  | registerWrite | clearOnRead | reg64LowRead | reg64HighWrite | reg64LowWrite | busErrorAccess | absentUnitAccess | sealStrikeRequest
  | rcuTickStep =>
    exact keepsForm_next (access_wf _ _ _ _)
  | debugWindowAccess => exact keepsForm_next (debugAccess_wf _ _ _)
  | planAbandon | railAdcRound | siliconModelStep | sensorRead => exact onNodes_keepsForm ..
  | shedStart | shedEnd | arrayReadEnd | suspendDone | resumeDone | lockEnd | collectorGrant | calAdmitTest | calAdmitBind | calAdmitRelease
  | calFloorWrite | calNrgBudgetWrite | calMaintRead | calMaintErase | calMaintMaintenance | calDbgSelWrite | chStart | rewriteQueuePop
  | firstSampleScan | patrolRead | mapPin | mapUnpin | bbtRead | bbtRemove | interruptEntry | slotDrainDone | krfBind | krfUnbind | krfLookup
  | wpCommit | wpCommitDone | mbxPost | mbxPop | tfLaneFence | tqResume | cmdFetch | ownershipAutoMove | miRequest | fnEnable | fnDrainReset
  | fnPause | fnResume | ccEnClear | shutdownNotification | dlogStart | dlogStop | dlogCut | atsInvalidate | keySlotDrained | keyVaultUpdated
  | epochStrikePeriodic | epochStrikeRequested | epochSigned | bufferAlloc | leakAuditSample | auditUnfence | dramCommandSlot | dramAgePromotion
  | dramRefresh | dramRecalibration | frameSlotSend | frameRetransmit | frameRxKx | frameRxIdle | frameRxRoot | frameRxTsync | frameRxSvc
  | boomPortTrained | boomKeyingDone | boomKeyingTimeout | boomPortRetry | boomPeerSlow | boomPortFence | boomPortUnfence | boomBroadcast
  | boomBarrier | boomSnapshot | boomSystemReset | svcReportTimeout | pmuSetState | pmuSetCeiling | ps4Entry | ps4CommitPoint | ps4EntryAbandon
  | wakeEvent | pmuTimerExpiry | ps4Exit | dvfsChange | vddSettled | vcorePgLow | capExceed | sensorCrossCheck | thermalStep | rstNHigh
  | tickMarkWrite | logFlClear | logFlCurWrite | logTyCurWrite | logCaptureAdvance | tallyPeriodEnd | tallyRestart | lockstepMismatch | refRestored
  | powerRecovery | ccEnSet | msixVectorUnmask | boomTrainingTimeout | entropyHealthChange => exact onChip_keepsForm ..
  | statusPoll | completionCollected | dieTimeout | readAccept | dieBusyPost | reconstructXor | bringupEnd | bringupTimeout | chFence
  | codewordDecode | decLaneFence | groupPad | pageLoss | pageRebuildDone | mapFetchDone | gcMoveCommit | refreshMove | bbtAdd | invocationDispatch
  | invocationBudgetOverrun | hostLinkUp | hostLinkDown | doorbellWrite | ownershipSwap | formatUnitDone | sanitizeUnitDone | fnDisable
  | fnSquashReset | functionLevelReset | vfEnableChange | functionResetDone | drainTimeout | translationCompletion | translationTimeout
  | dramEccError | ps3Entry | ps3Exit | supplyTimeout | startUp | lockstepRestartDone | packageFault => exact onItems_keepsForm ..
  | nop | clrv | add | sub | mul | and | or | xor | shl | shr | sar | minu | maxu | bins | popc | clz | addi | andi | ori | xori | shli | shri | sari
  | movi | movk | bext | cmp | cmpi | pset => exact keepsForm_next (kerfRegs_wf _ _ _ _ _)
  | ldb | ldh | ldw | ldd => exact keepsForm_next (kerfLoad_wf _ _ _ _ _ _)
  | stb | sth | stw | std => exact keepsForm_next (kerfStore_wf _ _ _ _ _ _)
  | sadd | emit | fail | undo | exit | abort | shuf | sqz | xts | hash | place | tag => exact keepsForm_next (dataOnly_wf _ _ _ _)
  | krfLoad | krfUnload => exact keepsForm_of_mem (krfLoadGo_mem ..)
  | read | write | flush | writeZeroes | datasetManagement | zoneAppend | zoneOffline | setZoneDescriptorExt | zoneManagementReceive =>
    exact ioOp_keepsForm ..
  | zoneOpen | zoneClose | zoneFinish | zoneReset => exact zoneSend_keepsForm ..
  | createIoSq | createIoCq | deleteIoCq | setFeatures | getFeatures | setFeatureArbitration | setFeatureNumberOfQueues | setFeaturePowerManagement
  | setFeatureApst | setFeatureFdp | setFeatureReadContract | setFeatureOwnership | asyncEventRequest | firmwareImageDownload | formatNvm
  | sanitizeExitFailureMode | sanitizeOverwrite | nvmeMiSend | nvmeMiReceive => exact admin_keepsForm ..
  | deleteIoSq | nvmeAbort | namespaceManagement | namespaceAttachment => exact adminItems_keepsForm ..
  | getLogPage | getLogEmitRing | identify | rawSectorRangeSend | rawSectorReceive | dirtyLogReceive | securityProtocolInvalid =>
    exact adminChip_keepsForm ..
  | sanitizeBlockErase | sanitizeCryptoErase => exact sanitize_keepsForm ..
  | tokenChallenge | sealLogSeqSend | sealLogReceive | epochKeyObjectReceive | identityChainReceive => exact pfOnly_keepsForm ..
  | keyGenerateXts | keyGenerateGcm | keyEraseIndex | keyRewrite | keyEraseSlot | keyReloadPage => exact keepsForm_of_mem (keyCommand_mem ..)
  | plnNLow | vinTrip => exact keepsForm_next (powerTrigger_wf _)
  | planCommit cycle => exact keepsForm_next (fun h => thermalLimits_wf _ (flushDlog_wf (s := { s with chip := _ }) h))
  | commitWrite acc blk => exact keepsForm_next (access_wf _ _ _ _)
  | wardenCoreFail c selfCheck => exact keepsForm_next (fun h => State.wf_ite h (wardenFail_wf _ _ h))
  | imageEnvelopeCheck addr => exact execImageEnvelopeCheck_keepsForm addr s
  | bufferWindowAccess acc off wr => exact execBufferWindowAccess_keepsForm acc off wr s
  | powerLoss => exact keepsForm_next (powerCycle_wf (s := s))
  | hostDmaFailure what => exact execHostDmaFailure_keepsForm what s
  | unitSelfCheckFail u => exact execUnitSelfCheckFail_keepsForm u s
  | invalidOpcode cmd opc => exact execInvalidOpcode_keepsForm cmd opc s
  | mfs c g rd sel => exact keepsForm_next (fun h => State.wf_ite (dataRun_wf _ _ _ _ h) (wardenRegs_wf _ _ _ _ h))
  | br c g off | loop c rc maxm1 len =>
    exact keepsForm_next (fun h => State.wf_ite (dataRun_wf _ _ _ _ h) (wardenRun_wf (wf_of_mem (putWarden_mem ..)) _ _ _ _ h))
  | rcuWarm => exact keepsForm_next (resetSource_wf _)
  | rcuLifecycle acc => exact keepsForm_next (fun h => State.wf_ite (resetSource_wf _ h) h)
  | rstNLow => exact keepsForm_next (fun h => State.wf_ite h (resetSource_wf (s := { s with chip := _ }) _ h))
  | refLoss => exact keepsForm_next (fun h => State.wf_ite h (resetSource_wf (s := { s with chip := _ }) _ h))
  | systemResetTick => exact keepsForm_next systemReset_wf
  | landingFlushEnd => exact keepsForm_next flushEnd_wf
  | powerOn => exact keepsForm_next powerCycle_wf
  | ps3CommitPoint => exact keepsForm_next ps3Commit_wf
  | jmp | call | jr | eret | wfi | fence => exact keepsForm_next (controlOnly_wf (fun _ => wf_of_mem (putWarden_mem ..)) _ _ _ _)
  | mfc c g rd csr => exact keepsForm_next (controlOnly_wf (fun _ => wf_of_mem ((putWarden_mem ..).trans (csrRead_mem ..))) _ _ _ _)
  | mtc c g ra csr => exact keepsForm_next (controlOnly_wf (fun _ => wf_of_mem ((putWarden_mem ..).trans (csrWrite_mem ..))) _ _ _ _)
  | wcall c g svc => exact keepsForm_next (controlOnly_wf (fun _ => wf_of_mem (State.mem_ite (trap_mem ..) (putWarden_mem ..))) _ _ _ _)
  | cas c g rd ra rb => exact keepsForm_next (controlOnly_wf (fun w _ => casRun_wf rd ra rb w) _ _ _ _)
  | tqDescriptorFetch g => exact keepsForm_next (tqFetch_wf g)
  | copy | fill | tqShuf | xtsE | xtsD | tqHash => exact keepsForm_next (ringOp_wf (fun _ _ => wrote_wf _ _ _) _ _ _ _ _ _ _)
  | gather g q => exact keepsForm_next (ringOp_wf (fun x _ => gatherRun_wf x) _ _ _ _ _ _ _)
  | sqzC g q lane => exact keepsForm_next (ringOp_wf (fun x _ => sqzCRun_wf lane x) _ _ _ _ _ _ _)
  | sqzX g q lane => exact keepsForm_next (ringOp_wf (fun x _ => sqzXRun_wf lane x) _ _ _ _ _ _ _)
  | gcmE g q => exact keepsForm_next (ringOp_wf (fun x _ => gcmERun_wf x) _ _ _ _ _ _ _)
  | gcmD g q => exact keepsForm_next (ringOp_wf (fun x _ => gcmDRun_wf x) _ _ _ _ _ _ _)
  | bpmAlloc => exact keepsForm_next bpmAllocOp_wf
  | bpmRefTake handle | bpmRefRelease handle => exact keepsForm_of_mem (bpmRefOp_mem ..)
  | keyPageGenerateXts | keyPageGenerateGcm | keyPageErase | keyPageRewrite => exact keepsForm_next (adminOp_wf (wf_of_mem (keyPage_mem ..)) _)
  | firmwareCommit cmd ca fs keyid svn sigOk => exact keepsForm_next (adminOp_wf (wf_of_mem (firmwareCommit_mem ..)) cmd)
  | tokenReleaseZone cmd tok | tokenEnterHold cmd tok | tokenLeaveHold cmd tok | tokenRetire cmd tok | tokenDeploy cmd tok =>
    exact keepsForm_next (adminOp_wf (tokenCmd_wf _ _ _) cmd)
  | keyAlarm src => exact keepsForm_next (keyAlarm_wf src)
  | keyAnchorWrite acc a v => exact keepsForm_of_mem (keyAnchorWrite_mem ..)
  | lifecycleProvision => exact keepsForm_next lifecycleProvision_wf

/-- Settles O4: what a step does to the memories is writes, wipes and nothing, and each keeps the form. -/
theorem stepsKeepTheMemoriesForm : Obligations.StepsKeepTheMemoriesForm := by
  intro s t hstep hwf
  unfold Steps step at hstep
  split at hstep
  · cases hstep
    exact hwf
  · rename_i c rest _
    obtain ⟨u, hu, hform⟩ := exec_keepsForm c { s with pending := rest }
    obtain rfl : u = t := Host.Outcome.next.inj (hu.symm.trans hstep)
    exact hform hwf

/-- Settles O2: the fuses' moves already say that every command answers a next state beside which nothing else changes. -/
theorem everyCommandCompletes : Obligations.EveryCommandCompletes := by
  intro i s
  obtain ⟨t, ht, f, -, hbeside⟩ := exec_answers i s
  obtain ⟨hpending, henv, -⟩ : t.pending = s.pending ∧ t.env = s.env ∧ t.fuse = f := by simpa [State.beside] using hbeside
  exact ⟨t, ht, henv, hpending⟩

/-- Settles O1: by the two cases of the queue. -/
theorem stepRunsTheFrontCommand : Obligations.StepRunsTheFrontCommand := by
  refine ⟨fun c rest s hqueue => ?_, fun s hqueue => ?_⟩ <;> rw [step, hqueue]

end Sys2Proof.Machine
end

section
/-! SUPPORT. The Boom ports and their frames (R403-R408, R411, R413, R417, R422): what puts a port in another phase, which frames are accepted, and the
send window. -/

namespace Sys2Proof.Machine

/-- A command that acts on the controller alone, by what its action comes to. -/
theorem onChip_of_eq {f : Chip → Chip} {s : State} {d : Chip} (h : f s.chip = d) : onChip f s = .next { s with chip := d } := by
  rw [onChip_eq, h]

/-! The commands by the meaning that their rows have. -/

theorem exec_boomKeyingDone (n node serial : Nat) (fp : List Byte) (sig : Bool) (s : State) :
    exec (.boomKeyingDone n node serial fp sig) s = execBoomKeyingDone n node serial fp sig s := rfl

theorem exec_boomPortFence (n : Nat) (s : State) : exec (.boomPortFence n) s = execBoomPortFence n s := rfl

theorem exec_boomPortUnfence (n : Nat) (s : State) : exec (.boomPortUnfence n) s = execBoomPortUnfence n s := rfl

theorem exec_frameSlotSend (n : Nat) (s : State) : exec (.frameSlotSend n) s = execFrameSlotSend n s := rfl

theorem exec_frameRetransmit (n : Nat) (s : State) : exec (.frameRetransmit n) s = execFrameRetransmit n s := rfl

theorem exec_frameRxKx (h : FrameHdr) (msg frag : Nat) (bytes : List Byte) (s : State) :
    exec (.frameRxKx h msg frag bytes) s = execFrameRxKx h msg frag bytes s := rfl

theorem exec_frameRxRoot (h : FrameHdr) (m : RootMsg) (s : State) : exec (.frameRxRoot h m) s = execFrameRxRoot h m s := rfl

theorem exec_frameRxTsync (h : FrameHdr) (m : TsyncMsg) (s : State) : exec (.frameRxTsync h m) s = execFrameRxTsync h m s := rfl

theorem exec_frameRxSvc (h : FrameHdr) (m : SvcMsg) (s : State) : exec (.frameRxSvc h m) s = execFrameRxSvc h m s := rfl

/-! What a raise leaves of the Boom block and the key store. -/

@[simp] theorem Chip.raise_boom (c : Chip) (e code fn a0 a1 : Nat) : (c.raise e code fn a0 a1).boom = c.boom := by
  obtain ⟨o, r, t, n, h, -⟩ := c.raise_frame e code fn a0 a1
  rw [h]

@[simp] theorem Chip.raise0_boom (c : Chip) (e : Nat) : (c.raise0 e).boom = c.boom := by
  rw [Chip.raise0, Chip.raise_boom]

/-- A port is read from the Boom block alone. -/
theorem Chip.port_congr {c d : Chip} (h : c.boom.ports = d.boom.ports) (n : Nat) : c.port n = d.port n := by
  unfold Chip.port
  rw [h]

theorem Chip.ports_withRequest (c : Chip) (r : Option (Nat × Option Nat)) :
    { c with boom := { c.boom with request := r } }.boom.ports = c.boom.ports := rfl

@[simp] theorem Chip.requestDone_ports (c : Chip) (st a b : Nat) : (c.requestDone st a b).boom.ports = c.boom.ports := by
  simp only [Chip.requestDone]
  split
  · rfl
  · rw [Chip.ports_withRequest, Chip.setBit_boom, Chip.setReg_boom, Chip.setReg_boom]

@[simp] theorem Chip.parentLost_ports (c : Chip) (n : Nat) : (c.parentLost n).boom.ports = c.boom.ports := by
  unfold Chip.parentLost
  split
  · exact c.requestDone_ports ..
  · rfl

/-! Ports. -/

section
variable {s : State} {c : Chip} {n m : Nat}

theorem Chip.port_updPort (c : Chip) (n m : Nat) (g : Port → Port) : (c.updPort n g).port m = if m = n then g (c.port n) else c.port m :=
  c.port_setPort ..

theorem Chip.port_boomDown (c : Chip) (n m : Nat) : (c.boomDown n).port m = if m = n then (c.port n).drop .down c.tick else c.port m := by
  rw [Chip.boomDown, Chip.port_congr (d := c.updPort n (fun p => p.drop .down c.tick)) (by simp), Chip.port_updPort]

theorem Chip.port_boomFence (c : Chip) (n m cause : Nat) :
    (c.boomFence n cause).port m = if m = n then { (c.port n).drop .fenced c.tick with cause := cause } else c.port m := by
  rw [Chip.boomFence, Chip.port_congr (d := c.updPort n (fun p => { p.drop .fenced c.tick with cause := cause })) (by simp), Chip.port_updPort]

/-- The port as its link key takes effect (R405, R408). -/
def Port.keyed (p : Port) (t serial : Nat) : Port :=
  { p.drop .up t with
    tx := 0
    rx := 0
    slot := 0
    ackTick := t
    root := none
    tRxe := 0
    tTxe := 0
    peer := serial }

theorem Chip.port_portUp (c : Chip) (n m serial : Nat) : (c.portUp n serial).port m = if m = n then (c.port n).keyed c.tick serial else c.port m := by
  simp only [Chip.portUp, Chip.port, Chip.updPort, Chip.setPort, Tab.get_set]
  rfl

theorem Chip.slot_portUp (c : Chip) (n k serial : Nat) : (c.portUp n serial).slot k =
    if k = 16 + n then { KeySlot.empty with state := .valid, type := 2, key := Config.linkKey n c.free } else c.slot k := by
  simp only [Chip.portUp, Chip.slot, Chip.updPort, Chip.setPort, Chip.setSlot, Tab.get_set]

/-- A condition on the port decides whether a command acts. -/
theorem exec_boomPortTrained (s : State) (n : Nat) : exec (.boomPortTrained n) s = .next { s with
    chip := if (s.chip.port n).phase = .train then s.chip.enterKeying s.env n else s.chip } := rfl

theorem exec_boomKeyingDone_same {node serial : Nat} {fp : List Byte} {sig : Bool} (hphase : (s.chip.port n).phase = .keying)
    (hsame : fp = s.env.boom.fp.getD n [] ∧ node = s.env.boom.nb.getD n 0xFFFF ∧ sig = true) :
    exec (.boomKeyingDone n node serial fp sig) s = .next { s with chip := s.chip.portUp n serial } := by
  rw [exec_boomKeyingDone, execBoomKeyingDone]
  exact onChip_of_eq ((if_neg (not_not.mpr hphase)).trans (if_pos hsame))

theorem exec_boomKeyingDone_other {node serial : Nat} {fp : List Byte} {sig : Bool} (hphase : (s.chip.port n).phase = .keying)
    (hother : ¬ (fp = s.env.boom.fp.getD n [] ∧ node = s.env.boom.nb.getD n 0xFFFF ∧ sig = true)) :
    exec (.boomKeyingDone n node serial fp sig) s = .next { s with chip := s.chip.boomFence n 4 } := by
  rw [exec_boomKeyingDone, execBoomKeyingDone]
  exact onChip_of_eq ((if_neg (not_not.mpr hphase)).trans (if_neg hother))

theorem exec_boomKeyingTimeout (s : State) (n : Nat) : exec (.boomKeyingTimeout n) s = .next { s with
    chip := if (s.chip.port n).phase = .keying ∧ (s.chip.port n).since + 1250 ≤ s.chip.tick then s.chip.boomDown n else s.chip } := rfl

theorem exec_boomTrainingTimeout (s : State) (n : Nat) : exec (.boomTrainingTimeout n) s = .next { s with
    chip := if (s.chip.port n).phase = .train ∧ (s.chip.port n).since + 1250 ≤ s.chip.tick then s.chip.boomDown n else s.chip } := rfl

theorem exec_boomPortRetry (s : State) (n : Nat) : exec (.boomPortRetry n) s = .next { s with
    chip := if (s.chip.port n).phase = .down ∧ (s.chip.port n).since + 12500 ≤ s.chip.tick ∧ s.chip.bit Reg.boomCtrl 0 = true then
      s.chip.setPort n ((s.chip.port n).drop .train s.chip.tick) else s.chip } := rfl

theorem exec_boomPeerSlow (s : State) (n : Nat) : exec (.boomPeerSlow n) s = .next { s with
    chip := if (s.chip.port n).phase = .up ∧ (s.chip.port n).unacked ≠ [] ∧ (s.chip.port n).ackTick + 4 ≤ s.chip.tick then s.chip.boomDown n
      else s.chip } := rfl

theorem exec_boomPortFence_unfenced (hfull : s.env.part.full = true) (hn : n < 4) (hphase : (s.chip.port n).phase ≠ .fenced) :
    exec (.boomPortFence n) s = .next { s with chip := s.chip.boomFence n 1 } := by
  rw [exec_boomPortFence, execBoomPortFence]
  exact onChip_of_eq (if_pos (by simp [hfull, hn, hphase]))

theorem exec_boomPortUnfence_fenced (hphase : (s.chip.port n).phase = .fenced) (hdecl : s.env.declaresPort n = true) (hon : s.chip.bit Reg.boomCtrl 0 = true) :
    exec (.boomPortUnfence n) s = .next { s with chip := s.chip.setPort n ((s.chip.port n).drop .train s.chip.tick) } := by
  rw [exec_boomPortUnfence, execBoomPortUnfence]
  refine onChip_of_eq ((if_neg (not_not.mpr hphase)).trans ?_)
  simp [Chip.updPort, hdecl, hon]

end

/-! Sending (R403-R405). -/

section
variable {s : State} {n : Nat} {f : SentFrame} {rest : List SentFrame}

theorem exec_frameSlotSend_keying (hphase : (s.chip.port n).phase = .keying) : exec (.frameSlotSend n) s = .next { s with
    chip := s.chip.setPort n { s.chip.port n with
      slot := (s.chip.port n).slot + 1
      queue := (s.chip.port n).queue.drop 1 } } := by
  rw [exec_frameSlotSend, execFrameSlotSend]
  refine onChip_of_eq ?_
  rw [hphase]
  rfl

theorem exec_frameSlotSend_up (hphase : (s.chip.port n).phase = .up) :
    exec (.frameSlotSend n) s = .next { s with chip := s.chip.slotUp s.env n } := by
  rw [exec_frameSlotSend, execFrameSlotSend]
  refine onChip_of_eq ?_
  rw [hphase]

theorem exec_frameSlotSend_silent (hkeying : (s.chip.port n).phase ≠ .keying) (hup : (s.chip.port n).phase ≠ .up) :
    exec (.frameSlotSend n) s = .next { s with chip := s.chip } := by
  rw [exec_frameSlotSend, execFrameSlotSend]
  refine onChip_of_eq ?_
  split
  · exact absurd ‹_› hup
  · exact absurd ‹_› hkeying
  · rfl

/-- With nothing to repeat or to send, an IDLE frame takes the next counter and joins the window. -/
theorem Chip.slotUp_idle {c : Chip} (e : Env) (hresend : (c.port n).resend = none) (hwindow : (c.port n).unacked.length < 276)
    (hqueue : (c.port n).queue = []) (htx : (c.port n).tx < 2 ^ 64 - 1) : c.slotUp e n = c.pass.setPort n { c.port n with
      slot := (c.port n).slot + 1
      tx := (c.port n).tx + 1
      resend := none
      queue := []
      ackTick := if (c.port n).unacked = [] then c.tick else (c.port n).ackTick
      unacked := (c.port n).unacked ++ [⟨(c.port n).tx, (c.port n).slot, .idle⟩] } := by
  have hlast : ¬ 2 ^ 64 - 1 ≤ (c.port n).tx := not_le.mpr htx
  simp only [Chip.slotUp, hresend, if_neg (not_le.mpr hwindow), Option.bind_none, if_neg hlast, hqueue, List.head?_nil, List.drop_nil]

theorem exec_frameRetransmit_late (hphase : (s.chip.port n).phase = .up) (hwindow : (s.chip.port n).unacked = f :: rest)
    (hlate : ∃ g ∈ (s.chip.port n).unacked, g.slot + 138 ≤ (s.chip.port n).slot) :
    exec (.frameRetransmit n) s = .next { s with chip := s.chip.setPort n { s.chip.port n with resend := some f.ctr } } := by
  have hany : (s.chip.port n).unacked.any (fun g => decide (g.slot + 138 ≤ (s.chip.port n).slot)) = true := by simpa using hlate
  rw [exec_frameRetransmit, execFrameRetransmit]
  refine onChip_of_eq ?_
  dsimp only
  split
  next hnil => exact absurd (hnil.symm.trans hwindow) (by simp)
  next g r hcons =>
    obtain ⟨rfl, -⟩ := List.cons.inj (hcons.symm.trans hwindow)
    exact if_pos ⟨hphase, hany⟩

theorem exec_frameRetransmit_early (hearly : ∀ g ∈ (s.chip.port n).unacked, (s.chip.port n).slot < g.slot + 138) :
    exec (.frameRetransmit n) s = .next { s with chip := s.chip } := by
  rw [exec_frameRetransmit, execFrameRetransmit]
  refine onChip_of_eq ?_
  dsimp only
  split
  · rfl
  · refine if_neg (fun h => ?_)
    obtain ⟨g, hg, hslot⟩ := List.any_eq_true.mp h.2
    exact absurd (of_decide_eq_true hslot) (not_le.mpr (hearly g hg))

end

/-! Receiving (R405-R407). -/

section
variable {s : State} {c : Chip} {h : FrameHdr} {kx bad : Bool}

/-- The port of a frame that is accepted in counter order. -/
def Port.accepts (p : Port) (h : FrameHdr) (t : Nat) : Port := { p.acked h.ack t with rx := p.rx + 1 }

/-- The frame is one that a port that is UP accepts (R405-R407). -/
structure GoodFrame (h : FrameHdr) (p : Port) : Prop where
  up : p.phase = .up
  crc : h.crcOk = true
  tag : h.tagOk = true
  next : p.rx % 2 ^ 32 = h.seq

theorem Chip.boomRx_silent (hkeying : (c.port h.port).phase ≠ .keying) (hup : (c.port h.port).phase ≠ .up) : c.boomRx h kx bad = (false, c) :=
  if_pos ⟨hup, hkeying⟩

/-- A port in UP or KEYING takes part. -/
theorem Chip.boomRx_listens (hphase : (c.port h.port).phase = .up ∨ (c.port h.port).phase = .keying) :
    ¬ ((c.port h.port).phase ≠ .up ∧ (c.port h.port).phase ≠ .keying) := fun hn => hphase.elim hn.1 hn.2

theorem Chip.boomRx_crc (hup : (c.port h.port).phase = .up) (hcrc : h.crcOk = false) : c.boomRx h kx bad = (false, c.boomCrc h.port) :=
  (if_neg (Chip.boomRx_listens (.inl hup))).trans (if_pos (by simp [hcrc]))

theorem Chip.boomRx_keying (hkeying : (c.port h.port).phase = .keying) (hcrc : h.crcOk = true) : c.boomRx h true bad = (true, c) :=
  (if_neg (Chip.boomRx_listens (.inr hkeying))).trans ((if_neg (by simp [hcrc])).trans (if_pos hkeying))

/-- With a good CRC, a port that is UP goes on to the frame's tag and content. -/
theorem Chip.boomRx_up (hup : (c.port h.port).phase = .up) (hcrc : h.crcOk = true) : c.boomRx h kx bad =
    if kx || !h.tagOk || bad then (false, c.boomAuth h.port)
    else if (c.port h.port).rx % 2 ^ 32 ≠ h.seq then (false, c)
    else (true, c.setPort h.port ((c.port h.port).accepts h c.tick)) :=
  (if_neg (Chip.boomRx_listens (.inl hup))).trans ((if_neg (by simp [hcrc])).trans (if_neg (by simp [hup])))

theorem Chip.boomRx_auth (hup : (c.port h.port).phase = .up) (hcrc : h.crcOk = true) (hbad : (kx || !h.tagOk || bad) = true) :
    c.boomRx h kx bad = (false, c.boomAuth h.port) := (Chip.boomRx_up hup hcrc).trans (if_pos hbad)

theorem Chip.boomRx_order (hup : (c.port h.port).phase = .up) (hcrc : h.crcOk = true) (htag : h.tagOk = true)
    (hseq : (c.port h.port).rx % 2 ^ 32 ≠ h.seq) : c.boomRx h false false = (false, c) :=
  (Chip.boomRx_up hup hcrc).trans ((if_neg (by simp [htag])).trans (if_pos hseq))

theorem Chip.boomRx_good (hg : GoodFrame h (c.port h.port)) :
    c.boomRx h false false = (true, c.setPort h.port ((c.port h.port).accepts h c.tick)) :=
  (Chip.boomRx_up hg.up hg.crc).trans ((if_neg (by simp [hg.tag])).trans (if_neg (not_not.mpr hg.next)))

theorem Tab.insert_insert {α : Type} (t : Tab α) (k : Nat) (v w : α) : Tab.insert (Tab.insert t k v) k w = Tab.insert t k w := by
  induction t with
  | nil => simp [Tab.insert]
  | cons p t ih =>
    obtain ⟨a, u⟩ := p
    by_cases heq : a = k
    · simp [Tab.insert, heq]
    · by_cases hlt : k < a
      · simp [Tab.insert, heq, hlt]
      · simp [Tab.insert, heq, hlt, ih]

/-- A second write of a port replaces the first, where neither puts the port off. -/
theorem Chip.setPort_setPort (c : Chip) (n : Nat) {p q : Port} (hp : p ≠ Port.off) (hq : q ≠ Port.off) :
    (c.setPort n p).setPort n q = c.setPort n q := by
  simp only [Chip.setPort, Tab.set, if_neg hp, if_neg hq, Tab.insert_insert]

theorem Port.ne_off {p : Port} (h : p.phase = .up) : p ≠ Port.off := by
  rintro rfl
  exact absurd h (by decide)

@[simp] theorem Port.acked_phase (p : Port) (ack t : Nat) : (p.acked ack t).phase = p.phase := by
  simp only [Port.acked]
  split <;> rfl

theorem Port.phase_withRx (p : Port) (k : Nat) : { p with rx := k }.phase = p.phase := rfl

@[simp] theorem Port.accepts_phase (p : Port) (h : FrameHdr) (t : Nat) : (p.accepts h t).phase = p.phase := by
  rw [Port.accepts, Port.phase_withRx, Port.acked_phase]

/-- What an accepted frame leaves in its port's record: the root it has heard, and the times of a TSYNC. -/
theorem Chip.updPort_setPort {n : Nat} {p : Port} {g : Port → Port} (hp : p.phase = .up) (hg : (g p).phase = .up) :
    (c.setPort n p).updPort n g = c.setPort n (g p) := by
  rw [Chip.updPort, Chip.port_setPort, if_pos rfl, Chip.setPort_setPort c n (Port.ne_off hp) (Port.ne_off hg)]

theorem Chip.setPort_root {n : Nat} {p : Port} (hp : p.phase = .up) (k : Nat) (r : Option (RootMsg × Nat)) :
    (c.setPort n { p with rx := k }).updPort n (fun p => { p with root := r }) = c.setPort n { p with rx := k, root := r } :=
  Chip.updPort_setPort hp hp

theorem Chip.setPort_sync {n : Nat} {p : Port} (hp : p.phase = .up) (k a b t : Nat) :
    (c.setPort n { p with rx := k }).updPort n (fun p => { p with tRxe := a, tTxe := b, lastSync := t }) =
      c.setPort n { p with rx := k, tRxe := a, tTxe := b, lastSync := t } :=
  Chip.updPort_setPort hp hp

theorem exec_frameRxIdle (h : FrameHdr) (s : State) : exec (.frameRxIdle h) s = .next { s with chip := (s.chip.boomRx h false false).2 } := rfl

/-- A frame that is not accepted does what its checks do. -/
theorem exec_frameRxRoot_dropped {root : RootMsg} {d : Chip} (hrx : s.chip.boomRx h false (falseRoot h.node root) = (false, d)) :
    exec (.frameRxRoot h root) s = .next { s with chip := d } := by
  rw [exec_frameRxRoot, execFrameRxRoot]
  refine onChip_of_eq ?_
  rw [hrx]
  rfl

theorem exec_frameRxTsync_dropped {m : TsyncMsg} {d : Chip} (hrx : s.chip.boomRx h false false = (false, d)) :
    exec (.frameRxTsync h m) s = .next { s with chip := d } := by
  rw [exec_frameRxTsync, execFrameRxTsync]
  refine onChip_of_eq ?_
  rw [hrx]
  rfl

theorem exec_frameRxSvc_dropped {m : SvcMsg} {d : Chip} (hrx : s.chip.boomRx h false false = (false, d)) :
    exec (.frameRxSvc h m) s = .next { s with chip := d } := by
  rw [exec_frameRxSvc, execFrameRxSvc]
  refine onChip_of_eq ?_
  rw [hrx]
  rfl

theorem exec_frameRxKx_dropped {msg frag : Nat} {bytes : List Byte} {d : Chip} (hrx : s.chip.boomRx h true false = (false, d)) :
    exec (.frameRxKx h msg frag bytes) s = .next { s with chip := d } := by
  rw [exec_frameRxKx, execFrameRxKx]
  refine onChip_of_eq ?_
  rw [hrx]
  rfl

/-- A new fragment of MSG 2 or 3 is kept (R408). -/
theorem exec_frameRxKx_kept {msg frag : Nat} {bytes : List Byte} (hkeying : (s.chip.port h.port).phase = .keying) (hcrc : h.crcOk = true)
    (hmsg : msg ≠ 0) (hnot1 : msg ≠ 1) (hnew : ∀ x ∈ (s.chip.port h.port).kx, ¬ (x.1 = msg ∧ x.2.1 = frag)) :
    exec (.frameRxKx h msg frag bytes) s = .next { s with chip := s.chip.setPort h.port { s.chip.port h.port with
      kx := (s.chip.port h.port).kx ++ [(msg, frag, bytes)] } } := by
  have hfresh : (s.chip.port h.port).kx.any (fun f => f.1 == msg && f.2.1 == frag) = false := by
    simpa [List.any_eq_false] using fun a b r hx ha hb => hnew (a, b, r) hx ⟨ha, hb⟩
  rw [exec_frameRxKx, execFrameRxKx]
  refine onChip_of_eq ?_
  rw [Chip.boomRx_keying hkeying hcrc]
  exact (if_neg (by simp [hfresh, hmsg])).trans (if_neg hnot1)

theorem falseRoot_iff (node : Nat) (m : RootMsg) :
    falseRoot node m = true ↔ (m.root = node ∧ m.level ≠ 0) ∨ (m.level = 0 ∧ m.root ≠ node) := by
  simp [falseRoot]

theorem exec_frameRxRoot_false {root : RootMsg} (hg : GoodFrame h (s.chip.port h.port)) (hroot : falseRoot h.node root = true) :
    exec (.frameRxRoot h root) s = .next { s with chip := s.chip.boomAuth h.port } :=
  exec_frameRxRoot_dropped (Chip.boomRx_auth hg.up hg.crc (by simp [hroot]))

theorem exec_frameRxRoot_kept {root : RootMsg} (hg : GoodFrame h (s.chip.port h.port)) (hroot : falseRoot h.node root = false) :
    exec (.frameRxRoot h root) s = .next { s with chip := s.chip.setPort h.port { (s.chip.port h.port).acked h.ack s.chip.tick with
      rx := (s.chip.port h.port).rx + 1
      root := some (root, s.chip.tick) } } := by
  rw [exec_frameRxRoot, execFrameRxRoot]
  refine onChip_of_eq ?_
  rw [hroot, Chip.boomRx_good hg, Port.accepts]
  exact Chip.setPort_root ((Port.acked_phase ..).trans hg.up) _ _

theorem exec_frameRxTsync_kept {m : TsyncMsg} (hg : GoodFrame h (s.chip.port h.port)) (hparent : s.chip.boom.parent ≠ some h.port) :
    exec (.frameRxTsync h m) s = .next { s with chip := s.chip.setPort h.port { (s.chip.port h.port).acked h.ack s.chip.tick with
      rx := (s.chip.port h.port).rx + 1
      tRxe := m.rxTime
      tTxe := m.tTx
      lastSync := s.chip.tick } } := by
  rw [exec_frameRxTsync, execFrameRxTsync]
  refine onChip_of_eq ?_
  rw [Chip.boomRx_good hg, Port.accepts]
  exact (if_neg (by simp)).trans ((if_neg hparent).trans (Chip.setPort_sync ((Port.acked_phase ..).trans hg.up) _ _ _ _))

theorem Port.acked_root (p : Port) (ack t : Nat) : (p.acked ack t).root = p.root := by
  simp only [Port.acked]
  split <;> rfl

theorem Port.acked_svcTick (p : Port) (ack t : Nat) : (p.acked ack t).svcTick = p.svcTick := by
  simp only [Port.acked]
  split <;> rfl

theorem Port.root_withRx (p : Port) (k : Nat) : { p with rx := k }.root = p.root := rfl

theorem Port.svcTick_withRx (p : Port) (k : Nat) : { p with rx := k }.svcTick = p.svcTick := rfl

theorem Port.accepts_svcTick (p : Port) (h : FrameHdr) (t : Nat) : (p.accepts h t).svcTick = p.svcTick := by
  rw [Port.accepts, Port.svcTick_withRx, Port.acked_svcTick]

/-- A frame that is accepted makes no port a child. -/
theorem Port.accepts_child (p : Port) (h : FrameHdr) (t : Nat) : (p.accepts h t).child = p.child := by
  rw [Port.child, Port.accepts_phase, Port.accepts, Port.root_withRx, Port.acked_root, Port.child]

/-- A message joins those that wait for the boundary (R417). -/
def Chip.addInbox (c : Chip) (x : Option Nat × SvcMsg) : Chip := { c with boom := { c.boom with inbox := c.boom.inbox ++ [x] } }

theorem Chip.addInbox_inbox (c : Chip) (x : Option Nat × SvcMsg) : (c.addInbox x).boom.inbox = c.boom.inbox ++ [x] := rfl

theorem Chip.port_addInbox (c : Chip) (x : Option Nat × SvcMsg) (k : Nat) : (c.addInbox x).port k = c.port k := rfl

theorem Chip.setPort_inbox (c : Chip) (n : Nat) (p : Port) : (c.setPort n p).boom.inbox = c.boom.inbox := rfl

/-- The port of an accepted frame with a service message, which counts in its tick. -/
def Port.acceptsSvc (p : Port) (h : FrameHdr) (t : Nat) : Port := { p.accepts h t with svcTick := p.svcTick + 1 }

/-- An accepted service message is kept for the boundary. -/
theorem exec_frameRxSvc_kept {m : SvcMsg} (hg : GoodFrame h (s.chip.port h.port)) (hchild : (s.chip.port h.port).child = false) (hdir : m.dir ≠ 1) :
    exec (.frameRxSvc h m) s = .next { s with
      chip := (s.chip.setPort h.port ((s.chip.port h.port).acceptsSvc h s.chip.tick)).addInbox (some h.port, m) } := by
  have hport : (s.chip.setPort h.port ((s.chip.port h.port).accepts h s.chip.tick)).port h.port = (s.chip.port h.port).accepts h s.chip.tick :=
    (Chip.port_setPort ..).trans (if_pos rfl)
  have haccepts : (s.chip.port h.port).accepts h s.chip.tick ≠ Port.off := Port.ne_off (by simpa using hg.up)
  have hsvc : (s.chip.port h.port).acceptsSvc h s.chip.tick ≠ Port.off := Port.ne_off (by simpa [Port.acceptsSvc] using hg.up)
  rw [exec_frameRxSvc, execFrameRxSvc, ← Chip.setPort_setPort s.chip h.port haccepts hsvc]
  refine onChip_of_eq ?_
  rw [Chip.boomRx_good hg]
  dsimp only
  rw [hport, Port.accepts_child, Port.accepts_svcTick, hchild]
  exact (if_neg (by simp)).trans ((if_neg (by simp)).trans (if_neg (fun hn => hdir hn.1)))

end

/-- Settles O54: a port moves as its phase and timers say; a frame is accepted by its port's phase, its CRC and tag and the counter, and an accepted one is
kept with its counter. -/
theorem boomPortsAndFrames : Obligations.BoomPortsAndFrames := by
  refine ⟨fun s n node serial fp sig => ?_, fun s h root sync svc msg frag bytes f rest => ?_⟩
  · intro c p gives same
    refine ⟨fun hphase => ?_, fun hphase => ?_, fun hphase => ⟨fun hsame => ?_, fun hother => ?_, fun hlate => ?_, fun hearly => ?_⟩,
      fun hphase => ⟨fun hlate => ?_, fun hearly => ?_⟩, fun hphase hon => ⟨fun hlate => ?_, fun hearly => ?_⟩,
      fun hphase hwait => ⟨fun hlate => ?_, fun hearly => ?_⟩, exec_boomPortFence_unfenced, exec_boomPortUnfence_fenced, ?_, fun cause => ?_, ?_⟩
    · exact (exec_boomPortTrained s n).trans (by rw [if_pos hphase])
    · exact (exec_boomPortTrained s n).trans (by rw [if_neg hphase])
    · exact exec_boomKeyingDone_same hphase hsame
    · exact exec_boomKeyingDone_other hphase hother
    · exact (exec_boomKeyingTimeout s n).trans (by rw [if_pos ⟨hphase, hlate⟩])
    · exact (exec_boomKeyingTimeout s n).trans (by rw [if_neg (fun h => not_le.mpr hearly h.2)])
    · exact (exec_boomTrainingTimeout s n).trans (by rw [if_pos ⟨hphase, hlate⟩])
    · exact (exec_boomTrainingTimeout s n).trans (by rw [if_neg (fun h => not_le.mpr hearly h.2)])
    · exact (exec_boomPortRetry s n).trans (by rw [if_pos ⟨hphase, hlate, hon⟩])
    · exact (exec_boomPortRetry s n).trans (by rw [if_neg (fun h => not_le.mpr hearly h.2.1)])
    · exact (exec_boomPeerSlow s n).trans (by rw [if_pos ⟨hphase, hwait, hlate⟩])
    · exact (exec_boomPeerSlow s n).trans (by rw [if_neg (fun h => not_le.mpr hearly h.2.2)])
    · have hport : (c.portUp n serial).port n = (c.port n).keyed c.tick serial := (c.port_portUp n n serial).trans (if_pos rfl)
      have hslot := (c.slot_portUp n (16 + n) serial).trans (if_pos rfl)
      intro up
      refine ⟨?_, ?_, ?_, ?_, ?_, ?_, ?_, fun m hm => (c.port_portUp ..).trans (if_neg hm), fun k hk => (c.slot_portUp ..).trans (if_neg hk)⟩
      · rw [hport, Port.keyed, Port.drop]
      · rw [hport, Port.keyed]
      · rw [hport, Port.keyed]
      · rw [hport, Port.keyed, Port.drop]
      · rw [hport, Port.keyed]
      · rw [hslot]
      · rw [hslot]
    · refine ⟨?_, ?_, fun m hm => (c.port_boomFence ..).trans (if_neg hm)⟩
      · rw [Chip.port_boomFence, if_pos rfl, Port.drop]
      · rw [Chip.port_boomFence, if_pos rfl]
    · refine ⟨?_, fun m hm => (c.port_boomDown ..).trans (if_neg hm)⟩
      rw [Chip.port_boomDown, if_pos rfl, Port.drop]
  · intro c n p gives taken good
    have hidle {ok : Bool} {d : Chip} (hrx : c.boomRx h false false = (ok, d)) : gives (.frameRxIdle h) d :=
      (exec_frameRxIdle h s).trans (by rw [hrx])
    refine ⟨exec_frameSlotSend_keying, fun hkeying hup => ?_, fun hup hresend hwindow hqueue htx => ?_, fun hup hwindow => ⟨fun hlate => ?_, fun hearly => ?_⟩,
      fun hup hcrc => ?_, fun hup hcrc htag => ?_, fun hup hcrc => ?_, fun hup hcrc htag hseq => ?_, exec_frameRxKx_kept, fun hgood => ?_⟩
    · exact ⟨exec_frameSlotSend_silent hkeying hup, hidle (Chip.boomRx_silent hkeying hup), exec_frameRxRoot_dropped (Chip.boomRx_silent hkeying hup),
        exec_frameRxTsync_dropped (Chip.boomRx_silent hkeying hup), exec_frameRxSvc_dropped (Chip.boomRx_silent hkeying hup)⟩
    · exact (exec_frameSlotSend_up hup).trans (by rw [Chip.slotUp_idle s.env hresend hwindow hqueue htx])
    · exact exec_frameRetransmit_late hup hwindow hlate
    · exact exec_frameRetransmit_early hearly
    · exact ⟨hidle (Chip.boomRx_crc hup hcrc), exec_frameRxSvc_dropped (Chip.boomRx_crc hup hcrc)⟩
    · have hbad : (false || !h.tagOk || false) = true := by simp [htag]
      exact ⟨hidle (Chip.boomRx_auth hup hcrc hbad), exec_frameRxSvc_dropped (Chip.boomRx_auth hup hcrc hbad)⟩
    · exact exec_frameRxKx_dropped (Chip.boomRx_auth hup hcrc rfl)
    · exact ⟨hidle (Chip.boomRx_order hup hcrc htag hseq), exec_frameRxSvc_dropped (Chip.boomRx_order hup hcrc htag hseq)⟩
    · obtain ⟨hup, hcrc, htag, hseq⟩ := hgood
      have hg : GoodFrame h (c.port h.port) := ⟨hup, hcrc, htag, hseq⟩
      refine ⟨hidle (Chip.boomRx_good hg), fun hfalse => ?_, fun hown hzero => ?_, fun hparent => ?_, fun hchild hdir => ?_⟩
      · exact exec_frameRxRoot_false hg ((falseRoot_iff ..).mpr hfalse)
      · exact exec_frameRxRoot_kept hg (Bool.eq_false_iff.mpr (fun hroot => ((falseRoot_iff ..).mp hroot).elim hown hzero))
      · exact exec_frameRxTsync_kept hg hparent
      · refine ⟨_, exec_frameRxSvc_kept hg hchild hdir, ?_, ?_, ?_, fun m hm => ?_⟩
        · rw [Chip.addInbox_inbox, Chip.setPort_inbox]
        · rw [Chip.port_addInbox, Chip.port_setPort, if_pos rfl, Port.acceptsSvc, Port.accepts]
        · rw [Chip.port_addInbox, Chip.port_setPort, if_pos rfl, Port.acceptsSvc]
        · rw [Chip.port_addInbox, Chip.port_setPort, if_neg hm]

end Sys2Proof.Machine
end

section
/-! SUPPORT. The Boom services (R417-R421): the local request and its end, a child that does not report, and the agreed system reset. -/

namespace Sys2Proof.Machine

/-! The local request (R418). -/

section
variable {s : State} {c : Chip} {e : Env} {op n up : Nat} {i : Instr}

/-- The chip with another local request. -/
def Chip.withRequest (c : Chip) (r : Option (Nat × Option Nat)) : Chip := { c with boom := { c.boom with request := r } }

@[simp] theorem Chip.withRequest_boom (c : Chip) (r : Option (Nat × Option Nat)) : (c.withRequest r).boom = { c.boom with request := r } := rfl

@[simp] theorem Chip.withRequest_reg (c : Chip) (r : Option (Nat × Option Nat)) (a : Nat) : (c.withRequest r).reg a = c.reg a := rfl

/-- The registers of a request that has just been written: GO and OP stand, the results are cleared. -/
def Chip.boomAsked (c : Chip) (op : Nat) : Chip :=
  ((c.setReg Reg.boomSvcReq (2 ^ 31 + op * 2 ^ 28)).setReg Reg.boomSvcRes 0).setReg Reg.boomSvcMiss 0

/-- The chip in which the local request runs. -/
def Chip.boomBegun (c : Chip) (op : Nat) : Chip := (c.boomAsked op).withRequest (some (op, none))

@[simp] theorem Chip.boomAsked_boom (c : Chip) (op : Nat) : (c.boomAsked op).boom = c.boom := by
  rw [Chip.boomAsked, Chip.setReg_boom, Chip.setReg_boom, Chip.setReg_boom]

@[simp] theorem Chip.boomBegun_boom (c : Chip) (op : Nat) : (c.boomBegun op).boom = { c.boom with request := some (op, none) } := by
  rw [Chip.boomBegun, Chip.withRequest_boom, Chip.boomAsked_boom]

theorem Chip.svc_boomBegun (c : Chip) (op k : Nat) : (c.boomBegun op).svc k = c.svc k := by
  rw [Chip.svc, Chip.boomBegun_boom, Chip.svc]

theorem Chip.port_boomBegun (c : Chip) (op k : Nat) : (c.boomBegun op).port k = c.port k := by
  rw [Chip.port, Chip.boomBegun_boom, Chip.port]

theorem Chip.boomGo_off (h : e.part.full = false ∨ c.boom.request ≠ none) : c.boomGo e op = c :=
  if_pos (by simpa [Option.isSome_iff_ne_none] using h)

theorem Chip.boomGo_begins (hfull : e.part.full = true) (hidle : c.boom.request = none) (hop : op < 4) : c.boomGo e op =
    if op = 1 then
      if (c.boomBegun op).boom.align = 3 || ((c.boomBegun op).svc 1).any (·.self) then (c.boomBegun op).requestDone cstBusy 0 0
      else ((c.boomBegun op).addSvc 1 0 0).svcSelf 1 1 0
    else (c.boomBegun op).svcRequest e none ⟨0, op, 0, e.node, 0, 0, 0,
      if op = 0 then (List.range 4).map (fun i => BitVec.ofNat 32 ((c.boomBegun op).reg (Reg.boomSvcData i))) else []⟩ := by
  have hmod : op % 8 = op := Nat.mod_eq_of_lt (by omega)
  rw [Chip.boomGo, if_neg (by simp [hfull, hidle]), hmod]
  exact if_neg (not_le.mpr hop)

theorem Chip.boomGo_barrier_refused (hfull : e.part.full = true) (hidle : c.boom.request = none)
    (hbusy : c.boom.align = 3 ∨ ∃ v, c.svc 1 = some v ∧ v.self = true) : c.boomGo e 1 = (c.boomBegun 1).requestDone cstBusy 0 0 := by
  have hany : (decide (c.boom.align = 3) || (c.svc 1).any (·.self)) = true := by
    rcases hbusy with halign | ⟨v, hsvc, hself⟩
    · simp [halign]
    · simp [hsvc, hself]
  rw [Chip.boomGo_begins hfull hidle (by decide), if_pos rfl, Chip.svc_boomBegun, Chip.boomBegun_boom]
  exact if_pos hany

theorem Chip.svcRequest_up (hparent : c.boom.parent = some up) (port : Option Nat) (m : SvcMsg) :
    c.svcRequest e port m = c.setPort up { c.port up with queue := (c.port up).queue ++ [.svc m] } := by
  rw [Chip.svcRequest, if_pos (by rw [hparent]; rfl), Chip.toParent, hparent]
  rfl

theorem Chip.boomGo_sent (hfull : e.part.full = true) (hidle : c.boom.request = none) (hop : op < 4) (hbarrier : op ≠ 1)
    (hparent : c.boom.parent = some up) : c.boomGo e op = (c.boomBegun op).setPort up { c.port up with
      queue := (c.port up).queue ++ [.svc ⟨0, op, 0, e.node, 0, 0, 0,
        if op = 0 then (List.range 4).map (fun i => BitVec.ofNat 32 ((c.boomBegun op).reg (Reg.boomSvcData i))) else []⟩] } := by
  rw [Chip.boomGo_begins hfull hidle hop, if_neg hbarrier, Chip.svcRequest_up (by rw [Chip.boomBegun_boom, hparent]), Chip.port_boomBegun]

/-- The four requests are one command with an operation each. -/
theorem exec_boomGo (h : (op, i) ∈ [(0, Instr.boomBroadcast), (1, .boomBarrier), (2, .boomSnapshot), (3, .boomSystemReset)]) (s : State) :
    op < 4 ∧ exec i s = .next { s with chip := s.chip.boomGo s.env op } := by
  simp only [List.mem_cons, Prod.mk.injEq, List.not_mem_nil, or_false] at h
  rcases h with ⟨rfl, rfl⟩ | ⟨rfl, rfl⟩ | ⟨rfl, rfl⟩ | ⟨rfl, rfl⟩ <;> exact ⟨by decide, rfl⟩

/-! The end of a request (R418). -/

theorem Chip.requestDone_runs (hruns : c.boom.request.isNone = false) (st a b : Nat) : c.requestDone st a b =
    (((c.setReg Reg.boomSvcRes (2 ^ 31 + a % 2 ^ 15 * 2 ^ 16 + st)).setReg Reg.boomSvcMiss (b % 2 ^ 15)).setBit Reg.boomSvcReq 31 false).withRequest none := by
  rw [Chip.requestDone, if_neg (by simp [hruns]), Chip.withRequest]

theorem Chip.boomBegun_requestDone (c : Chip) (op st a b : Nat) : (c.boomBegun op).requestDone st a b =
    ((((c.boomBegun op).setReg Reg.boomSvcRes (2 ^ 31 + a % 2 ^ 15 * 2 ^ 16 + st)).setReg Reg.boomSvcMiss (b % 2 ^ 15)).setBit
      Reg.boomSvcReq 31 false).withRequest none :=
  Chip.requestDone_runs (by rw [Chip.boomBegun_boom]; rfl) ..

theorem Chip.reg_setBit_self (c : Chip) (a i : Nat) (x : Bool) : (c.setBit a i x).reg a = putBits (c.reg a) i i (b2n x) % 2 ^ 32 :=
  Chip.reg_setReg_self ..

theorem putBits_clear_top {v : Nat} (hv : v < 2 ^ 32) : putBits v 31 31 0 % 2 ^ 32 = v % 2 ^ 31 := by
  simp only [putBits, bitsOf]
  omega

theorem Chip.requestDone_req (c : Chip) (op st a b : Nat) :
    ((c.boomBegun op).requestDone st a b).reg Reg.boomSvcReq = (c.boomAsked op).reg Reg.boomSvcReq % 2 ^ 31 := by
  rw [Chip.boomBegun_requestDone, Chip.withRequest_reg, Chip.reg_setBit_self, b2n, if_neg Bool.false_ne_true, putBits_clear_top (Chip.reg_lt _ _),
    Chip.reg_setReg_ne _ (by decide), Chip.reg_setReg_ne _ (by decide), Chip.boomBegun, Chip.withRequest_reg]

theorem Chip.requestDone_res (c : Chip) (op b : Nat) {st a : Nat} (hst : st < 2 ^ 16) (ha : a < 2 ^ 15) :
    ((c.boomBegun op).requestDone st a b).reg Reg.boomSvcRes = 2 ^ 31 + a * 2 ^ 16 + st := by
  rw [Chip.boomBegun_requestDone, Chip.withRequest_reg, Chip.reg_setBit_ne _ (by decide), Chip.reg_setReg_ne _ (by decide), Chip.reg_setReg_self,
    Nat.mod_eq_of_lt ha, Nat.mod_eq_of_lt (by omega)]

theorem Chip.requestDone_miss (c : Chip) (op st a : Nat) {b : Nat} (hb : b < 2 ^ 15) :
    ((c.boomBegun op).requestDone st a b).reg Reg.boomSvcMiss = b := by
  rw [Chip.boomBegun_requestDone, Chip.withRequest_reg, Chip.reg_setBit_ne _ (by decide), Chip.reg_setReg_self, Nat.mod_eq_of_lt hb,
    Nat.mod_eq_of_lt (by omega)]

/-! A child that does not report in time (R421). -/

theorem exec_svcReportTimeout (n : Nat) (s : State) : exec (.svcReportTimeout n) s = .next { s with chip := s.chip.reportTimeout n } := rfl

theorem Chip.reportTimeout_none (h : ∀ v ∈ c.boom.svcs, v.self = false ∨ n ∉ v.due ∨ c.tick < v.dueTick) : c.reportTimeout n = c := by
  have hfind : c.boom.svcs.find? (fun v => v.self && v.due.contains n && decide (v.dueTick ≤ c.tick)) = none := by
    rw [List.find?_eq_none]
    intro v hv hlate
    simp only [Bool.and_eq_true, List.contains_iff_mem, decide_eq_true_eq] at hlate
    obtain ⟨⟨hself, hdue⟩, htick⟩ := hlate
    rcases h v hv with h | h | h
    · exact absurd (hself.symm.trans h) (by decide)
    · exact h hdue
    · exact absurd htick (not_le.mpr h)
  rw [Chip.reportTimeout, hfind]

/-- A service goes on without the child of a port. -/
def Svc.without (v : Svc) (n size : Nat) : Svc :=
  { v with
    due := v.due.filter (fun k => k != n)
    countB := v.countB + size
    timeout := v.timeout || v.op == 1 }

theorem Chip.tryReport_waits {v : Svc} (hsvc : c.svc op = some v) (hdue : v.due ≠ []) : c.tryReport op = c := by
  rw [Chip.tryReport, hsvc]
  exact if_pos (by simp [hdue])

theorem Chip.reportTimeout_left {v : Svc} (hsvcs : c.boom.svcs = [v]) (hself : v.self = true) (hmem : n ∈ v.due) (hlate : v.dueTick ≤ c.tick)
    (hup : (c.port n).phase = .up) (hothers : ∃ k ∈ v.due, k ≠ n) :
    c.reportTimeout n = ({ c with boom := { c.boom with svcs := [v.without n (((c.port n).root.map (fun r => r.1.size)).getD 0)] } } : Chip).boomDown n := by
  have hfind : c.boom.svcs.find? (fun v => v.self && v.due.contains n && decide (v.dueTick ≤ c.tick)) = some v := by
    simp [hsvcs, hself, hmem, hlate]
  obtain ⟨k, hk, hne⟩ := hothers
  have hdue : v.due.filter (fun k => k != n) ≠ [] := List.ne_nil_of_mem (List.mem_filter.mpr ⟨hk, by simpa using hne⟩)
  have hupd (g : Svc → Svc) : c.updSvc v.op g = { c with boom := { c.boom with svcs := [g v] } } := by
    simp [Chip.updSvc, updateWhere, hsvcs]
  rw [Chip.reportTimeout, hfind]
  dsimp only
  rw [hupd, Chip.tryReport_waits (v := v.without n (((c.port n).root.map (fun r => r.1.size)).getD 0)) (by simp [Chip.svc, Svc.without]) hdue]
  exact if_pos hup

/-! The agreed system reset (R419). -/

theorem exec_systemResetTick (s : State) : exec .systemResetTick s = .next (systemReset s) := rfl

theorem systemReset_unset (h : s.chip.boom.resetTick = none) : systemReset s = s := by
  rw [systemReset, h]

theorem systemReset_early {at_ : Nat} (h : s.chip.boom.resetTick = some at_) (hearly : s.chip.tick < at_) : systemReset s = s := by
  rw [systemReset, h]
  exact if_pos hearly

/-- Without a strike and a request of its own, an aligned package only resets. -/
theorem systemReset_due {at_ : Nat} (h : s.chip.boom.resetTick = some at_) (hdue : at_ ≤ s.chip.tick) (hseal : s.chip.sealReady = false)
    (hidle : s.chip.boom.request = none) (halign : s.chip.boom.align = 1) :
    systemReset s = resetSource 4 { s with chip := { s.chip with boom := { s.chip.boom with resetTick := none } } } := by
  have hready : ({ s.chip with boom := { s.chip.boom with resetTick := none } } : Chip).sealReady = false := hseal
  rw [systemReset, h]
  refine (if_neg (not_lt.mpr hdue)).trans ((if_pos halign).trans ?_)
  rw [hready]
  simp [hidle]

end

/-- Settles O55: a request meets the part, the running one and the barrier in that order, and is sent to the parent; a late child and the agreed reset follow
their ticks. -/
theorem boomServices : Obligations.BoomServices := by
  intro s op n up i hi c gives asked begun msg
  obtain ⟨hop, hexec⟩ := exec_boomGo hi s
  have hgo {d : Chip} (h : c.boomGo s.env op = d) : gives i d := hexec.trans (by rw [← h])
  refine ⟨fun hoff => hgo (Chip.boomGo_off hoff), fun hfull hidle => ⟨fun hbarrier hbusy => ?_, fun hother hparent => ?_⟩,
    fun st a b => ⟨?_, ?_, fun hst ha hb => ⟨?_, ?_⟩⟩,
    fun hnone => ?_, fun v hsvcs hself hmem hlate hup hothers => ?_, fun hunset => ?_, fun at_ hset hearly => ?_, fun at_ hset hdue hseal hidle halign => ?_⟩
  · subst hbarrier
    exact hgo (Chip.boomGo_barrier_refused hfull hidle hbusy)
  · exact hgo (Chip.boomGo_sent hfull hidle hop hother hparent)
  · exact congrArg (fun d => d.boom.request) (c.boomBegun_requestDone op st a b)
  · exact c.requestDone_req op st a b
  · exact c.requestDone_res op b hst ha
  · exact c.requestDone_miss op st a hb
  · exact (exec_svcReportTimeout n s).trans (by rw [Chip.reportTimeout_none hnone])
  · exact (exec_svcReportTimeout n s).trans (by rw [Chip.reportTimeout_left hsvcs hself hmem hlate hup hothers]; rfl)
  · exact (exec_systemResetTick s).trans (by rw [systemReset_unset hunset])
  · exact (exec_systemResetTick s).trans (by rw [systemReset_early hset hearly])
  · exact (exec_systemResetTick s).trans (by rw [systemReset_due hset hdue hseal hidle halign])

end Sys2Proof.Machine
end

section
/-! SUPPORT. The power manager: changes of point, requests and the timer (R424, R433, R435, R437). -/

namespace Sys2Proof.Machine

section
variable {s : State} {c : Chip} {e : Env} {op arg st : Nat} {secure : Bool} {d : Dvfs} {i : Instr}

/-! Changes of point (R435). -/

theorem exec_dvfsChange (s : State) : exec .dvfsChange s = .next { s with chip := s.chip.dvfsStart s.env } := rfl

/-- What keeps a change from starting: one that runs, the wanted point, a flush, PS4, or a vote. -/
def Chip.dvfsStays (c : Chip) : Bool :=
  c.pmu.dvfs.isSome || c.wantPoint == c.pmu.point || c.pmu.flush.isSome || decide (4 ≤ c.pmu.ps) || (c.voted && c.pmu.req.isNone && !c.throttled)

theorem Chip.dvfsStart_stays (h : c.dvfsStays = true) : c.dvfsStart e = c := if_pos h

theorem Chip.dvfsStart_lowers (h : c.dvfsStays = false) (hlow : c.pmu.point < c.wantPoint) :
    c.dvfsStart e = { c with pmu := { c.pmu with dvfs := some ⟨c.wantPoint, c.pmu.point, some (c.tick + 2), c.tick⟩ } } :=
  (if_neg (Bool.eq_false_iff.mp h)).trans (if_pos hlow)

theorem Chip.dvfsStart_raises (h : c.dvfsStays = false) (hraise : c.wantPoint < c.pmu.point) : c.dvfsStart e = { c with pmu := { c.pmu with
    dvfs := some ⟨c.wantPoint, c.pmu.point, none, c.tick⟩
    vid := e.vid c.wantPoint } } :=
  (if_neg (Bool.eq_false_iff.mp h)).trans (if_neg (not_lt.mpr hraise.le))

theorem Chip.dvfsStays_free (h : c.pmu.dvfs = none ∧ c.pmu.flush = none ∧ c.pmu.ps < 4 ∧ c.voted = false) (hmoves : c.wantPoint ≠ c.pmu.point) :
    c.dvfsStays = false := by
  obtain ⟨hdvfs, hflush, hps, hvoted⟩ := h
  simp [Chip.dvfsStays, hdvfs, hflush, hps, hvoted, hmoves]

theorem Chip.dvfsStays_held (h : c.pmu.dvfs ≠ none ∨ c.pmu.flush ≠ none ∨ 4 ≤ c.pmu.ps) : c.dvfsStays = true := by
  rcases h with h | h | h
  · simp [Chip.dvfsStays, Option.isSome_iff_ne_none.mpr h]
  · simp [Chip.dvfsStays, Option.isSome_iff_ne_none.mpr h]
  · simp [Chip.dvfsStays, h]

theorem exec_vddSettled (s : State) : exec .vddSettled s = execVddSettled s := rfl

theorem exec_vddSettled_raise (hdvfs : s.chip.pmu.dvfs = some d) (heffect : d.effect = none) : exec .vddSettled s = .next { s with
    chip := { s.chip with pmu := { s.chip.pmu with dvfs := some { d with effect := some (s.chip.tick + 2) } } } } := by
  rw [exec_vddSettled, execVddSettled, onChip_eq]
  simp only [hdvfs, heffect, Option.isNone_none, if_true]

theorem exec_vddSettled_none (hdvfs : s.chip.pmu.dvfs = none) : exec .vddSettled s = .next { s with chip := s.chip } := by
  rw [exec_vddSettled, execVddSettled, onChip_eq]
  simp only [hdvfs]

/-! Requests (R424, R437). -/

/-- The chip with another request of the power manager. -/
def Chip.withPmuReq (c : Chip) (q : Option (Nat × Nat)) : Chip := { c with pmu := { c.pmu with req := q } }

theorem Chip.withPmuReq_reg (c : Chip) (q : Option (Nat × Nat)) (a : Nat) : (c.withPmuReq q).reg a = c.reg a := rfl

theorem Chip.withPmuReq_setReg (c : Chip) (q : Option (Nat × Nat)) (a v : Nat) : (c.withPmuReq q).setReg a v = (c.setReg a v).withPmuReq q := rfl

theorem Chip.withPmuReq_setBit (c : Chip) (q : Option (Nat × Nat)) (a i : Nat) (x : Bool) :
    (c.withPmuReq q).setBit a i x = (c.setBit a i x).withPmuReq q := rfl

theorem Chip.withPmuReq_withPmuReq (c : Chip) (q r : Option (Nat × Nat)) : (c.withPmuReq q).withPmuReq r = c.withPmuReq r := rfl

/-- The registers of a request that has just been written. -/
def Chip.pmuAsked (c : Chip) (op arg : Nat) : Chip := (c.setReg Reg.pmuReq (2 ^ 31 + op * 2 ^ 28 + arg)).setReg Reg.pmuReqRes 0

/-- The registers of a request that has ended. -/
def Chip.pmuEnds (c : Chip) (st : Nat) : Chip := (c.setReg Reg.pmuReqRes (2 ^ 31 + st)).setBit Reg.pmuReq 31 false

/-- The request would clock or gate a domain (R437). -/
def Chip.pmuMoves (c : Chip) (op arg : Nat) : Prop :=
  if op = 0 then arg ≠ c.pmu.ps else Nat.max (psCeiling c.pmu.ps) (Nat.max arg c.pmu.thermal) ≠ c.ceiling

/-- The operand is none of its operation. -/
def pmuWide (op arg : Nat) : Prop := (op = 0 ∧ 4 < arg) ∨ (op = 1 ∧ 3 < arg)

/-- The request asks for less than the contracts' floor. -/
def Chip.pmuBelow (c : Chip) (op arg : Nat) : Prop :=
  (op = 0 ∧ (3 ≤ arg ∨ c.fld Reg.calFloor 1 0 < psCeiling arg)) ∨ (op = 1 ∧ c.fld Reg.calFloor 1 0 < arg)

/-- The checks of a request: votes, range and contracts (R39, R424, R437). -/
def Chip.pmuCheck (c : Chip) (secure : Bool) (op arg : Nat) : Nat :=
  firstFail [
    (!secure && c.voted && (if op = 0 then decide (arg ≠ c.pmu.ps) else decide (Nat.max (psCeiling c.pmu.ps) (Nat.max arg c.pmu.thermal) ≠ c.ceiling)),
      cstSecure),
    (decide (2 ≤ op) || (op == 0 && decide (4 < arg)) || (op == 1 && decide (3 < arg)), cstBad),
    (c.contracts != [] && ((op == 0 && (decide (3 ≤ arg) || decide (c.fld Reg.calFloor 1 0 < psCeiling arg))) ||
      (op == 1 && decide (c.fld Reg.calFloor 1 0 < arg))), cstContract)]

theorem Chip.pmuMoves_iff (c : Chip) (op arg : Nat) :
    (if op = 0 then decide (arg ≠ c.pmu.ps) else decide (Nat.max (psCeiling c.pmu.ps) (Nat.max arg c.pmu.thermal) ≠ c.ceiling)) = true ↔
      c.pmuMoves op arg := by
  rw [Chip.pmuMoves]
  split <;> exact decide_eq_true_iff

theorem Chip.pmuVoted_eq_false (h : secure = true ∨ c.voted = false ∨ ¬ c.pmuMoves op arg) : (!secure && c.voted &&
    (if op = 0 then decide (arg ≠ c.pmu.ps) else decide (Nat.max (psCeiling c.pmu.ps) (Nat.max arg c.pmu.thermal) ≠ c.ceiling))) = false := by
  rcases h with h | h | h
  · simp [h]
  · simp [h]
  · rw [Bool.eq_false_iff.mpr (mt (c.pmuMoves_iff op arg).mp h), Bool.and_false]

theorem pmuWide_iff (hop : op < 2) : (decide (2 ≤ op) || (op == 0 && decide (4 < arg)) || (op == 1 && decide (3 < arg))) = true ↔ pmuWide op arg := by
  simp [pmuWide, not_le.mpr hop]

theorem Chip.pmuBelow_iff (c : Chip) (op arg : Nat) : ((op == 0 && (decide (3 ≤ arg) || decide (c.fld Reg.calFloor 1 0 < psCeiling arg))) ||
    (op == 1 && decide (c.fld Reg.calFloor 1 0 < arg))) = true ↔ c.pmuBelow op arg := by
  simp [Chip.pmuBelow]

theorem Chip.pmuCheck_voted (hsecure : secure = false) (hvoted : c.voted = true) (hmoves : c.pmuMoves op arg) : c.pmuCheck secure op arg = cstSecure :=
  firstFail_fails (by simpa [hsecure, hvoted] using (c.pmuMoves_iff op arg).mpr hmoves) ..

theorem Chip.pmuCheck_wide (hop : op < 2) (hfree : secure = true ∨ c.voted = false ∨ ¬ c.pmuMoves op arg) (hwide : pmuWide op arg) :
    c.pmuCheck secure op arg = cstBad := by
  rw [Chip.pmuCheck, firstFail_passes (Chip.pmuVoted_eq_false hfree), firstFail_fails ((pmuWide_iff hop).mpr hwide)]

theorem Chip.pmuCheck_below (hop : op < 2) (hfree : secure = true ∨ c.voted = false ∨ ¬ c.pmuMoves op arg) (hwide : ¬ pmuWide op arg)
    (hbelow : c.pmuBelow op arg) (hbound : c.contracts ≠ []) : c.pmuCheck secure op arg = cstContract := by
  rw [Chip.pmuCheck, firstFail_passes (Chip.pmuVoted_eq_false hfree), firstFail_passes (Bool.eq_false_iff.mpr (mt (pmuWide_iff hop).mp hwide)),
    firstFail_fails (by rw [(c.pmuBelow_iff op arg).mpr hbelow]; simpa using hbound)]

theorem Chip.pmuCheck_passes (hop : op < 2) (hfree : secure = true ∨ c.voted = false ∨ ¬ c.pmuMoves op arg) (hwide : ¬ pmuWide op arg)
    (hbound : c.contracts = []) : c.pmuCheck secure op arg = cstOk := by
  rw [Chip.pmuCheck, firstFail_passes (Chip.pmuVoted_eq_false hfree), firstFail_passes (Bool.eq_false_iff.mpr (mt (pmuWide_iff hop).mp hwide)),
    firstFail_passes (by simp [hbound]), firstFail]

theorem Chip.pmuRequest_runs (h : c.pmu.req ≠ none) : c.pmuRequest secure op arg = c := if_pos (Option.isSome_iff_ne_none.mpr h)

theorem Chip.pmuRequest_eq (hidle : c.pmu.req = none) (hop : op < 2) (harg : arg < 8) : c.pmuRequest secure op arg =
    if c.pmuCheck secure op arg ≠ cstOk then ((c.pmuAsked op arg).withPmuReq (some (op, arg))).pmuDone (c.pmuCheck secure op arg)
    else if secure then (((c.pmuAsked op arg).withPmuReq (some (op, arg))).wakeSee .secure).pmuAct
    else ((c.pmuAsked op arg).withPmuReq (some (op, arg))).pmuAct := by
  rw [Chip.pmuRequest, if_neg (by simp [hidle]), Nat.mod_eq_of_lt (a := op) (by omega), Nat.mod_eq_of_lt harg]
  rfl

theorem Chip.pmuDone_runs (q : Nat × Nat) (st : Nat) : (c.withPmuReq (some q)).pmuDone st = (c.pmuEnds st).withPmuReq none := by
  rw [Chip.pmuDone, if_neg (by simp [Chip.withPmuReq]), Chip.withPmuReq_setReg, Chip.withPmuReq_setBit]
  exact Chip.withPmuReq_withPmuReq ..

theorem Chip.pmuRequest_refused (hidle : c.pmu.req = none) (hop : op < 2) (harg : arg < 8) (hcheck : c.pmuCheck secure op arg = st) (hst : st ≠ cstOk) :
    c.pmuRequest secure op arg = ((c.pmuAsked op arg).pmuEnds st).withPmuReq none := by
  rw [Chip.pmuRequest_eq hidle hop harg, hcheck, if_pos hst, Chip.pmuDone_runs]

theorem Chip.pmuAct_disabled (h : c.bit Reg.pmuCtrl 0 = false) : c.pmuAct = c := if_pos (by simp [h])

theorem Chip.bit_pmuAsked (c : Chip) (op arg : Nat) (q : Option (Nat × Nat)) : ((c.pmuAsked op arg).withPmuReq q).bit Reg.pmuCtrl 0 = c.bit Reg.pmuCtrl 0 := by
  rw [Chip.bit, Chip.withPmuReq_reg, Chip.pmuAsked, Chip.reg_setReg_ne _ (by decide), Chip.reg_setReg_ne _ (by decide), Chip.bit]

/-- A normal-world request that passes waits while the power manager is not enabled. -/
theorem Chip.pmuRequest_waits (hidle : c.pmu.req = none) (hop : op < 2) (harg : arg < 8) (hcheck : c.pmuCheck false op arg = cstOk)
    (hoff : c.bit Reg.pmuCtrl 0 = false) : c.pmuRequest false op arg = (c.pmuAsked op arg).withPmuReq (some (op, arg)) := by
  rw [Chip.pmuRequest_eq hidle hop harg, if_neg (not_not.mpr hcheck), if_neg Bool.false_ne_true,
    Chip.pmuAct_disabled ((c.bit_pmuAsked op arg _).trans hoff)]

theorem exec_pmuRequest {acc : Access} (h : (op, i) ∈ [(0, Instr.pmuSetState acc arg), (1, .pmuSetCeiling acc arg)]) (s : State) :
    op < 2 ∧ exec i s = .next { s with chip := s.chip.pmuRequest acc.secure op arg } := by
  simp only [List.mem_cons, Prod.mk.injEq, List.not_mem_nil, or_false] at h
  rcases h with ⟨rfl, rfl⟩ | ⟨rfl, rfl⟩ <;> exact ⟨by decide, rfl⟩

/-! The timer (R433). -/

/-- The tick that PMU_TIMER names. -/
def Chip.pmuTimer (c : Chip) : Nat := c.reg Reg.pmuTimerLo + c.fld Reg.pmuTimerHi 15 0 * 2 ^ 32

theorem exec_pmuTimerExpiry (s : State) : exec .pmuTimerExpiry s = .next { s with
    chip := if s.chip.pmuTimer ≠ 0 ∧ s.chip.pmuTimer = s.chip.tick then s.chip.wakeAct .timer else s.chip } := rfl

end

end Sys2Proof.Machine
end

section
/-! SUPPORT. Entries into PS3 and PS4 and exits from them (R427-R433): what the commit points lose, what an abandoned entry keeps, and where an exit leads. -/

namespace Sys2Proof.Machine

/-! Frames: what a raise, the end of a request and the reload of the key store leave. -/

section
variable (c : Chip) (e code fn a0 a1 : Nat)

@[simp] theorem Chip.raise_pmu : (c.raise e code fn a0 a1).pmu = c.pmu := by
  obtain ⟨o, r, t, n, h, -⟩ := c.raise_frame e code fn a0 a1
  rw [h]

@[simp] theorem Chip.raise_key : (c.raise e code fn a0 a1).key = c.key := by
  obtain ⟨o, r, t, n, h, -⟩ := c.raise_frame e code fn a0 a1
  rw [h]

@[simp] theorem Chip.raise0_pmu : (c.raise0 e).pmu = c.pmu := by rw [Chip.raise0, Chip.raise_pmu]

@[simp] theorem Chip.raise0_key : (c.raise0 e).key = c.key := by rw [Chip.raise0, Chip.raise_key]

end

theorem mem_insertNat (x : Nat) (l : List Nat) : x ∈ insertNat x l := by
  induction l with
  | nil => simp [insertNat]
  | cons y l ih =>
    simp only [insertNat]
    split_ifs with heq hlt
    · simp [heq]
    · simp
    · exact List.mem_cons_of_mem _ ih

/-- An event of the table with a route is pending once it is raised (R472). -/
theorem Chip.mem_pend_raise {e : Nat} (hlisted : eventListed e = true) (hroute : e ≠ 300) (c : Chip) (code fn a0 a1 : Nat) :
    e ∈ (c.raise e code fn a0 a1).obs.pend := by
  rw [Chip.raise, if_neg (by simp [hlisted]), if_neg hroute, Chip.pass_obs]
  split
  · obtain ⟨o, r, h, hpend, -⟩ := Chip.logEntry_frame { c with obs := { c.obs with
      pend := insertNat e c.obs.pend
      raises := Tab.set (fun _ => 0) c.obs.raises e (satTo 65535 (Tab.get (fun _ => 0) c.obs.raises e + 1)) } } e code fn a0 a1
    rw [h]
    exact hpend ▸ mem_insertNat ..
  · exact mem_insertNat ..

/-- A register write and the end of a GO bit change the registers alone. -/
theorem Chip.setReg_setBit_frame (c : Chip) (a v b i : Nat) (x : Bool) : ∃ r, (c.setReg a v).setBit b i x = { c with regs := r } := ⟨_, rfl⟩

theorem Chip.pmuDone_idle {c : Chip} (h : c.pmu.req = none) (st : Nat) : c.pmuDone st = c := if_pos (by simp [h])

theorem Chip.pmuDone_frame (c : Chip) (st : Nat) : ∃ r q, c.pmuDone st = ({ c with regs := r } : Chip).withPmuReq q := by
  rw [Chip.pmuDone]
  split
  · exact ⟨c.regs, c.pmu.req, rfl⟩
  · obtain ⟨r, h⟩ := c.setReg_setBit_frame Reg.pmuReqRes (2 ^ 31 + st) Reg.pmuReq 31 false
    exact ⟨r, none, by rw [h]; rfl⟩

/-- The end of a request that is reached changes the registers and the request alone. -/
theorem Chip.pmuSettle_frame (c : Chip) : ∃ r q, c.pmuSettle = ({ c with regs := r } : Chip).withPmuReq q := by
  have hstay : ∃ r q, c = ({ c with regs := r } : Chip).withPmuReq q := ⟨c.regs, c.pmu.req, rfl⟩
  rw [Chip.pmuSettle]
  split
  · split
    · exact c.pmuDone_frame _
    · exact hstay
  · split
    · exact c.pmuDone_frame _
    · exact hstay
  · exact hstay

section
variable (c : Chip)

@[simp] theorem Chip.pmuSettle_key : c.pmuSettle.key = c.key := by
  obtain ⟨r, q, h⟩ := c.pmuSettle_frame
  rw [h, Chip.withPmuReq]

@[simp] theorem Chip.pmuSettle_dram : c.pmuSettle.dram = c.dram := by
  obtain ⟨r, q, h⟩ := c.pmuSettle_frame
  rw [h, Chip.withPmuReq]

@[simp] theorem Chip.pmuSettle_buf : c.pmuSettle.buf = c.buf := by
  obtain ⟨r, q, h⟩ := c.pmuSettle_frame
  rw [h, Chip.withPmuReq]

@[simp] theorem Chip.pmuSettle_fn : c.pmuSettle.fn = c.fn := by
  obtain ⟨r, q, h⟩ := c.pmuSettle_frame
  rw [h, Chip.withPmuReq]

@[simp] theorem Chip.pmuSettle_boom : c.pmuSettle.boom = c.boom := by
  obtain ⟨r, q, h⟩ := c.pmuSettle_frame
  rw [h, Chip.withPmuReq]

@[simp] theorem Chip.pmuSettle_ps : c.pmuSettle.pmu.ps = c.pmu.ps := by
  obtain ⟨r, q, h⟩ := c.pmuSettle_frame
  rw [h, Chip.withPmuReq]

@[simp] theorem Chip.pmuSettle_phase : c.pmuSettle.pmu.phase = c.pmu.phase := by
  obtain ⟨r, q, h⟩ := c.pmuSettle_frame
  rw [h, Chip.withPmuReq]

@[simp] theorem Chip.pmuSettle_dvfs : c.pmuSettle.pmu.dvfs = c.pmu.dvfs := by
  obtain ⟨r, q, h⟩ := c.pmuSettle_frame
  rw [h, Chip.withPmuReq]

end

theorem Chip.requestDone_key (c : Chip) (st a b : Nat) : (c.requestDone st a b).key = c.key := by
  by_cases h : c.boom.request.isNone = true
  · rw [Chip.requestDone, if_pos h]
  · rw [Chip.requestDone_runs (Bool.eq_false_iff.mpr h), Chip.withRequest, Chip.setBit_key, Chip.setReg_key, Chip.setReg_key]

@[simp] theorem Chip.boomDown_key (c : Chip) (n : Nat) : (c.boomDown n).key = c.key := by
  rw [Chip.boomDown, Chip.raise0_key, Chip.parentLost]
  split
  · rw [Chip.requestDone_key, Chip.updPort_key]
  · rw [Chip.updPort_key]

/-! The entry into PS3 (R429). -/

section
variable {s : State} {c : Chip} {e : Env}

theorem exec_ps3Entry (s : State) : exec .ps3Entry s = .next (goesOn s (s.chip.ps3Entry s.env)) := rfl

theorem Chip.ps3Entry_waits (h : c.pmu.phase ≠ .steady ∨ c.pkgIdle = false ∨ c.contracts ≠ [] ∨ c.wantState < 3) : c.ps3Entry e = c := by
  refine if_pos ?_
  rcases h with h | h | h | h <;> simp [h]

/-- The chip that has begun an entry into PS3. -/
def Chip.enteringPs3 (c : Chip) : Chip :=
  { c with pmu := { c.pmu with
    phase := .entering
    target := c.wantState
    left := c.pmu.ps
    entryTick := c.tick
    commitDone := false } }

theorem Chip.ps3Entry_begins (hon : c.bit Reg.pmuCtrl 0 = true) (hphase : c.pmu.phase = .steady) (hps : c.pmu.ps < 3) (hwant : 3 ≤ c.wantState)
    (hidle : c.pkgIdle = true) (hflush : c.pmu.flush = none) (hbound : c.contracts = []) (hgroups : ∀ g ∈ c.map.groups, g.phase ≠ .filling) :
    c.ps3Entry e = c.enteringPs3 := by
  have hnone : c.map.groups.filter (fun g => g.phase == .filling) = [] := List.filter_eq_nil_iff.mpr (by simpa using hgroups)
  refine (if_neg (by simp [hon, hphase, hps, hwant, hidle, hflush, hbound])).trans ?_
  exact congrArg (fun l => l.foldl (fun c g => (c.padNow e g.id true).2) c.enteringPs3) hnone

/-! The commit point of PS3 (R429). -/

theorem exec_ps3CommitPoint (s : State) : exec .ps3CommitPoint s = .next (ps3Commit s) := rfl

theorem ps3Commit_waits (h : s.chip.pmu.phase ≠ .entering ∨ s.chip.quiet = false) : ps3Commit s = s := by
  refine if_neg (fun hn => ?_)
  obtain ⟨hphase, -, hquiet, -⟩ := hn
  rcases h with h | h
  · exact h hphase
  · exact absurd (h.symm.trans hquiet) (by decide)

/-- The chip of PS3: the near pool's buffers are gone. -/
def Chip.inPs3 (c : Chip) : Chip :=
  { c with
    buf := { c.buf with bufs := c.buf.bufs.filter (fun b => !isNear b.1) }
    pmu := { c.pmu with
      ps := 3
      commitDone := true
      phase := if c.pmu.target = 4 then .entering else .steady } }

theorem ps3Commit_commits (hphase : s.chip.pmu.phase = .entering) (hps : s.chip.pmu.ps < 3) (hquiet : s.chip.quiet = true) (hflush : s.chip.pmu.flush = none) :
    ps3Commit s = { s with mem := { s.mem with near := [] }, chip := s.chip.inPs3.pmuSettle } :=
  if_pos ⟨hphase, hps, hquiet, hflush⟩

/-! PS4 (R430). -/

theorem exec_ps4Entry (s : State) : exec .ps4Entry s = .next { s with chip := s.chip.ps4Entry } := rfl

theorem Chip.ps4Entry_waits (h : c.pmu.ps ≠ 3 ∨ c.wantState ≠ 4) : c.ps4Entry = c := by
  refine if_pos ?_
  rcases h with h | h <;> simp [h]

theorem Chip.ps4Entry_begins (hon : c.bit Reg.pmuCtrl 0 = true) (hps : c.pmu.ps = 3) (hwant : c.wantState = 4) (hflush : c.pmu.flush = none)
    (hphase : c.pmu.phase = .steady) : c.ps4Entry = ({ c with pmu := { c.pmu with
      phase := .entering
      target := 4
      entryTick := c.tick
      commitDone := false
      commits := [] } } : Chip).raise0 300 :=
  if_neg (by simp [hon, hps, hwant, hflush, hphase])

theorem exec_ps4CommitPoint (s : State) : exec .ps4CommitPoint s = .next { s with chip := s.chip.ps4Commit } := rfl

theorem Chip.ps4Commit_waits (h : c.coresReady = false) : c.ps4Commit = c := if_pos (by simp [h])

/-- A Boom port that is in use goes DOWN. -/
def Chip.portDown (c : Chip) (n : Nat) : Chip :=
  if (c.port n).phase = .up ∨ (c.port n).phase = .keying ∨ (c.port n).phase = .train then c.boomDown n else c

theorem Chip.portDown_key (c : Chip) (n : Nat) : (c.portDown n).key = c.key := by
  rw [Chip.portDown]
  split
  · exact c.boomDown_key n
  · rfl

theorem Chip.port_portDown (c : Chip) (n m : Nat) (h : n = m ∨ (c.port n).phase ≠ .up) : ((c.portDown m).port n).phase ≠ .up := by
  rw [Chip.portDown]
  split_ifs with hphase
  · rw [Chip.port_boomDown]
    split_ifs with hnm
    · rw [Port.drop]
      exact PortPhase.noConfusion
    · exact h.resolve_left hnm
  · rcases h with rfl | h
    · exact fun hup => hphase (.inl hup)
    · exact h

theorem Chip.port_portsDown (l : List Nat) {n : Nat} (h : n ∈ l ∨ (c.port n).phase ≠ .up) : ((l.foldl Chip.portDown c).port n).phase ≠ .up := by
  induction l generalizing c with
  | nil => exact h.resolve_left List.not_mem_nil
  | cons m l ih =>
    refine ih (or_iff_not_imp_left.mpr (fun hn => c.port_portDown n m ?_))
    rcases h with h | h
    · exact .inl ((List.mem_cons.mp h).resolve_right hn)
    · exact .inr h

theorem Chip.portsDown_key (l : List Nat) (c : Chip) : (l.foldl Chip.portDown c).key = c.key :=
  List.foldlRecOn l _ (motive := fun d : Chip => d.key = c.key) rfl (fun d hd n _ => (d.portDown_key n).trans hd)

theorem Chip.keyFinish_key (c : Chip) (j : KeyJob) (st : Nat) : (c.keyFinish j st).key = { c.key with jobs := c.key.jobs.erase j } := by
  rw [Chip.keyFinish]
  split
  · rw [Chip.setBit_key, Chip.setReg_key]
  · split
    · rw [Chip.replySt, Chip.reply]
      split <;> rfl
    · rfl

/-- The zeroed key store holds no slot; its vault stands (R359). -/
theorem Chip.keyZero_key (c : Chip) : c.keyZero.key.slots = [] ∧ c.keyZero.key.vault = c.key.vault := by
  rw [Chip.keyZero]
  refine List.foldlRecOn _ _ (motive := fun d : Chip => d.key.slots = [] ∧ d.key.vault = c.key.vault) ⟨rfl, rfl⟩ (fun d hd j _ => ?_)
  rw [Chip.keyFinish_key]
  exact hd

/-- The chip with another state of the power manager. -/
def Chip.withPmu (c : Chip) (x : PmuState) : Chip := { c with pmu := x }

theorem Chip.withPmu_key (c : Chip) (x : PmuState) : (c.withPmu x).key = c.key := rfl

theorem Chip.withPmu_pmu (c : Chip) (x : PmuState) : (c.withPmu x).pmu = x := rfl

theorem Chip.port_withPmu (c : Chip) (x : PmuState) (n : Nat) : (c.withPmu x).port n = c.port n := rfl

/-- The key store is zeroed, and every Boom port in use is DOWN. -/
def Chip.ps4Lost (c : Chip) : Chip := (List.range 4).foldl (fun c n => c.portDown n) c.keyZero

theorem Chip.ps4Lost_key (c : Chip) : c.ps4Lost.key.slots = [] ∧ c.ps4Lost.key.vault = c.key.vault := by
  rw [Chip.ps4Lost, Chip.portsDown_key]
  exact c.keyZero_key

theorem Chip.port_ps4Lost (c : Chip) {n : Nat} (hn : n < 4) : (c.ps4Lost.port n).phase ≠ .up := by
  rw [Chip.ps4Lost]
  exact Chip.port_portsDown _ (.inl (List.mem_range.mpr hn))

/-- The chip that has committed PS4, before its request ends. -/
def Chip.inPs4 (c : Chip) : Chip :=
  c.ps4Lost.withPmu { c.ps4Lost.pmu with
    ps := 4
    phase := .steady
    commitDone := true }

theorem Chip.ps4Commit_commits (hentry : c.inPs4Entry = true) (hready : c.coresReady = true) : c.ps4Commit = c.inPs4.pmuSettle := by
  rw [Chip.ps4Commit, if_neg (by simp [hentry, hready])]
  simp only [Chip.inPs4, Chip.withPmu, Chip.ps4Lost, Chip.portDown]

theorem exec_ps4EntryAbandon (s : State) : exec .ps4EntryAbandon s = .next { s with chip := s.chip.ps4Abandon } := rfl

theorem Chip.ps4Abandon_waits (h : c.coresReady = true ∨ c.tick < c.pmu.entryTick + 125) : c.ps4Abandon = c := by
  refine if_pos ?_
  rcases h with h | h <;> simp [h]

theorem Chip.ps4Abandon_gives_up (hentry : c.inPs4Entry = true) (hready : c.coresReady = false) (hlate : c.pmu.entryTick + 125 ≤ c.tick)
    (hreq : c.pmu.req = none) : c.ps4Abandon = ({ (c.pick 20).2 with pmu := { c.pmu with phase := .steady, target := 3 } } : Chip).raise0 325 := by
  refine (if_neg (by simp [hentry, hready, hlate])).trans ?_
  exact congrArg (fun d : Chip => d.raise0 325) (Chip.pmuDone_idle (c := { (c.pick 20).2 with pmu := { c.pmu with phase := .steady, target := 3 } }) hreq _)

theorem Chip.inPs4Entry_ps (h : c.inPs4Entry = true) : c.pmu.ps = 3 := by
  simp only [Chip.inPs4Entry, Bool.and_eq_true, beq_iff_eq] at h
  exact h.1.2

/-! Wakes and exits (R432, R433). -/

theorem exec_wakeEvent (src : WakeSource) (s : State) : exec (.wakeEvent src) s = .next { s with
    chip := if src = .boom ∧ s.chip.pmu.ps ≠ 3 then s.chip else s.chip.wakeAct src } := rfl

theorem exec_ps3Exit (s : State) : exec .ps3Exit s = .next (goesOn s (s.chip.ps3Exit s.env)) := rfl

theorem exec_ps4Exit (s : State) : exec .ps4Exit s = .next { s with chip := s.chip.ps4Exit s.fuse.kill } := rfl

theorem Chip.ps3Exit_waits (h : c.pmu.phase ≠ .exiting) : c.ps3Exit e = c := if_pos (.inl h)

theorem Chip.ps4Exit_waits (h : c.pmu.phase ≠ .exiting) (kill : Bool) : c.ps4Exit kill = c := if_pos (.inl h)

/-- No function's power request names PS3 or PS4 once they have moved (R426). -/
theorem Chip.requestsLeft_power {ps : Nat} (hps : ps < 3) (c : Chip) : ∀ p ∈ (c.requestsLeft ps).fn.fns, p.2.feat.power < 3 := by
  intro p hp
  obtain ⟨q, -, rfl⟩ := List.mem_map.mp hp
  dsimp only
  split
  · exact hps
  · exact not_le.mp ‹_›

/-- The exit from PS3 ends at its target with the calendar started. -/
theorem Chip.ps3Exit_leaves (hphase : c.pmu.phase = .exiting) (hps : c.pmu.ps = 3) (htarget : c.pmu.target < 3) (e : Env) :
    ∃ m : Chip, c.ps3Exit e = (m.requestsLeft c.pmu.target).pmuSettle.calStart ∧ m.pmu.ps = c.pmu.target ∧ m.pmu.phase = .steady ∧ m.pmu.dvfs = none := by
  rw [Chip.ps3Exit, if_neg (by simp [hphase, hps]), if_neg (not_le.mpr htarget)]
  exact ⟨_, rfl, rfl, rfl, rfl⟩

/-- The reload of the key store changes the key store alone (R345). -/
theorem Chip.reloadPage_frame (c : Chip) (page : Nat) : ∃ k, c.reloadPage page = { c with key := k } := by
  rw [Chip.reloadPage]
  refine List.foldlRecOn _ _ (motive := fun d : Chip => ∃ k, d = { c with key := k }) ⟨c.key, rfl⟩ (fun d hd v _ => ?_)
  obtain ⟨k, rfl⟩ := hd
  rw [Chip.setPage]
  split <;> exact ⟨_, rfl⟩

theorem Chip.setSlot_setSlot_frame (c : Chip) (i j : Nat) (x y : KeySlot) : ∃ k, (c.setSlot i x).setSlot j y = { c with key := k } := ⟨_, rfl⟩

theorem Chip.keyReloadAll_frame (c : Chip) (kill : Bool) : ∃ k, c.keyReloadAll kill = { c with key := k } := by
  rw [Chip.keyReloadAll]
  split
  · exact ⟨c.key, rfl⟩
  · refine List.foldlRecOn _ _ (motive := fun d : Chip => ∃ k, d = { c with key := k }) (c.setSlot_setSlot_frame ..) (fun d hd p _ => ?_)
    obtain ⟨k, rfl⟩ := hd
    split
    · obtain ⟨k', hk'⟩ := Chip.reloadPage_frame { c with key := k } p
      exact ⟨k', hk'⟩
    · exact ⟨k, rfl⟩

theorem Chip.keyReloadAll_pmu (c : Chip) (kill : Bool) : (c.keyReloadAll kill).pmu = c.pmu := by
  obtain ⟨k, h⟩ := c.keyReloadAll_frame kill
  rw [h]

theorem Chip.warden_keyReloadAll (c : Chip) (kill : Bool) (w : Nat) : (c.keyReloadAll kill).warden w = c.warden w := by
  obtain ⟨k, h⟩ := c.keyReloadAll_frame kill
  rw [h]
  rfl

/-- A core of the hub starts in the boot ROM unless it is fenced. -/
def Chip.bootCore (c : Chip) (w : Nat) : Chip :=
  if (c.warden w).fenced then c else c.setWarden w { WardenCore.fresh with beat := c.tick }

theorem Chip.bootCores_fenced {w : Nat} (h : (c.warden w).fenced = true) (l : List Nat) :
    ((l.foldl Chip.bootCore c).warden w).fenced = true := by
  refine List.foldlRecOn l _ (motive := fun d : Chip => (d.warden w).fenced = true) h (fun d hd v _ => ?_)
  rw [Chip.bootCore]
  split
  · exact hd
  · rename_i hv
    rw [Chip.warden_setWarden, if_neg (by rintro rfl; exact hv hd)]
    exact hd

/-- The cores that an exit from PS4 starts. -/
def Chip.booted (c : Chip) : Chip := (List.range 8).foldl (fun c w => c.bootCore w) c

theorem Chip.booted_fenced {w : Nat} (h : (c.warden w).fenced = true) : (c.booted.warden w).fenced = true := by
  rw [Chip.booted]
  exact Chip.bootCores_fenced h _

theorem Chip.warden_withPmu (c : Chip) (x : PmuState) (w : Nat) : (c.withPmu x).warden w = c.warden w := rfl

theorem Chip.ps4Exit_boots (hphase : c.pmu.phase = .exiting) (hps : c.pmu.ps = 4) (kill : Bool) :
    c.ps4Exit kill = (c.booted.withPmu { c.booted.pmu with ps := 3, commitDone := false }).keyReloadAll kill := by
  rw [Chip.ps4Exit, if_neg (by simp [hphase, hps])]
  simp only [Chip.withPmu, Chip.booted, Chip.bootCore]

end

/-- Settles O56: a change of point by its direction, a request by the first check that fails, and each entry and exit by the state it starts from and what it
leaves. -/
theorem powerRequestsAndStates : Obligations.PowerRequestsAndStates := by
  refine ⟨fun s acc op arg d i harg hi => ?_, fun s src => ?_⟩
  · intro c w gives asked ends clean free moves wide floor below
    obtain ⟨hop, hexec⟩ := exec_pmuRequest hi s
    have hgo {d : Chip} (h : c.pmuRequest acc.secure op arg = d) : gives i d := hexec.trans (by rw [← h])
    have hstart {d : Chip} (h : c.dvfsStart s.env = d) : gives .dvfsChange d := (exec_dvfsChange s).trans (by rw [← h])
    refine ⟨fun hfree hpoint => ?_, fun hfree hlow => ?_, fun hfree hraise => ?_, fun hheld => ?_, exec_vddSettled_raise, exec_vddSettled_none, fun hruns => ?_,
      fun hidle => ⟨fun hnormal hvoted hmoves => ?_, fun hpass hwide => ?_, fun hpass hwide hbelow hbound => ?_,
        fun hnormal hpass hwide hbound hoff => ?_⟩, ?_⟩
    · exact hstart (Chip.dvfsStart_stays (by simp [Chip.dvfsStays, show c.wantPoint = c.pmu.point from hpoint]))
    · exact hstart (Chip.dvfsStart_lowers (Chip.dvfsStays_free hfree hlow.ne') hlow)
    · exact hstart (Chip.dvfsStart_raises (Chip.dvfsStays_free hfree hraise.ne) hraise)
    · exact hstart (Chip.dvfsStart_stays (Chip.dvfsStays_held hheld))
    · exact hgo (Chip.pmuRequest_runs hruns)
    · exact hgo (Chip.pmuRequest_refused hidle hop harg (Chip.pmuCheck_voted hnormal hvoted hmoves) (by decide))
    · exact hgo (Chip.pmuRequest_refused hidle hop harg (Chip.pmuCheck_wide hop hpass hwide) (by decide))
    · exact hgo (Chip.pmuRequest_refused hidle hop harg (Chip.pmuCheck_below hop hpass hwide hbelow hbound) (by decide))
    · rw [hnormal] at hgo
      exact hgo (Chip.pmuRequest_waits hidle hop harg (Chip.pmuCheck_passes hop (.inr hpass) hwide hbound) hoff)
    · refine ⟨fun hset hnow => ?_, fun hnot => ?_⟩
      · exact (exec_pmuTimerExpiry s).trans (by rw [if_pos ⟨hset, hnow⟩])
      · exact (exec_pmuTimerExpiry s).trans (by rw [if_neg (fun h => hnot.elim h.1 (fun hne => hne h.2))])
  · intro c gives
    refine ⟨fun hwaits => ?_, fun hon hphase hps hwant hidle hflush hbound hgroups => ?_, fun hphase hps hquiet hflush => ?_, fun hwaits => ?_,
      fun hon hps hwant hflush hphase => ?_, fun hwaits => ?_, fun hentry => ⟨fun hready => ?_, fun hready => ?_, fun hwaits => ?_, fun hready hlate hreq => ?_⟩,
      fun hsrc hps => ?_, fun hacts => ?_, fun hphase => ⟨?_, ?_⟩, fun hphase hps => ?_, fun hphase hps htarget => ?_⟩
    · exact (exec_ps3Entry s).trans (by rw [Chip.ps3Entry_waits hwaits])
    · exact (exec_ps3Entry s).trans (by rw [Chip.ps3Entry_begins hon hphase hps hwant hidle hflush hbound hgroups, Chip.enteringPs3])
    · refine ⟨_, (exec_ps3CommitPoint s).trans (next_congr (ps3Commit_commits hphase hps hquiet hflush)), rfl, rfl, rfl, rfl, Chip.pmuSettle_ps _, rfl, rfl,
        Chip.pmuSettle_key _, Chip.pmuSettle_dram _, fun b hb => ?_⟩
      dsimp only at hb
      rw [Chip.pmuSettle_buf, Chip.inPs3] at hb
      simpa using (List.mem_filter.mp hb).2
    · exact (exec_ps3CommitPoint s).trans (by rw [ps3Commit_waits hwaits])
    · exact (exec_ps4Entry s).trans (by rw [Chip.ps4Entry_begins hon hps hwant hflush hphase])
    · exact (exec_ps4Entry s).trans (by rw [Chip.ps4Entry_waits hwaits])
    · refine ⟨_, exec_ps4CommitPoint s, ?_⟩
      dsimp only
      rw [Chip.ps4Commit_commits hentry hready, Chip.pmuSettle_key, Chip.pmuSettle_ps, Chip.pmuSettle_phase, Chip.inPs4, Chip.withPmu_key, Chip.withPmu_pmu]
      refine ⟨c.ps4Lost_key.1, rfl, rfl, c.ps4Lost_key.2, rfl, rfl, fun n hn => ?_⟩
      rw [Chip.port_congr (congrArg BoomState.ports (Chip.pmuSettle_boom _)), Chip.port_withPmu]
      exact c.port_ps4Lost hn
    · exact (exec_ps4CommitPoint s).trans (by rw [Chip.ps4Commit_waits hready])
    · exact (exec_ps4EntryAbandon s).trans (by rw [Chip.ps4Abandon_waits hwaits])
    · have hps : c.pmu.ps = 3 := Chip.inPs4Entry_ps hentry
      refine ⟨_, exec_ps4EntryAbandon s, ?_⟩
      dsimp only
      rw [Chip.ps4Abandon_gives_up hentry hready hlate hreq, Chip.raise0_pmu, Chip.raise0_key]
      exact ⟨hps, rfl, rfl, Chip.mem_pend_raise (by decide) (by decide) .., rfl⟩
    · exact (exec_wakeEvent src s).trans (by rw [if_pos ⟨hsrc, hps⟩])
    · exact (exec_wakeEvent src s).trans (by rw [if_neg (fun h => hacts.elim (fun hne => hne h.1) h.2)])
    · exact (exec_ps3Exit s).trans (by rw [Chip.ps3Exit_waits hphase])
    · exact (exec_ps4Exit s).trans (by rw [Chip.ps4Exit_waits hphase])
    · refine ⟨_, exec_ps4Exit s, ?_⟩
      dsimp only
      rw [Chip.ps4Exit_boots hphase hps, Chip.keyReloadAll_pmu, Chip.withPmu_pmu]
      refine ⟨rfl, rfl, rfl, fun w _ hfenced => ?_⟩
      rw [Chip.warden_keyReloadAll, Chip.warden_withPmu]
      exact Chip.booted_fenced hfenced
    · obtain ⟨m, hexit, hmps, hmphase, hmdvfs⟩ := Chip.ps3Exit_leaves hphase hps htarget s.env
      refine ⟨_, _, exec_ps3Exit s, rfl, ?_⟩
      rw [hexit]
      refine ⟨(Chip.pmuSettle_ps _).trans hmps, (Chip.pmuSettle_phase _).trans hmphase, (Chip.pmuSettle_dvfs _).trans hmdvfs, fun p hp => ?_⟩
      exact m.requestsLeft_power htarget p (Chip.pmuSettle_fn _ ▸ hp)

end Sys2Proof.Machine
end

section
/-! SUPPORT. Faults of the supplies, losses of parts and of power, and the flush that they start (R423, R434, R438, R439, R44, R440, R493). -/

namespace Sys2Proof.Machine

section
variable {s : State} {c : Chip} {e : Env} {d : Dvfs} {mw cause : Nat} {p : PackageRef} {i : Instr}

@[simp] theorem Chip.pmuFault_pmu (c : Chip) (bit : Nat) : (c.pmuFault bit).pmu = c.pmu := by rw [Chip.pmuFault, Chip.raise0_pmu, Chip.orReg_pmu]

/-! Caps and power-good signals (R423, R493). -/

/-- The cap of the state in mW. -/
def Chip.cap (c : Chip) : Nat := [55000, 40000, 25000, 2500, 180].getD c.pmu.ps 55000

/-- The chip with another count of ticks above the cap. -/
def Chip.withCapRun (c : Chip) (n : Nat) : Chip := { c with pmu := { c.pmu with capRun := n } }

/-- The chip after a tick that brings the count to `run`: the 125th is a fault. -/
def Chip.capRuns (c : Chip) (run : Nat) : Chip :=
  if 125 ≤ run then (c.withCapRun (if 125 ≤ run then 0 else run)).pmuFault 0 else c.withCapRun (if 125 ≤ run then 0 else run)

theorem Chip.capRuns_below {run : Nat} (h : run < 125) (c : Chip) : c.capRuns run = c.withCapRun run := by
  rw [Chip.capRuns, if_neg (not_le.mpr h), if_neg (not_le.mpr h)]

theorem Chip.capRuns_full {run : Nat} (h : 125 ≤ run) (c : Chip) : c.capRuns run = (c.withCapRun 0).pmuFault 0 := by
  rw [Chip.capRuns, if_pos h, if_pos h]

theorem exec_capExceed (mw : Nat) (s : State) : exec (.capExceed mw) s = .next { s with
    chip := s.chip.capRuns (if s.chip.cap < mw then s.chip.pmu.capRun + 1 else 0) } := rfl

theorem exec_capExceed_below (h : mw ≤ s.chip.cap) : exec (.capExceed mw) s = .next { s with chip := s.chip.withCapRun 0 } := by
  rw [exec_capExceed, if_neg (not_lt.mpr h), Chip.capRuns_below (by decide)]

theorem exec_capExceed_counts (h : s.chip.cap < mw) (hrun : s.chip.pmu.capRun < 124) :
    exec (.capExceed mw) s = .next { s with chip := s.chip.withCapRun (s.chip.pmu.capRun + 1) } := by
  rw [exec_capExceed, if_pos h, Chip.capRuns_below (by omega)]

theorem exec_capExceed_faults (h : s.chip.cap < mw) (hrun : 124 ≤ s.chip.pmu.capRun) :
    exec (.capExceed mw) s = .next { s with chip := (s.chip.withCapRun 0).pmuFault 0 } := by
  rw [exec_capExceed, if_pos h, Chip.capRuns_full (by omega)]

theorem exec_vcorePgLow (s : State) : exec .vcorePgLow s = .next { s with
    chip := if s.chip.pmu.dvfs.isNone then s.chip.pmuFault 1 else s.chip } := rfl

/-! Losses of parts and late supplies (R44, R434). -/

theorem exec_packageFault (p : PackageRef) (s : State) : exec (.packageFault p) s =
    .next (goesOn s (if s.env.hasPackage p then s.chip.packageFence s.env p else s.chip)) := rfl

theorem exec_supplyTimeout (what : SupplyFail) (s : State) : exec (.supplyTimeout what) s = .next (goesOn s (s.chip.supplyFails s.env what)) := rfl

theorem Chip.supplyFails_region (c : Chip) (e : Env) (g : Nat) : c.supplyFails e (.regionSwitch g false) = c.pmuFault 2 := by
  rw [Chip.supplyFails, Bool.false_and, if_neg Bool.false_ne_true]

theorem Chip.supplyFails_exit (c : Chip) (e : Env) : c.supplyFails e (.raise true true) = (c.pmuFault 1).enterHold 7 := by
  rw [Chip.supplyFails, if_pos rfl, if_pos rfl]

/-- A raise that no supply follows goes back to the old point's VID; no request waits for it. -/
theorem Chip.supplyFails_raise (hdvfs : c.pmu.dvfs = some d) (heffect : d.effect = none) (hreq : c.pmu.req = none) :
    c.supplyFails e (.raise false false) = (c.pmuFault 1).withPmu { (c.pmuFault 1).pmu with
      vid := e.vid d.old
      dvfs := none } := by
  have hidle : ((c.pmuFault 1).withPmu { (c.pmuFault 1).pmu with vid := e.vid d.old, dvfs := none }).pmu.req = none := by
    rw [Chip.withPmu_pmu, Chip.pmuFault_pmu, hreq]
  rw [Chip.supplyFails, if_neg Bool.false_ne_true, hdvfs]
  dsimp only
  rw [heffect, Option.isSome_none, if_neg Bool.false_ne_true]
  exact Chip.pmuDone_idle hidle cstTimeout

/-! The start of the flush (R439, R440). -/

/-- The chip without plans and host work, with the flush's word in its register. -/
def Chip.dropped (c : Chip) (v : Nat) : Chip := (c.dropPlans.dropHostWork.setReg Reg.pmuFlushStat v).pass

theorem Chip.dropped_rcu (c : Chip) (v : Nat) : (c.dropped v).rcu = c.rcu := rfl

theorem Chip.dropped_thm (c : Chip) (v : Nat) : (c.dropped v).thm = c.thm := rfl

theorem Chip.dropped_key (c : Chip) (v : Nat) : (c.dropped v).key = c.key := rfl

theorem Chip.dropped_pmu (c : Chip) (v : Nat) : (c.dropped v).pmu = c.pmu := rfl

theorem Chip.dropped_refugeHeld (c : Chip) (v : Nat) : (c.dropped v).map.refugeHeld = c.map.refugeHeld := rfl

/-- The chip with a running flush, which writes the given pages. -/
def Chip.withFlush (c : Chip) (f : Flush) (pages : List RefugePage) (time : Nat) : Chip := { c with
  pmu := { c.pmu with
    flush := some f
    phase := .flushing
    dvfs := none
    req := none }
  dram := { c.dram with flush := true }
  map := { c.map with
    refuge := pages
    refugeTime := time } }

theorem Chip.flushStart_eq (hflush : c.pmu.flush = none) (cause : Nat) : ∃ v n pages time,
    c.flushStart cause = (c.dropped v).withFlush ⟨cause, c.tick, n⟩ pages time := by
  rw [Chip.flushStart, hflush]
  exact ⟨flushStat cause false 0 0, _, _, _, rfl⟩

/-- A flush has started: what it runs on, and what it leaves. -/
structure FlushStarts (c d : Chip) (cause : Nat) : Prop where
  runs : ∃ n, d.pmu.flush = some ⟨cause, c.tick, n⟩
  ps : d.pmu.ps = c.pmu.ps
  dram : d.dram.flush = true
  rcu : d.rcu = c.rcu
  thm : d.thm = c.thm
  key : d.key = c.key
  held : d.map.refugeHeld = c.map.refugeHeld

theorem FlushStarts.of_withFlush (v n : Nat) (pages : List RefugePage) (time : Nat) :
    FlushStarts c ((c.dropped v).withFlush ⟨cause, c.tick, n⟩ pages time) cause where
  runs := ⟨n, rfl⟩
  ps := (congrArg PmuState.ps (c.dropped_pmu v) :)
  dram := rfl
  rcu := c.dropped_rcu v
  thm := c.dropped_thm v
  key := c.dropped_key v
  held := c.dropped_refugeHeld v

theorem Chip.flushStart_starts (hflush : c.pmu.flush = none) (cause : Nat) : FlushStarts c (c.flushStart cause) cause := by
  obtain ⟨v, n, pages, time, h⟩ := Chip.flushStart_eq hflush cause
  rw [h]
  exact .of_withFlush v n pages time

theorem Chip.flushStart_again (hflush : c.pmu.flush.isSome = true) (hcause : 0 < cause) : c.flushStart cause = c.pmuFault (5 + cause) := by
  obtain ⟨f, hf⟩ := Option.isSome_iff_exists.mp hflush
  have hbit : 6 + cause - 1 = 5 + cause := by omega
  rw [Chip.flushStart, hf, hbit, Chip.pmuFault]

/-- With pages to write the flush goes on. -/
theorem flushAtOnce_waits (hps : s.chip.pmu.ps < 3) (hheld : s.chip.map.refugeHeld = false) : flushAtOnce s = s :=
  if_neg (by simp [Chip.nothingToFlush, hps, hheld])

/-! Losses of input power (R439, R445). -/

theorem exec_powerTrigger (h : (cause, i) ∈ [(1, Instr.plnNLow), (2, .vinTrip)]) (s : State) :
    0 < cause ∧ exec i s = .next (powerTrigger cause s) := by
  simp only [List.mem_cons, Prod.mk.injEq, List.not_mem_nil, or_false] at h
  rcases h with ⟨rfl, rfl⟩ | ⟨rfl, rfl⟩ <;> exact ⟨by decide, rfl⟩

/-- The chip that has seen its input power fall. -/
def Chip.powerLow (c : Chip) : Chip := { c with pmu := { c.pmu with pwrLow := true } }

theorem powerTrigger_inReset (hphase : s.chip.rcu.phase = .inReset) (cause : Nat) : powerTrigger cause s = { s with
    chip := (if s.chip.pmu.flush.isSome then s.chip.flushStart cause else s.chip).powerLow } := by
  rw [powerTrigger, if_pos hphase, Chip.powerLow]

theorem Chip.enterReset_frame (c : Chip) : c.enterReset.pmu = c.pmu ∧ c.enterReset.key = c.key ∧ c.enterReset.map = c.map ∧ c.enterReset.thm = c.thm ∧
    c.enterReset.tick = c.tick ∧ c.enterReset.rcu.phase = .inReset := ⟨rfl, rfl, rfl, rfl, rfl, rfl⟩

theorem powerTrigger_starts (hphase : s.chip.rcu.phase ≠ .inReset) (hflush : s.chip.pmu.flush = none) (hps : s.chip.pmu.ps < 3)
    (hheld : s.chip.map.refugeHeld = false) (cause : Nat) :
    powerTrigger cause s = { s with chip := (s.chip.enterReset.flushStart cause).powerLow } := by
  obtain ⟨hpmu, -, hmap, -⟩ := s.chip.enterReset_frame
  have hstart := Chip.flushStart_starts (c := s.chip.enterReset) (by rwa [hpmu]) cause
  have hlow : (s.chip.enterReset.flushStart cause).pmu.ps < 3 := by rwa [hstart.ps, hpmu]
  have hfree : (s.chip.enterReset.flushStart cause).map.refugeHeld = false := by rwa [hstart.held, hmap]
  rw [powerTrigger, if_neg hphase, flushAtOnce_waits hlow hfree, Chip.powerLow]

/-- A loss outside a reset enters it and starts the flush of its cause. -/
theorem powerTrigger_flushes (hphase : s.chip.rcu.phase ≠ .inReset) (hflush : s.chip.pmu.flush = none) (hps : s.chip.pmu.ps < 3)
    (hheld : s.chip.map.refugeHeld = false) (cause : Nat) : ∃ f, (powerTrigger cause s).chip.rcu.phase = .inReset ∧
      (powerTrigger cause s).chip.pmu.flush = some f ∧ f.cause = cause ∧ f.started = s.chip.tick ∧ (powerTrigger cause s).chip.pmu.pwrLow = true ∧
      (powerTrigger cause s).chip.dram.flush = true ∧ (powerTrigger cause s).mem = s.mem ∧ (powerTrigger cause s).fuse = s.fuse ∧
      (powerTrigger cause s).chip.key = s.chip.key := by
  obtain ⟨hpmu, hkey, -, -, htick, hreset⟩ := s.chip.enterReset_frame
  have hstart := Chip.flushStart_starts (c := s.chip.enterReset) (by rwa [hpmu]) cause
  obtain ⟨n, hruns⟩ := hstart.runs
  rw [powerTrigger_starts hphase hflush hps hheld]
  exact ⟨_, hstart.rcu ▸ hreset, hruns, rfl, htick, rfl, hstart.dram, rfl, rfl, hstart.key.trans hkey⟩

theorem exec_powerRecovery (s : State) : exec .powerRecovery s = .next { s with
    chip := { s.chip with pmu := { s.chip.pmu with pwrLow := false } } } := rfl

theorem exec_refRestored (s : State) : exec .refRestored s = .next { s with
    chip := { s.chip with pmu := { s.chip.pmu with refLost := false } } } := rfl

/-- The state after the loss of the reference (R438). -/
def refLost (s : State) : State :=
  let t := resetSource 6 { s with chip := s.chip.pmuFault 4 }
  { t with chip := { t.chip with pmu := { t.chip.pmu with refLost := true } } }

theorem exec_refLoss (s : State) : exec .refLoss s = .next (if s.chip.pmu.refLost then s else refLost s) := rfl

/-! The reset of a source outside a reset (R455). -/

/-- The storm latch moves the registers and the reset unit alone (R458). -/
theorem Chip.storm_frame (c : Chip) (byPin : Bool) : ∃ r x, c.storm byPin = { c with regs := r, rcu := x } := by
  rw [Chip.storm]
  split_ifs <;> exact ⟨_, _, rfl⟩

/-- The chip that a reset of a cause begins in. -/
def Chip.sourced (c : Chip) (cause : Nat) : Chip := ((c.storm (cause == 2)).enterReset).resetBegins cause (resetKind cause)

theorem Chip.sourced_frame (c : Chip) (cause : Nat) : (c.sourced cause).pmu = c.pmu ∧ (c.sourced cause).map = c.map ∧ (c.sourced cause).thm = c.thm ∧
    (c.sourced cause).rcu.phase = .inReset ∧ (c.sourced cause).rcu.cause = cause := by
  obtain ⟨r, x, h⟩ := c.storm_frame (cause == 2)
  rw [Chip.sourced, h]
  exact ⟨rfl, rfl, rfl, rfl, rfl⟩

theorem resetSource_starts (hphase : s.chip.rcu.phase ≠ .inReset) (hflush : s.chip.pmu.flush = none) (hps : s.chip.pmu.ps < 3)
    (hheld : s.chip.map.refugeHeld = false) (cause : Nat) :
    resetSource cause s = { s with chip := (s.chip.sourced cause).flushStart (flushCause cause) } := by
  obtain ⟨hpmu, hmap, -⟩ := s.chip.sourced_frame cause
  have hstart := Chip.flushStart_starts (c := s.chip.sourced cause) (by rwa [hpmu]) (flushCause cause)
  have hlow : ((s.chip.sourced cause).flushStart (flushCause cause)).pmu.ps < 3 := by rwa [hstart.ps, hpmu]
  have hfree : ((s.chip.sourced cause).flushStart (flushCause cause)).map.refugeHeld = false := by rwa [hstart.held, hmap]
  rw [resetSource, if_neg hphase]
  exact flushAtOnce_waits (s := { s with chip := (s.chip.sourced cause).flushStart (flushCause cause) }) hlow hfree

end

end Sys2Proof.Machine
end

section
/-! SUPPORT. The thermal model: its step of the limits, its rounds of readings and samples, and the trip (R446-R452). -/

namespace Sys2Proof.Machine

section
variable {s t : State} {c old : Chip} {e : Env} {n : Nat} {v : Int} {x : AdcSample}

/-! The step of the limits (R448). -/

theorem exec_thermalStep (s : State) : exec .thermalStep s = .next { s with chip := s.chip.thermalStep s.env } := rfl

theorem Chip.nandHot_iff (c : Chip) (e : Env) :
    c.nandHot e = true ↔ ∃ k ∈ e.nandNodes, (c.fld Reg.thmLimit 7 0 : Int) ≤ c.node k / 65536 := by
  simp only [Chip.nandHot, List.any_eq_true, decide_eq_true_eq]
  rfl

theorem Chip.siHot_iff (c : Chip) (e : Env) :
    c.siHot e = true ↔ ∃ k ∈ e.siNodes, (c.fld Reg.thmLimit 23 16 : Int) ≤ c.node k / 65536 := by
  simp only [Chip.siHot, List.any_eq_true, decide_eq_true_eq]
  rfl

/-- Every NAND node is three degrees below the limit. -/
def Chip.nandCool (c : Chip) (e : Env) : Bool :=
  e.nandNodes.all (fun k => decide (degrees (c.node k) ≤ (c.fld Reg.thmLimit 7 0 : Int) - 3))

theorem Chip.nandCool_iff (c : Chip) (e : Env) :
    c.nandCool e = true ↔ ∀ k ∈ e.nandNodes, c.node k / 65536 ≤ (c.fld Reg.thmLimit 7 0 : Int) - 3 := by
  simp only [Chip.nandCool, List.all_eq_true, decide_eq_true_eq]
  rfl

/-- The cooldown run after this step: every silicon node is five degrees below the limit. -/
def Chip.coolRun (c : Chip) (e : Env) : Nat :=
  if e.siNodes.all (fun k => decide (degrees (c.node k) ≤ (c.fld Reg.thmLimit 23 16 : Int) - 5)) then c.thm.cool + 1 else 0

theorem Chip.coolRun_le (c : Chip) (e : Env) : c.coolRun e ≤ c.thm.cool + 1 := by
  rw [Chip.coolRun]
  split_ifs
  · exact le_rfl
  · exact Nat.zero_le _

/-- The cut after a step. -/
def Chip.nextCut (c : Chip) (e : Env) : Nat :=
  let budget := c.fld Reg.calNrgBudget 23 0
  if c.nandHot e then Nat.max c.thm.cut (Nat.min (c.thm.cut + budget / 16) (budget - budgetFloor c.fig c.nrg))
  else if c.nandCool e then c.thm.cut - budget / 16 else c.thm.cut

/-- The thermal ceiling after a step. -/
def Chip.nextCeiling (c : Chip) (e : Env) : Nat :=
  if c.siHot e then Nat.max c.pmu.thermal (Nat.min (c.pmu.thermal + 1) (if c.contracts != [] then c.fld Reg.calFloor 1 0 else 3))
  else if 10 ≤ c.coolRun e then c.pmu.thermal - 1 else c.pmu.thermal

theorem Chip.thermalStep_idle (h : c.modelsRun = false) : c.thermalStep e = c := by
  rw [Chip.thermalStep, h]
  rfl

/-- The chip after a step of the limits. -/
def Chip.limited (c : Chip) (e : Env) : Chip := { c with
  thm := { c.thm with
    cut := c.nextCut e
    cool := if 10 ≤ c.coolRun e then 0 else c.coolRun e }
  pmu := { c.pmu with thermal := c.nextCeiling e } }

theorem Chip.thermalStep_eq (h : c.modelsRun = true) (e : Env) : c.thermalStep e = c.limited e := by
  rw [Chip.thermalStep, h]
  rfl

theorem exec_thermalStep_runs (h : s.chip.modelsRun = true) : exec .thermalStep s = .next { s with chip := s.chip.limited s.env } := by
  rw [exec_thermalStep, Chip.thermalStep_eq h]

theorem Chip.nextCut_hot (h : c.nandHot e = true) : c.nextCut e = Nat.max c.thm.cut
    (Nat.min (c.thm.cut + c.fld Reg.calNrgBudget 23 0 / 16) (c.fld Reg.calNrgBudget 23 0 - budgetFloor c.fig c.nrg)) := if_pos h

theorem Chip.nextCut_cool (h : ¬ c.nandHot e = true) (hcool : c.nandCool e = true) :
    c.nextCut e = c.thm.cut - c.fld Reg.calNrgBudget 23 0 / 16 := (if_neg h).trans (if_pos hcool)

theorem Chip.nextCut_between (h : ¬ c.nandHot e = true) (hcool : ¬ c.nandCool e = true) : c.nextCut e = c.thm.cut :=
  (if_neg h).trans (if_neg hcool)

theorem Chip.nextCeiling_hot (h : c.siHot e = true) : c.nextCeiling e = Nat.max c.pmu.thermal
    (Nat.min (c.pmu.thermal + 1) (if c.contracts = [] then 3 else c.fld Reg.calFloor 1 0)) := by
  rw [Chip.nextCeiling, if_pos h]
  cases c.contracts <;> rfl

theorem Chip.nextCeiling_waits (h : ¬ c.siHot e = true) (hrun : c.thm.cool + 1 < 10) : c.nextCeiling e = c.pmu.thermal := by
  have hle := c.coolRun_le e
  rw [Chip.nextCeiling, if_neg h, if_neg (by omega)]

/-! The silicon and the sensors (R447, R449, R450). -/

theorem thermalLimits_idle (h : s.chip.modelsRun = false) (old : Chip) : thermalLimits old s = s := by
  rw [thermalLimits, h]
  rfl

theorem exec_siliconModelStep (act : List (Nat × Nat)) (s : State) : exec (.siliconModelStep act) s = onNodes (fun c =>
    if c.modelsRun then
      let c1 := s.env.siNodes.foldl (Chip.siliconNode c s.env act) c
      if c.bit Reg.calCtrl 0 then c1 else c1.nandStep s.env
    else c) s := rfl

theorem onNodes_of_eq {f : Chip → Chip} {d : Chip} (h : f s.chip = d) : onNodes f s = .next (thermalLimits s.chip { s with chip := d }) := by
  rw [onNodes, h]

theorem exec_siliconModelStep_idle (h : s.chip.modelsRun = false) (act : List (Nat × Nat)) : exec (.siliconModelStep act) s = .next s := by
  rw [exec_siliconModelStep]
  refine (onNodes_of_eq (if_neg (Bool.eq_false_iff.mp h))).trans ?_
  rw [thermalLimits_idle h]

theorem exec_siliconModelStep_runs (h : s.chip.modelsRun = true) (hctrl : s.chip.bit Reg.calCtrl 0 = true) (act : List (Nat × Nat)) :
    exec (.siliconModelStep act) s = .next (thermalLimits s.chip { s with
      chip := s.env.siNodes.foldl (Chip.siliconNode s.chip s.env act) s.chip }) := by
  rw [exec_siliconModelStep]
  exact onNodes_of_eq ((if_pos h).trans (if_pos hctrl))

theorem exec_sensorCrossCheck (s : State) : exec .sensorCrossCheck s = .next { s with
    chip := if s.chip.modelsRun then ((List.range 48).filter s.env.hasSensor).foldl (Chip.crossCheck s.chip s.env) s.chip else s.chip } := rfl

theorem exec_sensorRead_one (n : Nat) (v : Int) (s : State) : exec (.sensorRead [(n, v)]) s = .next (thermalLimits s.chip { s with
    chip := if n < 32 ∧ s.env.hasSensor n ∧ s.chip.pmu.ps < 3 then s.chip.reading s.env n (Int.bmod v (2 ^ 32)) [n / 8 * 40 + n % 8] else s.chip }) := rfl

theorem bmod_word (hlo : -(2 ^ 31) ≤ v) (hhi : v < 2 ^ 31) : Int.bmod v (2 ^ 32) = v :=
  Int.bmod_eq_of_le_mul_two (by norm_num; omega) (by norm_num; omega)

/-! The rail ADC (R451). -/

theorem exec_railAdcRound (samples : List AdcSample) (s : State) : exec (.railAdcRound samples) s =
    .next (thermalLimits s.chip { s with chip := (samples.foldl (Chip.adcSample s.env) s.chip).holdCheck s.env }) := rfl

theorem Chip.adcSample_unknown (h : 28 ≤ x.input) (e : Env) (c : Chip) : c.adcSample e x = c := by
  rw [Chip.adcSample, if_pos h]

theorem Chip.adcSample_rail (h : x.input < 10) (hcode : x.code % 4096 = 0 ∨ x.code % 4096 = 0xFFF) (e : Env) (c : Chip) :
    c.adcSample e x = (c.orReg Reg.thmAdcOvr (2 ^ x.input)).setAdc x.input { c.adc x.input with stale := (c.adc x.input).valid } := by
  rw [Chip.adcSample, if_neg (by omega), if_pos hcode, if_neg (by omega), if_neg (by omega)]

theorem Chip.adcSample_free (h : x.input < 3) (hlo : 0 < x.code % 4096) (hhi : x.code % 4096 < 0xFFF) (e : Env) (c : Chip) :
    c.adcSample e x = c.setAdc x.input ⟨x.code % 4096, true, false, 0⟩ := by
  have hnominal : railNominal x.input = none := if_pos h
  rw [Chip.adcSample, if_neg (by omega), if_neg (by omega), hnominal]
  dsimp only [Option.any_none]
  rw [if_neg Bool.false_ne_true, if_neg (by omega), if_neg (by omega), if_neg (by decide)]

/-! The trip (R452). -/

theorem Chip.raise0_keeps (c : Chip) (e : Nat) : (c.raise0 e).pmu = c.pmu ∧ (c.raise0 e).map = c.map ∧ (c.raise0 e).rcu = c.rcu := by
  rw [Chip.raise0]
  obtain ⟨o, r, t, n, h, -⟩ := c.raise_frame e 0 0xFFFF 0 0
  rw [h]
  exact ⟨rfl, rfl, rfl⟩

/-- The chip whose trip latch is set. -/
def Chip.tripped (c : Chip) : Chip :=
  { c.orReg Reg.thmStatus (2 ^ 3) with thm := { (c.orReg Reg.thmStatus (2 ^ 3)).thm with trip := true } }

theorem Chip.tripped_frame (c : Chip) : c.tripped.pmu = c.pmu ∧ c.tripped.map = c.map ∧ c.tripped.rcu = c.rcu ∧ c.tripped.thm.trip = true :=
  ⟨rfl, rfl, rfl, rfl⟩

theorem thermalLimits_trip (hrun : t.chip.modelsRun = true) (hcrit : t.chip.siCrit t.env = true) (htrip : t.chip.thm.trip = false) (old : Chip) :
    ∃ d, (d = t.chip ∨ d = t.chip.raise0 302) ∧ thermalLimits old t = resetSource 7 { t with chip := d.tripped } := by
  have hcond : (t.chip.siCrit t.env && !t.chip.thm.trip) = true := by rw [hcrit, htrip]; rfl
  rw [thermalLimits, hrun, Bool.not_true, if_neg Bool.false_ne_true, if_pos hcond]
  split_ifs
  · exact ⟨_, .inr rfl, rfl⟩
  · exact ⟨_, .inl rfl, rfl⟩

/-- The trip resets the controller with cause 7. -/
theorem thermalLimits_resets (hrun : t.chip.modelsRun = true) (hcrit : t.chip.siCrit e = true) (henv : t.env = e) (htrip : t.chip.thm.trip = false)
    (hphase : t.chip.rcu.phase ≠ .inReset) (hflush : t.chip.pmu.flush = none) (hps : t.chip.pmu.ps < 3) (hheld : t.chip.map.refugeHeld = false)
    (old : Chip) : (thermalLimits old t).chip.rcu.cause = 7 ∧ (thermalLimits old t).chip.rcu.phase = .inReset ∧
      (thermalLimits old t).chip.thm.trip = true := by
  subst henv
  obtain ⟨d, hd, h⟩ := thermalLimits_trip hrun hcrit htrip old
  have hsame : d.pmu = t.chip.pmu ∧ d.map = t.chip.map ∧ d.rcu = t.chip.rcu := by
    rcases hd with rfl | rfl
    · exact ⟨rfl, rfl, rfl⟩
    · exact t.chip.raise0_keeps 302
  obtain ⟨hdpmu, hdmap, hdrcu⟩ := hsame
  obtain ⟨hpmu, hmap, hrcu, hset⟩ := d.tripped_frame
  have hstarts := resetSource_starts (s := { t with chip := d.tripped }) (by rwa [hrcu, hdrcu]) (by rwa [hpmu, hdpmu])
    (by rwa [hpmu, hdpmu]) (by rwa [hmap, hdmap]) 7
  obtain ⟨hspmu, -, hsthm, hsphase, hscause⟩ := d.tripped.sourced_frame 7
  have hflushed := Chip.flushStart_starts (c := d.tripped.sourced 7) (by rw [hspmu, hpmu, hdpmu, hflush]) (flushCause 7)
  rw [h, hstarts]
  exact ⟨by rw [hflushed.rcu, hscause], by rw [hflushed.rcu, hsphase], by rw [hflushed.thm, hsthm, hset]⟩

end

end Sys2Proof.Machine
end

section
namespace Sys2Proof.Machine

/-- Settles O57: each fault by the equation of its command, the losses of power and the trip by the start of the flush, and the thermal rounds by the
equations of their steps, after which the limits act. -/
theorem powerFaultsAndThermal : Obligations.PowerFaultsAndThermal := by
  constructor
  · intro s mw p d c gives cap run fault
    refine ⟨?below, ?counts, ?full, ?falls, ?changes, ?foreign, ?lost, rfl, ?region, ?raise, ?exit,
      ?power, exec_powerRecovery s, exec_refRestored s, ?again, ?reference⟩
    case below => exact exec_capExceed_below
    case counts => exact exec_capExceed_counts
    case full => exact exec_capExceed_faults
    case falls => exact fun h => (exec_vcorePgLow s).trans (by rw [h]; rfl)
    case changes => exact fun h => (exec_vcorePgLow s).trans (by rw [h]; rfl)
    case foreign => exact fun h => (exec_packageFault p s).trans (by rw [h]; rfl)
    case lost => exact fun h => (exec_packageFault p s).trans (by rw [h]; rfl)
    case region => exact fun g => (exec_supplyTimeout _ s).trans (by rw [Chip.supplyFails_region]; rfl)
    case raise => exact fun hd heffect hreq => (exec_supplyTimeout _ s).trans (by rw [Chip.supplyFails_raise hd heffect hreq]; rfl)
    case exit => exact (exec_supplyTimeout _ s).trans (by rw [Chip.supplyFails_exit]; rfl)
    case power =>
      intro i cause hi low
      obtain ⟨hcause, hexec⟩ := exec_powerTrigger hi s
      refine ⟨fun hphase hflush => hexec.trans ?_, fun hphase hflush => hexec.trans ?_, fun hphase hflush hps hheld => ?_⟩
      · rw [powerTrigger_inReset hphase, hflush]
        rfl
      · have hsome := Option.isSome_iff_ne_none.mpr hflush
        rw [powerTrigger_inReset hphase, if_pos hsome, Chip.flushStart_again hsome hcause]
        rfl
      · exact ⟨_, (powerTrigger_flushes hphase hflush hps hheld cause).imp fun _ h => ⟨hexec, h⟩⟩
    case again => exact fun h => (exec_refLoss s).trans (by rw [if_pos h])
    case reference => exact fun h => (exec_refLoss s).trans (by rw [if_neg (Bool.eq_false_iff.mp h)]; rfl)
  · intro s act readings samples x n v c e moved
    refine ⟨?still, ?limits, ?silicon, ?sensor, ?foreign, ?cross, exec_railAdcRound samples s, ?unknown, ?edge, ?free, ?trip⟩
    case still =>
      intro h
      refine ⟨(exec_thermalStep s).trans (by rw [Chip.thermalStep_idle h]), (exec_sensorCrossCheck s).trans (by rw [if_neg (Bool.eq_false_iff.mp h)]),
        exec_siliconModelStep_idle h act⟩
    case limits =>
      intro h budget hot cool warm
      refine ⟨_, exec_thermalStep_runs h, fun hhot => ?_, fun hhot hcool => ?_, fun hhot hcool => ?_, fun hwarm => ?_,
        fun hwarm hrun => ?_, rfl, rfl, rfl, rfl, rfl⟩
      · exact Chip.nextCut_hot ((Chip.nandHot_iff c e).mpr hhot)
      · exact Chip.nextCut_cool (mt (Chip.nandHot_iff c e).mp hhot) ((Chip.nandCool_iff c e).mpr hcool)
      · exact Chip.nextCut_between (mt (Chip.nandHot_iff c e).mp hhot) (mt (Chip.nandCool_iff c e).mp hcool)
      · exact Chip.nextCeiling_hot ((Chip.siHot_iff c e).mpr hwarm)
      · exact Chip.nextCeiling_waits (mt (Chip.siHot_iff c e).mp hwarm) hrun
    case silicon => exact fun h hctrl => exec_siliconModelStep_runs h hctrl act
    case sensor =>
      exact fun hn hsensor hps hlo hhi => (exec_sensorRead_one n v s).trans (by rw [if_pos ⟨hn, hsensor, hps⟩, bmod_word hlo hhi])
    case foreign =>
      intro h
      have hno : ¬ (n < 32 ∧ e.hasSensor n = true ∧ c.pmu.ps < 3) := by
        rintro ⟨hn, hsensor, hps⟩
        rcases h with h | h | h
        · omega
        · exact Bool.false_ne_true (h ▸ hsensor)
        · omega
      exact (exec_sensorRead_one n v s).trans (by rw [if_neg hno])
    case cross => exact fun h => (exec_sensorCrossCheck s).trans (by rw [if_pos h])
    case unknown => exact fun h => (exec_railAdcRound [x] s).trans (by rw [List.foldl_cons, List.foldl_nil, Chip.adcSample_unknown h])
    case edge => exact fun h hcode => (exec_railAdcRound [x] s).trans (by rw [List.foldl_cons, List.foldl_nil, Chip.adcSample_rail h hcode])
    case free => exact fun h hlo hhi => (exec_railAdcRound [x] s).trans (by rw [List.foldl_cons, List.foldl_nil, Chip.adcSample_free h hlo hhi])
    case trip => exact fun old t hrun hcrit henv htrip hphase hflush hps hheld => thermalLimits_resets hrun hcrit henv htrip hphase hflush hps hheld old

end Sys2Proof.Machine
end

section
/-! SUPPORT. The captures of the fault log and the Tally store, messages, the tick mark and CC.EN (R467, R469, R474, R478-R482). -/

namespace Sys2Proof.Machine

section
variable {s : State} {c : Chip} {at_ : Nat → Nat} {k n f vec ams : Nat} {ws : List Nat}

/-! Words put into a row of registers. -/

/-- The step of `putWords`. -/
def Chip.putWord (at_ : Nat → Nat) (c : Chip) (p : Nat × Nat) : Chip := c.setReg (at_ p.2) p.1

theorem reg_putWords_before (hat : at_.Injective) (hk : k < n) (c : Chip) :
    ((ws.zipIdx n).foldl (Chip.putWord at_) c).reg (at_ k) = c.reg (at_ k) := by
  induction ws generalizing n c with
  | nil => rfl
  | cons w ws ih =>
    have hne : at_ k ≠ at_ n := fun h => hk.ne (hat h)
    rw [List.zipIdx_cons, List.foldl_cons, ih (by omega), Chip.putWord, Chip.reg_setReg_ne _ hne]

theorem reg_putWords_from (hat : at_.Injective) (hk : k < ws.length) (c : Chip) :
    ((ws.zipIdx n).foldl (Chip.putWord at_) c).reg (at_ (n + k)) = ws.getD k 0 % 2 ^ 32 := by
  induction ws generalizing n k c with
  | nil => exact absurd hk (Nat.not_lt_zero k)
  | cons w ws ih =>
    rw [List.zipIdx_cons, List.foldl_cons]
    cases k with
    | zero => rw [show n + 0 = n from rfl, reg_putWords_before hat (Nat.lt_add_one n), Chip.putWord, Chip.reg_setReg_self, List.getD_cons_zero]
    | succ k => rw [List.getD_cons_succ, show n + (k + 1) = n + 1 + k by omega, ih (Nat.lt_of_succ_lt_succ hk)]

/-- A register of the row holds its word. -/
theorem Chip.reg_putWords (hat : at_.Injective) (hk : k < ws.length) (c : Chip) : (c.putWords at_ ws).reg (at_ k) = ws.getD k 0 % 2 ^ 32 := by
  have h := reg_putWords_from (n := 0) hat hk c
  rwa [Nat.zero_add] at h

theorem Chip.putWords_obs (c : Chip) (at_ : Nat → Nat) (ws : List Nat) : (c.putWords at_ ws).obs = c.obs :=
  List.foldlRecOn (motive := fun d : Chip => d.obs = c.obs) ws.zipIdx _ rfl fun d hd _ _ => (d.setReg_obs ..).trans hd

/-! The captures (R474, R480, R482). -/

theorem logFlE_injective : Reg.logFlE.Injective := by
  intro a b h
  simp only [Reg.logFlE] at h
  omega

theorem logTyR_injective : Reg.logTyR.Injective := by
  intro a b h
  simp only [Reg.logTyR] at h
  omega

/-- The words that a capture of the fault log takes from a place. -/
def Chip.logWords (c : Chip) (i : Nat) : List Nat := match c.obs.log[i]? with | some x => x.words | none => List.replicate 8 0

theorem Chip.logWords_length (c : Chip) (i : Nat) : (c.logWords i).length = 8 := by
  rw [Chip.logWords]
  split <;> rfl

/-- The words that a capture of the Tally store takes from a place. -/
def Chip.tallyWords (c : Chip) (i : Nat) : List Nat := (List.range 16).map (fun k => ((c.obs.store[i]?).getD []).getD k 0)

theorem Chip.tallyWords_getD (hk : k < 16) (c : Chip) (i : Nat) : (c.tallyWords i).getD k 0 = ((c.obs.store[i]?).getD []).getD k 0 := by
  rw [Chip.tallyWords, List.getD_eq_getElem?_getD, List.getElem?_map, List.getElem?_range hk, Option.map_some, Option.getD_some]

/-- A cursor that is written holds the number, cut to its field. -/
theorem Chip.fld_setFld_low {hi : Nat} (hhi : hi < 32) (c : Chip) (a x : Nat) : (c.setFld a hi 0 x).fld a hi 0 = x % 2 ^ (hi + 1) := by
  have hpow : 2 ^ (hi + 1) ∣ 2 ^ 32 := Nat.pow_dvd_pow 2 (by omega)
  have hfield : 2 ^ (hi + 1) ∣ c.reg a - c.reg a % 2 ^ (hi + 1) := Nat.dvd_sub_mod _
  rw [Chip.fld, Chip.setFld, Chip.reg_setReg_self, putBits, bitsOf_low, bitsOf_low, Nat.mod_mod_of_dvd _ hpow, pow_zero, mul_one, mul_one,
    Nat.sub_zero]
  obtain ⟨q, hq⟩ := hfield
  rw [hq, Nat.mul_add_mod, Nat.mod_mod]

/-- The cursor of the fault log is written with `x`, and its entry is captured. -/
def Chip.logAt (c : Chip) (x : Nat) : Chip := (c.setFld Reg.logFlCur 9 0 x).captureLog

theorem Chip.logAt_eq (c : Chip) (x : Nat) : c.logAt x = (c.setFld Reg.logFlCur 9 0 x).putWords Reg.logFlE (c.logWords (x % 1024)) := by
  rw [Chip.logAt, Chip.captureLog, Chip.fld_setFld_low (by decide)]
  rfl

theorem Chip.logAt_obs (c : Chip) (x : Nat) : (c.logAt x).obs = c.obs := by
  rw [Chip.logAt_eq, Chip.putWords_obs, Chip.setFld_obs]

theorem Chip.reg_logAt (hk : k < 8) (c : Chip) (x : Nat) : (c.logAt x).reg (Reg.logFlE k) = (c.logWords (x % 1024)).getD k 0 % 2 ^ 32 := by
  rw [Chip.logAt_eq, Chip.reg_putWords logFlE_injective (by rwa [Chip.logWords_length])]

/-- The cursor of the Tally store is written with `x`, and its record is captured. -/
def Chip.tallyAt (c : Chip) (x : Nat) : Chip := (c.setFld Reg.logTyCur 10 0 x).captureTally

theorem Chip.tallyAt_eq (c : Chip) (x : Nat) : c.tallyAt x = (c.setFld Reg.logTyCur 10 0 x).putWords Reg.logTyR (c.tallyWords (x % 2048)) := by
  rw [Chip.tallyAt, Chip.captureTally, Chip.fld_setFld_low (by decide)]
  rfl

theorem Chip.tallyAt_obs (c : Chip) (x : Nat) : (c.tallyAt x).obs = c.obs := by
  rw [Chip.tallyAt_eq, Chip.putWords_obs, Chip.setFld_obs]

theorem Chip.reg_tallyAt (hk : k < 16) (c : Chip) (x : Nat) :
    (c.tallyAt x).reg (Reg.logTyR k) = ((c.obs.store[x % 2048]?).getD []).getD k 0 % 2 ^ 32 := by
  have hlen : k < (c.tallyWords (x % 2048)).length := by rwa [Chip.tallyWords, List.length_map, List.length_range]
  rw [Chip.tallyAt_eq, Chip.reg_putWords logTyR_injective hlen, Chip.tallyWords_getD hk]

theorem exec_logFlClear (acc : Access) (s : State) : exec (.logFlClear acc) s = .next { s with
    chip := if acc.secure then s.chip.logClear else s.chip } := rfl

theorem exec_logFlCurWrite (acc : Access) (v : Word) (s : State) : exec (.logFlCurWrite acc v) s = .next { s with
    chip := s.chip.logAt (bitsOf v.toNat 9 0) } := rfl

theorem exec_logTyCurWrite (acc : Access) (v : Word) (s : State) : exec (.logTyCurWrite acc v) s = .next { s with
    chip := s.chip.tallyAt (bitsOf v.toNat 10 0) } := rfl

theorem exec_logCaptureAdvance_log (acc : Access) (s : State) : exec (.logCaptureAdvance acc false) s = .next { s with
    chip := { s.chip.logAt (s.chip.fld Reg.logFlCur 9 0 + 1) with resp := ⟨BitVec.ofNat 32 (s.chip.reg (Reg.logFlE 7)), 0x00⟩ } } := rfl

theorem exec_tallyPeriodEnd (s : State) : exec .tallyPeriodEnd s = .next { s with
    chip := if s.chip.obs.tallyEnd ≤ s.chip.tick then s.chip.tallyClose else s.chip } := rfl

/-! Messages (R478). -/

theorem exec_msixVectorUnmask (f vec : Nat) (s : State) : exec (.msixVectorUnmask f vec) s = .next { s with
    chip := if !(s.chip.func f).present || decide (2048 ≤ vec) then s.chip else s.chip.unmask f vec } := rfl

theorem exec_msixVectorUnmask_absent (h : (s.chip.func f).present = false ∨ 2048 ≤ vec) : exec (.msixVectorUnmask f vec) s = .next s := by
  have hcond : (!(s.chip.func f).present || decide (2048 ≤ vec)) = true := by
    rw [Bool.or_eq_true, Bool.not_eq_true', decide_eq_true_eq]
    exact h
  rw [exec_msixVectorUnmask, if_pos hcond]

theorem exec_msixVectorUnmask_present (hpresent : (s.chip.func f).present = true) (hvec : vec < 2048) :
    exec (.msixVectorUnmask f vec) s = .next { s with chip := s.chip.unmask f vec } := by
  have hcond : ¬ (!(s.chip.func f).present || decide (2048 ≤ vec)) = true := by
    rw [hpresent, Bool.not_true, Bool.false_or, decide_eq_true_eq]
    exact not_le.mpr hvec
  rw [exec_msixVectorUnmask, if_neg hcond]

/-- The chip with the vector among the unmasked. -/
def Chip.withUnmasked (c : Chip) (f vec : Nat) : Chip := { c with obs := { c.obs with unmasked := (f, vec) :: c.obs.unmasked } }

theorem Chip.msix_pend (c : Chip) (f vec : Nat) : (c.msix f vec).obs.pend = c.obs.pend := by
  rw [Chip.msix]
  split_ifs <;> rfl

theorem Chip.unmask_idle (hmask : (f, vec) ∉ c.obs.unmasked) (hpba : (f, vec) ∉ c.obs.pba) : c.unmask f vec = c.withUnmasked f vec := by
  have hm : ¬ c.obs.unmasked.contains (f, vec) = true := by rwa [List.contains_iff_mem]
  have hp : c.obs.pba.contains (f, vec) = false := by rwa [Bool.eq_false_iff, ne_eq, List.contains_iff_mem]
  rw [Chip.unmask, if_neg hm]
  exact if_pos (by rw [hp]; rfl)

theorem Chip.unmask_sends (hmask : (f, vec) ∉ c.obs.unmasked) (hpba : (f, vec) ∈ c.obs.pba) (hpend : c.obs.pend = []) :
    c.unmask f vec = ({ c with obs := { c.obs with
      unmasked := (f, vec) :: c.obs.unmasked
      pba := c.obs.pba.filter (fun p => p != (f, vec)) } } : Chip).msix f vec := by
  have hm : ¬ c.obs.unmasked.contains (f, vec) = true := by rwa [List.contains_iff_mem]
  have hp : c.obs.pba.contains (f, vec) = true := by rwa [List.contains_iff_mem]
  rw [Chip.unmask, if_neg hm]
  dsimp only
  rw [hp, Bool.not_true, if_neg Bool.false_ne_true, Chip.msix_pend, hpend, List.filter_nil, List.foldl_nil]

/-! The tick mark and CC.EN (R467, R469). -/

/-- The tick mark is to be written. -/
def Chip.markDue (c : Chip) : Bool := decide (c.map.mark ≤ c.tick + 62500) && c.map.formed && !c.held && decide (c.rcu.phase ≠ .inReset)

theorem Chip.markDue_of (hmark : c.map.mark ≤ c.tick + 62500) (hformed : c.map.formed = true) (hheld : c.held = false)
    (hphase : c.rcu.phase ≠ .inReset) : c.markDue = true := by
  rw [Chip.markDue, decide_eq_true hmark, hformed, hheld, decide_eq_true hphase]
  rfl

theorem Chip.not_markDue (h : c.tick + 62500 < c.map.mark ∨ c.map.formed = false ∨ c.held = true) : ¬ c.markDue = true := by
  intro hdue
  simp only [Chip.markDue, Bool.and_eq_true, decide_eq_true_eq, Bool.not_eq_true'] at hdue
  obtain ⟨⟨⟨hmark, hformed⟩, hheld⟩, -⟩ := hdue
  rcases h with h | h | h
  · omega
  · exact Bool.false_ne_true (h ▸ hformed)
  · exact Bool.false_ne_true (hheld ▸ h)

theorem exec_tickMarkWrite (s : State) : exec .tickMarkWrite s = .next { s with
    chip := if s.chip.markDue then
      { s.chip with map := { s.chip.map with
        mark := s.chip.tick + 125000
        markSeq := s.chip.map.markSeq + 1 } }
    else s.chip } := rfl

theorem exec_ccEnSet (f ams asqs acqs : Nat) (s : State) : exec (.ccEnSet f ams asqs acqs) s = .next { s with
    chip := s.chip.ccEnable f ams asqs acqs } := rfl

/-- The function after CC.EN, with the admin queues' sizes. -/
def Chip.ccEnabled (c : Chip) (f ams asqs acqs : Nat) : Fn := { c.func f with
  ccEn := true
  rdy := c.rcu.phase == .ready || c.rcu.phase == .hold
  shst := 0
  sqs := [⟨0, asqs, 0, 0, 0, 0⟩]
  cqs := [⟨0, acqs, 0, 0, true, []⟩]
  feat := { (c.func f).feat with wrr := ams == 1 } }

theorem Chip.ccEnable_ignored (h : (c.func f).phase ≠ .enabled ∨ (c.func f).ccEn = true) (ams asqs acqs : Nat) : c.ccEnable f ams asqs acqs = c :=
  if_pos (by rcases h with h | h <;> simp [h])

theorem Chip.ccEnable_eq (hphase : (c.func f).phase = .enabled) (hen : (c.func f).ccEn = false) (ams asqs acqs : Nat) :
    c.ccEnable f ams asqs acqs = if 1 < ams then (c.setFn f (c.ccEnabled f ams asqs acqs)).raise 321 0 f 0 0
      else c.setFn f (c.ccEnabled f ams asqs acqs) :=
  if_neg (by simp [hphase, hen])

theorem Chip.raise_func (c : Chip) (e code fn a0 a1 g : Nat) : (c.raise e code fn a0 a1).func g = c.func g := by
  obtain ⟨o, r, t, n, h, -⟩ := c.raise_frame e code fn a0 a1
  rw [h, Chip.func, Chip.func]

theorem Chip.func_ccEnable (hphase : (c.func f).phase = .enabled) (hen : (c.func f).ccEn = false) (ams asqs acqs g : Nat) :
    (c.ccEnable f ams asqs acqs).func g = if g = f then c.ccEnabled f ams asqs acqs else c.func g := by
  rw [Chip.ccEnable_eq hphase hen, ← Chip.func_setFn]
  split_ifs
  · exact Chip.raise_func ..
  · rfl

theorem Chip.ccEnable_obs (hphase : (c.func f).phase = .enabled) (hen : (c.func f).ccEn = false) (hams : ams ≤ 1) (asqs acqs : Nat) :
    (c.ccEnable f ams asqs acqs).obs = c.obs := by
  rw [Chip.ccEnable_eq hphase hen, if_neg (not_lt.mpr hams)]
  rfl

end

/-- Settles O60: the captures by the words of the row that they put, the others by the case of their command. -/
theorem observation : Obligations.Observation := by
  intro s acc v f vec ams asqs acqs c gives x
  refine ⟨?clear, ?kept, ?log, ?tally, ?advance, ?early, ?close, rfl, ?absent, ?unmasks, ?sends, ?unmarked, ?marks, ?ignored, ?enables⟩
  case clear => exact fun h => (exec_logFlClear acc s).trans (by rw [if_pos h]; rfl)
  case kept => exact fun h => (exec_logFlClear acc s).trans (by rw [if_neg (Bool.eq_false_iff.mp h)])
  case log =>
    have hcur : bitsOf v.toNat 9 0 % 1024 = v.toNat % 1024 := (congrArg (· % 1024) (bitsOf_low v.toNat 9)).trans (Nat.mod_mod ..)
    exact ⟨_, exec_logFlCurWrite acc v s, fun k hk => (Chip.reg_logAt hk c _).trans (by rw [hcur]; rfl), c.logAt_obs _, rfl, rfl⟩
  case tally =>
    have hcur : bitsOf v.toNat 10 0 % 2048 = v.toNat % 2048 := (congrArg (· % 2048) (bitsOf_low v.toNat 10)).trans (Nat.mod_mod ..)
    exact ⟨_, exec_logTyCurWrite acc v s, fun k hk => (Chip.reg_tallyAt hk c _).trans (by rw [hcur]), c.tallyAt_obs _, rfl, rfl⟩
  case advance =>
    refine ⟨_, exec_logCaptureAdvance_log acc s, rfl, c.logAt_obs _, fun hlast => (Chip.reg_logAt (by decide) c _).trans ?_⟩
    have hnext : (c.fld Reg.logFlCur 9 0 + 1) % 1024 = c.fld Reg.logFlCur 9 0 + 1 := Nat.mod_eq_of_lt (by omega)
    rw [hnext]
    rfl
  case early => exact fun h => (exec_tallyPeriodEnd s).trans (by rw [if_neg (not_le.mpr h)])
  case close => exact fun h => (exec_tallyPeriodEnd s).trans (by rw [if_pos h])
  case absent => exact exec_msixVectorUnmask_absent
  case unmasks => exact fun hx hvec hpba hmask => (exec_msixVectorUnmask_present hx hvec).trans (by rw [Chip.unmask_idle hmask hpba]; rfl)
  case sends => exact fun hx hvec hpba hmask hpend => (exec_msixVectorUnmask_present hx hvec).trans (by rw [Chip.unmask_sends hmask hpba hpend])
  case unmarked => exact fun h => (exec_tickMarkWrite s).trans (by rw [if_neg (Chip.not_markDue h)])
  case marks => exact fun hmark hformed hheld hphase => (exec_tickMarkWrite s).trans (by rw [if_pos (Chip.markDue_of hmark hformed hheld hphase)])
  case ignored => exact fun h => (exec_ccEnSet f ams asqs acqs s).trans (by rw [Chip.ccEnable_ignored h])
  case enables =>
    intro hphase hen
    refine ⟨_, exec_ccEnSet f ams asqs acqs s, ?_, fun hams => Chip.ccEnable_obs hphase hen hams asqs acqs, fun g hg => ?_, rfl, rfl⟩
    · exact (Chip.func_ccEnable hphase hen ..).trans (if_pos rfl)
    · exact (Chip.func_ccEnable hphase hen ..).trans (if_neg hg)

end Sys2Proof.Machine
end
